-- ==== Sys2Proof/Word.lean ====
section
/-!
DEFINITION. The word types of the Kermogrim 7: bytes, and the 32- and 64-bit values the spec reads as words
(00_scope.md R5, R9; 02_stations.md R35).
-/

namespace Sys2Proof

/-- One byte of memory or of a packet. -/
abbrev Byte := BitVec 8

/-- A 64-bit register or scalar register value (R9, R35). -/
abbrev Word := BitVec 64

/-- A sequence of bytes, lowest address or first sent first. -/
abbrev Bytes := List Byte

end Sys2Proof
end

