-- ==== Sys2Proof/Syntax.lean ====
section
/-!
DEFINITION. The commands of the block: one constructor of `Instr` per row of the operation table, with the row's
operands. Station operations (R92-R122, R133-R155) carry the bundle that holds them; Plouth commands (R327-R345) carry
their packet; messages and requests carry their fields.
-/

namespace Sys2Proof

/-- A scalar register name s0-s31 (R35). -/
abbrev Reg := BitVec 5
/-- A vector register name v0-v63 (R35). -/
abbrev VReg := BitVec 6
/-- A token counter name t0-t63 (R35). -/
abbrev Tok := BitVec 6

/-! ### Slot operations (R92-R122, R133-R156) -/

/-- S-slot operations of format SR (R101, R102). -/
inductive SrOp | add | sub | and | or | xor | shl | shr | sra | mul | mulhu | min | max | minu | maxu | slt | sltu
deriving DecidableEq, Repr

/-- S-slot register-immediate operations of format SI that write D (R102). -/
inductive SiOp | addi | andi | ori | xori | shli | shri | srai | li | lim | lit
deriving DecidableEq, Repr

/-- S-slot saddlebag accesses of format SI (R102). -/
inductive SmOp | ld | ldw | st | stw
deriving DecidableEq, Repr

/-- S-slot conditional branches of format SB (R102, R103). -/
inductive SbOp | beq | bne | blt | bge | bltu | bgeu
deriving DecidableEq, Repr

/-- The operation of an S slot (R102). -/
inductive SOp
  | nop
  | sr (f : SrOp) (d a b : Reg)
  | chk (a b : Reg)
  | si (f : SiOp) (d a : Reg) (imm : BitVec 30)
  | mem (f : SmOp) (d a : Reg) (imm : BitVec 30)
  | br (f : SbOp) (a b : Reg) (off : BitVec 30)
  | jmp (off : BitVec 30)
  | call (off : BitVec 30)
  | ret
  | tinc (t : Tok) (n : BitVec 16)
  | twait (a : Reg) (t : Tok)
  | tread (d : Reg) (t : Tok)
  | ldshp (d : Reg) (t : Tok) (k : BitVec 8)
  | rdspec (d : Reg) (imm : BitVec 30)
  | step (bound : BitVec 12)
  | finish
  | bar (t : Tok) (g : BitVec 4)
deriving DecidableEq, Repr

/-- The fields of format XT (R112): a transfer between the caravanserai and the saddlebag. -/
structure XtOp where
  sa : Reg
  ca : Reg
  tw : Reg
  t : Tok
  soff : BitVec 15
  coff : BitVec 20
deriving DecidableEq, Repr

/-- The X-slot operations that act by a 32-byte descriptor, format XH (R113). -/
inductive XhOp | halo | fab | walk | disp
deriving DecidableEq, Repr

/-- The operation of an X slot (R112, R113). -/
inductive XOp
  | nop
  | xld (x : XtOp)
  | xst (x : XtOp)
  | vld (v : VReg) (a : Reg) (off : BitVec 12)
  | vst (v : VReg) (a : Reg) (off : BitVec 12)
  | xvs (v : VReg) (a : Reg) (lane : BitVec 6)
  | xsv (v : VReg) (a : Reg) (lane : BitVec 6)
  | xsend (link : BitVec 2) (rs rd rl : Reg) (tl tr : Tok)
  | desc (f : XhOp) (a : Reg) (off : BitVec 13)
  | xnote (a : Reg) (t : Tok) (n : BitVec 16)
deriving DecidableEq, Repr

/-- V-slot operations of format VR with one, two or three vector sources (R148). -/
inductive VrOp
  | vadd | vsub | vmul | vfma | vmax | vmin | vabs | vneg | vsel | vbcast | viota | vcvt
  | vexp | vlog | vrsqrt | vtanh | vrcp | vrsum | vrmax | vrmaxi
deriving DecidableEq, Repr

/-- The fields of VQ (R147, R153, R154). -/
structure VqOp where
  a : VReg
  dr : Reg
  tr : Reg
  hr : Reg
  mv : VReg
  fmt : BitVec 4
  half : Bool
  mode : BitVec 2
  shadow : Bool
  xscale : Bool
deriving DecidableEq, Repr

/-- The fields of format VR (R147). -/
structure VrArgs where
  d : VReg := 0
  a : VReg := 0
  b : VReg := 0
  c : VReg := 0
  ty : BitVec 4 := 0
  sty : BitVec 4 := 0
  lane : BitVec 8 := 0
  part : BitVec 2 := 0
deriving DecidableEq, Repr

/-- The operation of a V slot (R147, R148). -/
inductive VOp
  | nop
  | vr (f : VrOp) (x : VrArgs)
  | vrdacc (v : VReg) (acc : BitVec 2) (seg : BitVec 6) (sr : Reg)
  | vwracc (v : VReg) (acc : BitVec 2) (seg : BitVec 6) (sr : Reg)
  | vq (q : VqOp)
  | vdq (d : VReg) (ar : Reg) (fmt : BitVec 4) (half : Bool)
deriving DecidableEq, Repr

/-- The fields of WV (R135). -/
structure WvOp where
  shape : BitVec 3
  acc : BitVec 2
  start : Bool
  tags : Bool
  asrc : Bool
  wsrc : Bool
  afmt : BitVec 4
  wfmt : BitVec 4
  ar : Reg
  wr : Reg
  kch : BitVec 12
  kr : Reg
  ten : Bool
  t : Tok
deriving DecidableEq, Repr

/-- The operation of an M slot (R135). -/
inductive MOp
  | nop
  | wv (w : WvOp)
deriving DecidableEq, Repr

/-- One bundle: its header wait and the operations of its four slots (R92-R95). -/
structure Bundle where
  waitT : BitVec 6 := 0
  waitN : BitVec 6 := 0
  m : MOp := .nop
  v : VOp := .nop
  s : SOp := .nop
  x : XOp := .nop
deriving DecidableEq, Repr

/-- What a pending-write mark is for (R38, R85). -/
inductive Mark
  | s (r : Reg)
  | v (r : VReg)
  | acc (a : BitVec 2)
  | tag (addr : Nat)
deriving DecidableEq, Repr

/-! ### Operands of failures and of bring-up -/

/-- What the data hit by an uncorrectable HBM error was (R196): for a sealed page, the contexts whose read met it, and whether it
was a granule that failed its CRC-32C on fetch (R184). -/
inductive HbmHit
  | image (partition : Nat) (imageId : Nat) (granule : Nat)
  | page (partition : Nat) (spn : Nat) (readers : List Nat) (crc : Bool)
  | hamper (ctx : Nat)
  | free
deriving DecidableEq, Repr

/-- Which memory the patrol scrub reads (R197), or the slice or stack in which an ordinary read has met a word that it corrects
before the scrub does (R195, R197). -/
inductive ScrubTarget
  | slices
  | stack (n : Nat)
  | sliceRead (slice : Nat)
  | stackRead (n : Nat)
deriving DecidableEq, Repr

/-- What is found in the word (R195, R196): clean, that many corrected lanes or symbols, or uncorrectable, which in a stack hits
some data. -/
inductive ScrubFound
  | clean
  | corrected (n : Nat)
  | uncorrectable (hit : HbmHit)
deriving DecidableEq, Repr

/-- What self-test finds failed (R436). -/
structure SelfTest where
  /-- station and the STN_FAULT bits of its failed checks -/
  stations : List (Nat × BitVec 7) := []
  slices : List Nat := []
  /-- stations served by a failed ring stop or mesh router -/
  served : List Nat := []
  /-- station and link (0 N, 1 E, 2 S, 3 W) -/
  links : List (Nat × Nat) := []
  /-- stack and channel -/
  channels : List (Nat × Nat) := []
deriving DecidableEq, Repr

/-- The sensor kinds of R394. -/
inductive Sensor | island | hbm | gate | converter
deriving DecidableEq, Repr

/-- The JTAG instructions of R429. -/
inductive JtagOp | bypass | idcode | samplePreload | extest | debug (n : Nat)
deriving DecidableEq, Repr

/-! ### Plouth packets, RoCEv2 requests, Ethernet frames (R318-R331) -/

/-- The two controller slots (R335). -/
inductive Slot | a | b
deriving DecidableEq, Repr

/-- A Plouth packet that begins with MAGIC, with the source it came from (R327, R328). -/
structure Pkt where
  /-- source address (IPv4 as the IPv4-mapped IPv6 address) and UDP port -/
  srcAddr : BitVec 128
  srcPort : BitVec 16
  version : BitVec 8
  slot : BitVec 8
  flags : BitVec 16
  opcode : BitVec 16
  context : BitVec 16
  sequence : BitVec 32
  length : BitVec 32
  session : BitVec 32
  rsv : BitVec 64
  params : Bytes
  trailer : Bytes
  /-- the Ethernet frame that brought it: whether its FCS is good, and its VLAN tag (R318) -/
  fcsOk : Bool := true
  vlan : Option (BitVec 12) := none
  /-- destination address, `none` for the port's link-local one, and destination UDP port (R319, R327) -/
  dstAddr : Option (BitVec 128) := none
  dstPort : BitVec 16 := 48190
deriving DecidableEq, Repr

/-- The InfiniBand transport services a RoCEv2 packet can name (R321). -/
inductive RdmaService | rc | ud | uc | xrc
deriving DecidableEq, Repr

/-- The fields of a RoCEv2 request that the responder checks (R321-R324). -/
structure RdmaReq where
  qpn : Nat
  rkey : BitVec 32
  /-- GID and QPN the packet came from -/
  srcGid : BitVec 128
  srcQpn : Nat
  psn : Nat
  addr : Nat
  /-- an operation of the subset of R321 -/
  inSubset : Bool
  /-- the packet carried the CE mark -/
  ce : Bool
  /-- its transport service (R321) -/
  service : RdmaService := .rc
  /-- the frame's FCS and VLAN tag, and the destination address, as in `Pkt` (R318) -/
  fcsOk : Bool := true
  vlan : Option (BitVec 12) := none
  dstAddr : Option (BitVec 128) := none
deriving DecidableEq, Repr

/-- A received Ethernet frame (R318). -/
structure Frame where
  bytes : Nat
  fcsOk : Bool
  /-- the VLAN tag the frame carries, when it carries exactly one 802.1Q tag -/
  vlan : Option (BitVec 12)
deriving DecidableEq, Repr

/-- A UDP payload, and whether IPv4 brought it (R327). -/
structure Datagram where
  v4 : Bool
  bytes : Bytes
deriving DecidableEq, Repr

/-- What answers an RDMA operation of the package: the data that a Read returns, nothing for a Write, and whether the response
carried the CE mark (R325, R326). -/
structure ReadData where
  bytes : Bytes
  ce : Bool
deriving DecidableEq, Repr

/-- A queue pair on which no answer has come in time, or whose request an RNR NAK has put off (R326). -/
structure NoAnswer where
  qpn : Nat
  rnr : Bool
deriving DecidableEq, Repr

/-- Whom a boundary trip names (R424): the requester's partition, and the context that it is or works for, if any; 0xFF and none for
the sources that carry no requester. -/
structure Requester where
  partition : Nat
  ctx : Option Nat := none
deriving DecidableEq, Repr

/-- The input voltage, in mV, that stayed out of range for 20 us, and the one at the end of the save (R399). -/
structure InputDip where
  mv : Nat
  after : Nat
deriving DecidableEq, Repr

/-- An IPv4 ARP message (R318). -/
structure ArpMsg where
  isRequest : Bool
  senderMac : BitVec 48
  senderIp : BitVec 32
  targetIp : BitVec 32
deriving DecidableEq, Repr

/-- IPv6 Neighbor Discovery, and the outcome of Duplicate Address Detection (R318, R319). -/
inductive NdMsg
  | solicit (target source : BitVec 128)
  | advert (target : BitVec 128)
  /-- another node answered the package's own detection probe for its configured address -/
  | dadFailed
deriving DecidableEq, Repr

/-! ### Brisor (R285-R302) -/

/-- A Brisor message: the header of R293 and its data. The row gives MTYPE. -/
structure Msg where
  flags : BitVec 8
  srcPkg : BitVec 8
  dstPkg : BitVec 8
  job : BitVec 32
  tag : BitVec 32
  status : BitVec 16
  remote : Nat
  aux : BitVec 32
  data : Bytes
  /-- E2E_CRC as it arrived; a message that this package sends gets its own (R293) -/
  e2e : BitVec 32
  /-- the ingress port -/
  port : Nat
deriving DecidableEq, Repr

/-- What a relay block carries beside its data (R273, R274): its tree and block index, the members in position order
(package id and the epoch recorded at its request), this node's position, and the expert it belongs to. -/
structure RelayHdr where
  tree : Nat
  block : Nat
  members : List (Nat × Nat)
  position : Nat
  layer : Nat
  expert : Nat
deriving DecidableEq, Repr

/-- An identity record (R286). -/
structure Ident where
  serial : BitVec 64
  rack : BitVec 16
  tray : BitVec 8
  slot : BitVec 8
  port : BitVec 8
  role : BitVec 8
deriving DecidableEq, Repr

/-- A received flit (R289): its 256 bytes as they left FEC, and the codewords that FEC corrected and could not correct in it
(R317). -/
structure Flit where
  bytes : Bytes
  corrected : Nat
  uncorrected : Nat
deriving DecidableEq, Repr

/-! ### The commands -/

/-- One constructor per row of the operation table. -/
inductive Instr
  /-- ADD (R102): S-slot operation that writes A plus B, modulo 2^64, to D. -/
  | add (st : Nat) (b : Bundle) (d a r : Reg)
  /-- SUB (R102): S-slot operation that writes A minus B, modulo 2^64, to D. -/
  | sub (st : Nat) (b : Bundle) (d a r : Reg)
  /-- AND (R102): S-slot operation that writes the bitwise AND of A and B to D. -/
  | and (st : Nat) (b : Bundle) (d a r : Reg)
  /-- OR (R102): S-slot operation that writes the bitwise OR of A and B to D. -/
  | or (st : Nat) (b : Bundle) (d a r : Reg)
  /-- XOR (R102): S-slot operation that writes the bitwise XOR of A and B to D. -/
  | xor (st : Nat) (b : Bundle) (d a r : Reg)
  /-- SHL (R102): S-slot operation that writes A shifted left by the low 6 bits of B to D. -/
  | shl (st : Nat) (b : Bundle) (d a r : Reg)
  /-- SHR (R102): S-slot operation that writes A shifted right logically by the low 6 bits of B to D. -/
  | shr (st : Nat) (b : Bundle) (d a r : Reg)
  /-- SRA (R102): S-slot operation that writes A shifted right arithmetically by the low 6 bits of B to D. -/
  | sra (st : Nat) (b : Bundle) (d a r : Reg)
  /-- MUL (R102): S-slot operation that writes the low 64 bits of A times B to D. -/
  | mul (st : Nat) (b : Bundle) (d a r : Reg)
  /-- MULHU (R102): S-slot operation that writes the high 64 bits of the unsigned product A times B to D. -/
  | mulhu (st : Nat) (b : Bundle) (d a r : Reg)
  /-- MIN (R102): S-slot operation that writes the signed minimum of A and B to D. -/
  | min (st : Nat) (b : Bundle) (d a r : Reg)
  /-- MAX (R102): S-slot operation that writes the signed maximum of A and B to D. -/
  | max (st : Nat) (b : Bundle) (d a r : Reg)
  /-- MINU (R102): S-slot operation that writes the unsigned minimum of A and B to D. -/
  | minu (st : Nat) (b : Bundle) (d a r : Reg)
  /-- MAXU (R102): S-slot operation that writes the unsigned maximum of A and B to D. -/
  | maxu (st : Nat) (b : Bundle) (d a r : Reg)
  /-- SLT (R102): S-slot operation that writes 1 to D if A is less than B as signed values, else 0. -/
  | slt (st : Nat) (b : Bundle) (d a r : Reg)
  /-- SLTU (R102): S-slot operation that writes 1 to D if A is less than B as unsigned values, else 0. -/
  | sltu (st : Nat) (b : Bundle) (d a r : Reg)
  /-- CHK (R102): S-slot operation that raises program fault 0x23 when A is greater than or equal to B, unsigned. -/
  | chk (st : Nat) (b : Bundle) (a r : Reg)
  /-- ADDI (R102): S-slot operation that writes A plus the sign-extended immediate to D. -/
  | addi (st : Nat) (b : Bundle) (d a : Reg) (imm : BitVec 30)
  /-- ANDI (R102): S-slot operation that writes A AND the sign-extended immediate to D. -/
  | andi (st : Nat) (b : Bundle) (d a : Reg) (imm : BitVec 30)
  /-- ORI (R102): S-slot operation that writes A OR the sign-extended immediate to D. -/
  | ori (st : Nat) (b : Bundle) (d a : Reg) (imm : BitVec 30)
  /-- XORI (R102): S-slot operation that writes A XOR the sign-extended immediate to D. -/
  | xori (st : Nat) (b : Bundle) (d a : Reg) (imm : BitVec 30)
  /-- SHLI (R102): S-slot operation that writes A shifted left by IMM[5:0] to D. -/
  | shli (st : Nat) (b : Bundle) (d a : Reg) (imm : BitVec 30)
  /-- SHRI (R102): S-slot operation that writes A shifted right logically by IMM[5:0] to D. -/
  | shri (st : Nat) (b : Bundle) (d a : Reg) (imm : BitVec 30)
  /-- SRAI (R102): S-slot operation that writes A shifted right arithmetically by IMM[5:0] to D. -/
  | srai (st : Nat) (b : Bundle) (d a : Reg) (imm : BitVec 30)
  /-- LI (R102): S-slot operation that loads the sign-extended immediate into D. -/
  | li (st : Nat) (b : Bundle) (d : Reg) (imm : BitVec 30)
  /-- LIM (R102): S-slot operation that writes A to D with bits [59:30] replaced by the immediate. -/
  | lim (st : Nat) (b : Bundle) (d a : Reg) (imm : BitVec 30)
  /-- LIT (R102): S-slot operation that writes A to D with bits [63:60] replaced by IMM[3:0]. -/
  | lit (st : Nat) (b : Bundle) (d a : Reg) (imm : BitVec 30)
  /-- LD (R102): S-slot operation that loads 8 aligned saddlebag bytes at A plus IMM into D. -/
  | ld (st : Nat) (b : Bundle) (d a : Reg) (imm : BitVec 30)
  /-- LDW (R102): S-slot operation that loads 4 aligned saddlebag bytes at A plus IMM into D, zero-extended. -/
  | ldw (st : Nat) (b : Bundle) (d a : Reg) (imm : BitVec 30)
  /-- ST (R102): S-slot operation that stores 8 bytes of D to the saddlebag at A plus IMM. -/
  | st (st : Nat) (b : Bundle) (d a : Reg) (imm : BitVec 30)
  /-- STW (R102): S-slot operation that stores the low 4 bytes of D to the saddlebag at A plus IMM. -/
  | stw (st : Nat) (b : Bundle) (d a : Reg) (imm : BitVec 30)
  /-- BEQ (R103): S-slot branch, taken at issue, when A equals B. -/
  | beq (st : Nat) (b : Bundle) (a r : Reg) (off : BitVec 30)
  /-- BNE (R103): S-slot branch, taken at issue, when A differs from B. -/
  | bne (st : Nat) (b : Bundle) (a r : Reg) (off : BitVec 30)
  /-- BLT (R103): S-slot branch, taken at issue, when A is less than B as signed values. -/
  | blt (st : Nat) (b : Bundle) (a r : Reg) (off : BitVec 30)
  /-- BGE (R103): S-slot branch, taken at issue, when A is greater than or equal to B as signed values. -/
  | bge (st : Nat) (b : Bundle) (a r : Reg) (off : BitVec 30)
  /-- BLTU (R103): S-slot branch, taken at issue, when A is less than B as unsigned values. -/
  | bltu (st : Nat) (b : Bundle) (a r : Reg) (off : BitVec 30)
  /-- BGEU (R103): S-slot branch, taken at issue, when A is greater than or equal to B as unsigned values. -/
  | bgeu (st : Nat) (b : Bundle) (a r : Reg) (off : BitVec 30)
  /-- JMP (R103): S-slot unconditional jump to this bundle plus OFF. -/
  | jmp (st : Nat) (b : Bundle) (off : BitVec 30)
  /-- CALL (R102): S-slot call that pushes the return index and jumps, faulting 0x1E when 8 return entries are already held. -/
  | call (st : Nat) (b : Bundle) (off : BitVec 30)
  /-- RET (R102): S-slot return that pops the return stack and continues at the popped bundle index. -/
  | ret (st : Nat) (b : Bundle)
  /-- TINC (R44): S-slot operation that adds N to a local token counter, faulting on overflow above 65,535. -/
  | tinc (st : Nat) (b : Bundle) (t : Tok) (n : BitVec 16)
  /-- TWAIT (R95): S-slot wait on a token counter for the count in a register, combined indivisibly with the header wait. -/
  | twait (st : Nat) (b : Bundle) (a : Reg) (t : Tok)
  /-- TREAD (R102): S-slot operation that reads a token counter, after this bundle's subtractions, into D. -/
  | tread (st : Nat) (b : Bundle) (d : Reg) (t : Tok)
  /-- LDSHP (R107): S-slot operation that starts the read of a shape slot's word into D. -/
  | ldshp (st : Nat) (b : Bundle) (d : Reg) (t : Tok) (k : BitVec 8)
  /-- RDSPEC (R104): S-slot operation that reads the special value its selector names into D. -/
  | rdspec (st : Nat) (b : Bundle) (d : Reg) (imm : BitVec 30)
  /-- STEP (R108): S-slot end-of-step arrival that names the bound index of the next step and waits for every station. -/
  | step (st : Nat) (b : Bundle) (bound : BitVec 12)
  /-- FINISH (R111): S-slot operation that ends the station's stream; the last FINISH completes the context. -/
  | finish (st : Nat) (b : Bundle)
  /-- BAR (R109): S-slot arrival at a barrier group for the station's next generation. -/
  | bar (st : Nat) (b : Bundle) (t : Tok) (g : BitVec 4)
  /-- XLD (R113): X-slot transfer from the caravanserai to the saddlebag, checked at issue. -/
  | xld (st : Nat) (b : Bundle) (x : XtOp)
  /-- XST (R113): X-slot transfer from the saddlebag to the caravanserai, with an optional notification. -/
  | xst (st : Nat) (b : Bundle) (x : XtOp)
  /-- VLD (R113): X-slot load of 512 saddlebag bytes into a vector register. -/
  | vld (st : Nat) (b : Bundle) (v : VReg) (a : Reg) (off : BitVec 12)
  /-- VST (R113): X-slot store of a vector register's 512 bytes into the saddlebag. -/
  | vst (st : Nat) (b : Bundle) (v : VReg) (a : Reg) (off : BitVec 12)
  /-- XVS (R113): X-slot move of a 64-bit vector lane into a scalar register. -/
  | xvs (st : Nat) (b : Bundle) (v : VReg) (a : Reg) (lane : BitVec 6)
  /-- XSV (R113): X-slot move of a scalar register into a 64-bit vector lane. -/
  | xsv (st : Nat) (b : Bundle) (v : VReg) (a : Reg) (lane : BitVec 6)
  /-- XSEND (R121): X-slot neighbour send of RL saddlebag bytes across one link. -/
  | xsend (st : Nat) (b : Bundle) (link : BitVec 2) (rs rd rl : Reg) (tl tr : Tok)
  /-- XHALO (R122): X-slot halo send by a 32-byte descriptor in the saddlebag. -/
  | xhalo (st : Nat) (b : Bundle) (a : Reg) (off : BitVec 13)
  /-- XNOTE (R113): X-slot remote token increment by N at another station of the context. -/
  | xnote (st : Nat) (b : Bundle) (a : Reg) (t : Tok) (n : BitVec 16)
  /-- XFAB (R295): X-slot Brisor request handed to the station's drover by descriptor. -/
  | xfab (st : Nat) (b : Bundle) (a : Reg) (off : BitVec 13)
  /-- XWALK (R218): X-slot walk request handed to the page walker by descriptor. -/
  | xwalk (st : Nat) (b : Bundle) (a : Reg) (off : BitVec 13)
  /-- XDISP (R258): X-slot dispatch request handed to the dispatch engine by descriptor. -/
  | xdisp (st : Nat) (b : Bundle) (a : Reg) (off : BitVec 13)
  /-- VADD (R148): V-slot lane-wise addition of A and B into D. -/
  | vadd (st : Nat) (b : Bundle) (d a r : VReg) (ty : BitVec 4)
  /-- VSUB (R148): V-slot lane-wise subtraction of B from A into D. -/
  | vsub (st : Nat) (b : Bundle) (d a r : VReg) (ty : BitVec 4)
  /-- VMUL (R148): V-slot lane-wise multiplication of A and B into D. -/
  | vmul (st : Nat) (b : Bundle) (d a r : VReg) (ty : BitVec 4)
  /-- VFMA (R148): V-slot lane-wise fused multiply-add A times B plus C, rounded once, into D. -/
  | vfma (st : Nat) (b : Bundle) (d a r c : VReg) (ty : BitVec 4)
  /-- VMAX (R148): V-slot lane-wise maximum of A and B into D. -/
  | vmax (st : Nat) (b : Bundle) (d a r : VReg) (ty : BitVec 4)
  /-- VMIN (R148): V-slot lane-wise minimum of A and B into D. -/
  | vmin (st : Nat) (b : Bundle) (d a r : VReg) (ty : BitVec 4)
  /-- VABS (R148): V-slot lane-wise absolute value of A into D. -/
  | vabs (st : Nat) (b : Bundle) (d a : VReg) (ty : BitVec 4)
  /-- VNEG (R148): V-slot lane-wise negation of A into D. -/
  | vneg (st : Nat) (b : Bundle) (d a : VReg) (ty : BitVec 4)
  /-- VSEL (R148): V-slot lane-wise select of B where A is positive, else C, into D. -/
  | vsel (st : Nat) (b : Bundle) (d a r c : VReg) (ty : BitVec 4)
  /-- VBCAST (R148): V-slot broadcast of lane LANE of A into every lane of D. -/
  | vbcast (st : Nat) (b : Bundle) (d a : VReg) (ty : BitVec 4) (lane : BitVec 8)
  /-- VIOTA (R148): V-slot write of each lane's index into D. -/
  | viota (st : Nat) (b : Bundle) (d : VReg) (ty : BitVec 4)
  /-- VCVT (R152): V-slot conversion of A from STYPE to TYPE for the lanes PART selects. -/
  | vcvt (st : Nat) (b : Bundle) (d a : VReg) (ty sty : BitVec 4) (part : BitVec 2)
  /-- VEXP (R149): V-slot special function e to the A, rounded once, into D. -/
  | vexp (st : Nat) (b : Bundle) (d a : VReg) (ty : BitVec 4)
  /-- VLOG (R149): V-slot special function natural logarithm of A, rounded once, into D. -/
  | vlog (st : Nat) (b : Bundle) (d a : VReg) (ty : BitVec 4)
  /-- VRSQRT (R149): V-slot special function reciprocal square root of A, rounded once, into D. -/
  | vrsqrt (st : Nat) (b : Bundle) (d a : VReg) (ty : BitVec 4)
  /-- VTANH (R149): V-slot special function hyperbolic tangent of A, rounded once, into D. -/
  | vtanh (st : Nat) (b : Bundle) (d a : VReg) (ty : BitVec 4)
  /-- VRCP (R149): V-slot special function reciprocal of A, rounded once, into D. -/
  | vrcp (st : Nat) (b : Bundle) (d a : VReg) (ty : BitVec 4)
  /-- VRSUM (R150): V-slot reduction summing the 128 lanes of A in fixed order into every lane of D. -/
  | vrsum (st : Nat) (b : Bundle) (d a : VReg) (ty : BitVec 4)
  /-- VRMAX (R150): V-slot reduction taking the largest of the 128 lanes of A into every lane of D. -/
  | vrmax (st : Nat) (b : Bundle) (d a : VReg) (ty : BitVec 4)
  /-- VRMAXI (R150): V-slot reduction writing the largest lane of A and its index into D. -/
  | vrmaxi (st : Nat) (b : Bundle) (d a : VReg) (ty : BitVec 4)
  /-- VRDACC (R151): V-slot copy of one accumulator segment into a vector register. -/
  | vrdacc (st : Nat) (b : Bundle) (v : VReg) (acc : BitVec 2) (seg : BitVec 6) (sr : Reg)
  /-- VWRACC (R151): V-slot copy of a vector register into one accumulator segment. -/
  | vwracc (st : Nat) (b : Bundle) (v : VReg) (acc : BitVec 2) (seg : BitVec 6) (sr : Reg)
  /-- VQ (R154): V-slot quantise of 128 FP32 lanes into half a chunk record, counted in its conversion block, which it may open or close with a detour decision. -/
  | vq (st : Nat) (b : Bundle) (q : VqOp)
  /-- VDQ (R155): V-slot dequantise of half a chunk record into 128 FP32 lanes. -/
  | vdq (st : Nat) (b : Bundle) (d : VReg) (ar : Reg) (fmt : BitVec 4) (half : Bool)
  /-- WV (R138): M-slot weave instruction, checked at issue, that computes one output tile over K chunks. -/
  | wv (st : Nat) (b : Bundle) (w : WvOp)
  /-- PENDING_MARK_CLEAR (R38): An instruction's fixed latency ends and the pending-write mark of its destination clears. -/
  | pendingMarkClear (st : Nat) (mark : Mark)
  /-- LINE_FETCH_ARRIVE (R42): An instruction-store line arrives from the caravanserai and issue of a waiting bundle may continue. -/
  | lineFetchArrive (st line : Nat)
  /-- XLD_COMPLETE (R117): Every byte of an XLD is visible in the saddlebag and its token counter rises. -/
  | xldComplete (st i : Nat)
  /-- XST_COMPLETE (R117): Every byte of an XST is visible in the caravanserai and its local token counter rises. -/
  | xstComplete (st i : Nat)
  /-- XST_NOTIFY_DELIVER (R117): An XST's notification reaches the notified station's counter. -/
  | xstNotifyDeliver (st i : Nat)
  /-- XNOTE_DELIVER (R117): An XNOTE's increment reaches the target station's counter after the bytes it is ordered after are visible. -/
  | xnoteDeliver (st i : Nat)
  /-- XSEND_SOURCE_READ (R121): Every source byte of an XSEND has been read, and the local counter TL rises. -/
  | xsendSourceRead (st i : Nat)
  /-- XSEND_DELIVER (R162): An XSEND's bytes are visible in the neighbour's saddlebag and counter TR rises there. -/
  | xsendDeliver (st i : Nat)
  /-- HALO_DESCRIPTOR_COPY (R122): Within 2 cycles of issue the halo descriptor is copied and checked, and the send starts on its link. -/
  | haloDescriptorCopy (st i : Nat)
  /-- HALO_SOURCE_READ (R162): The last halo row leaves and the local token rises. -/
  | haloSourceRead (st i : Nat)
  /-- HALO_DELIVER (R162): Halo rows cross the link and the remote token rises, once per send or once per row. -/
  | haloDeliver (st i : Nat)
  /-- LDSHP_ARRIVE (R107): A shape word reaches the station and is checked, and D is written and the token counter increments. -/
  | ldshpArrive (st i : Nat)
  /-- WV_START (R140): An accepted weave instruction starts once its fill has passed and the previous instruction has ended. -/
  | wvStart (st : Nat)
  /-- TOPUP_ARRIVE (R144): The top-up records of a detoured chunk reach the weave's top-up buffer and the chunk may start. -/
  | topupArrive (st : Nat)
  /-- WV_COMPLETE (R140): Ten cycles after a weave instruction ends, the accumulators are written, the marks clear and the completion token may rise. -/
  | wvComplete (st : Nat)
  /-- STEP_RELEASE (R108): Every station has arrived at STEP, so the step ends and its summary, status, quotas, watchdog and release follow. -/
  | stepRelease (ctx : Nat)
  /-- BARRIER_RELEASE (R109): Every member has arrived for a generation, so each member's counter T is incremented. -/
  | barrierRelease (ctx : Nat) (g : BitVec 4)
  /-- DCO_SETTLE (R50): An island's oscillator settles on a new target frequency, or sets DCO_LOCK when it fails to do so in 200 ns. -/
  | dcoSettle (st : Nat) (locked : Bool)
  /-- DROOP_DETECT (R51): An island's supply droops below its threshold and the oscillator stretches its cycles. -/
  | droopDetect (st eighths : Nat)
  /-- DROOP_RECOVER (R51): An island's supply recovers and the stretch is released step by step. -/
  | droopRecover (st : Nat)
  /-- ISLAND_WINDOW_END (R52): A 1 µs island window ends, and its cycle count is reported and judged for a floor shortfall. -/
  | islandWindowEnd (st cycles : Nat)
  /-- FLOOR_BREACH_REPORT (R385): The 100 ms limit on floor-breach events ends, and a POWER event with the count of short windows may be sent. -/
  | floorBreachReport (p : Nat)
  /-- STATION_CHECK_FAIL (R464): A residue or parity check of a station fails, so the station is marked failed and its holders are torn down. -/
  | stationCheckFail (st : Nat) (checks : BitVec 7)
  /-- RING_STOP_FAIL (R463): A ring stop or mesh router fails, so every station it serves is marked failed. -/
  | ringStopFail (router : Bool) (st : Nat)
  /-- LINK_FAIL (R463): A neighbour link fails, so it is marked failed at both ends and contexts that name both ends are torn down. -/
  | linkFail (st : Nat) (link : BitVec 2)
  /-- SLICE_UNCORRECTABLE (R196): An uncorrectable slice error is found, so the station above it fails. -/
  | sliceUncorrectable (slice offset : Nat)
  /-- HBM_UNCORRECTABLE (R196): An uncorrectable HBM error is found, and the outcome depends on what the data was: poisoning, teardown or a count. -/
  | hbmUncorrectable (stack offset : Nat) (hit : HbmHit)
  /-- PATROL_SCRUB_STEP (R197): The patrol scrub reads and corrects one slice or stack word, and completes a pass when it reaches the end. -/
  | patrolScrubStep (target : ScrubTarget) (found : ScrubFound)
  /-- TRANSIT_WRITE_DOWN (R173): Data in an eighth's transit buffer is written down to its HBM target, freeing room. -/
  | transitWriteDown (eighth : Nat)
  /-- CARAVAN_GROUP_BEGIN (R190): A caravan group's release conditions are met and its granules begin to be fetched. -/
  | caravanGroupBegin (ctx : Nat)
  /-- CARAVAN_GROUP_COMPLETE (R190): Every byte of a caravan group is visible, and NOTIFY_TOKEN rises at the stations it names. -/
  | caravanGroupComplete (ctx i : Nat)
  /-- WALK_READ (R219): The walker lists the blocks of each lengths entry for one layer, in the order MODE sets. -/
  | walkRead (ctx : Nat)
  /-- WALK_APPEND (R226): The walker allocates bundles for the blocks that new tokens touch and lists them. -/
  | walkAppend (ctx : Nat)
  /-- WALK_COMMIT (R227): The walker requests seals for the filled pages of one layer. -/
  | walkCommit (ctx : Nat)
  /-- SEAL_COMPLETE (R182): Every HBM write of a seal is acknowledged, so the page is sealed, and the bundle may be keyed and offered to the ledger. -/
  | sealComplete (i : Nat)
  /-- WALK_LOOKUP (R237): The walker probes the ledger for the longest sealed prefix and takes references. -/
  | walkLookup (ctx : Nat)
  /-- WALK_FORK (R228): The walker makes one sequence a copy of another sequence's first tokens. -/
  | walkFork (ctx : Nat)
  /-- WALK_RELEASE (R229): The walker frees a sequence and its blocks. -/
  | walkRelease (ctx : Nat)
  /-- WALK_ACK (R219): The walker frees the issuing station's oldest staging frames. -/
  | walkAck (ctx : Nat)
  /-- WALK_STAGE_ARRIVE (R222): A staged sealed page lands in its staging frame and ITEM_TOKEN rises. -/
  | walkStageArrive (ctx : Nat) (crcOk : Bool)
  /-- ROUTE (R259): The dispatch engine reads a group's route entries for a layer and counts its pairs. -/
  | route (ctx group : Nat)
  /-- ROUTE_PROCEED (R259): Once every group has routed and the plan is settled, the engine decides, lists lanes and ships pairs. -/
  | routeProceed (ctx : Nat)
  /-- BORROW_REQUEST_SEND (R259): Once every local lane holding a borrowed expert has had its caravan group begun, the borrow request is sent to the home. -/
  | borrowRequestSend (ctx layer expert : Nat)
  /-- PLAN_DEADLINE (R271): PLAN_DEADLINE_NS passes with no plan posted, so the plan in force stays and the step counts as late. -/
  | planDeadline (ctx : Nat)
  /-- SERVE (R263): The engine takes a SERVE request for a layer and waits for every shipment-done notice. -/
  | serve (ctx : Nat)
  /-- SERVE_PROCEED (R263): Once every notice has arrived, the engine lists the arrivals into serve lanes by epoch. -/
  | serveProceed (ctx : Nat)
  /-- DISPATCH_RETURN (R264): The engine sends the result rows of a serve lane to their origins, dropping stale epochs. -/
  | dispatchReturn (ctx : Nat)
  /-- RELAY_TREE_START (R273): MERGE_NS after the first borrow request, the home starts a relay tree and sends its blocks to position 0. -/
  | relayTreeStart (ctx layer expert : Nat)
  /-- DROVER_DESCRIPTOR_START (R301): A drover begins a queued descriptor and issues its units onto rails. -/
  | droverDescriptorStart (d : Nat)
  /-- READ (R296): A Brisor READ arrives at its target and is answered with data or a status. -/
  | read (m : Msg)
  /-- WRITE (R296): A Brisor WRITE arrives at its target, is made visible and is answered. -/
  | write (m : Msg)
  /-- BULK_READ (R296): A Brisor 4 KiB BULK_READ arrives at its target, which may merge it, and is answered. -/
  | bulkRead (m : Msg)
  /-- BULK_WRITE (R296): A Brisor 4 KiB BULK_WRITE arrives at its target, is made visible and is answered. -/
  | bulkWrite (m : Msg)
  /-- ATOMIC_ADD (R300): A Brisor atomic ADD wraps the operand into the target word and returns zeros. -/
  | atomicAdd (m : Msg)
  /-- ATOMIC_MAX (R300): A Brisor atomic MAX stores the larger value in the target word and returns zeros. -/
  | atomicMax (m : Msg)
  /-- ATOMIC_CAS (R300): A Brisor atomic compare-and-swap stores the operand on a match and returns the old word. -/
  | atomicCas (m : Msg)
  /-- ATOMIC_FADD (R300): A Brisor fetching add adds the operand and returns the old word. -/
  | atomicFadd (m : Msg)
  /-- NOTIFY (R296): A Brisor NOTIFY adds its count to a counter of the target context's station, or to its shelf, and is answered. -/
  | notify (m : Msg)
  /-- RESPONSE (R302): A Brisor response reaches the requester, and the unit completes, retries, faults or holds by its status. -/
  | response (m : Msg)
  /-- ARRIVAL (R262): A shipped pair's arrival record is written into the home's arrival slab. -/
  | arrival (m : Msg)
  /-- SHIP_DONE (R263): A shipment-done notice for a step and layer arrives at a home. -/
  | shipDone (m : Msg) (stepNo layer count : Nat)
  /-- BORROW (R273): A borrow request arrives at the home and joins a merge window. -/
  | borrow (m : Msg) (stepNo layer expert epoch : Nat)
  /-- CANCEL (R279): A cancel notice updates the origin's current epoch at a home and drops the origin's stale work. -/
  | cancel (m : Msg) (epoch : Nat)
  /-- RETURN (R264): A return record reaches the origin and, when its epoch is current, is written into the return area and RETURN_TOKEN rises. -/
  | returnRec (m : Msg)
  /-- RELAY_BLOCK (R274): A relay block arrives, is forwarded to child positions, and is written to the lanes when its epoch is current. -/
  | relayBlock (m : Msg) (r : RelayHdr)
  /-- DEPARTURE (R313): A DEPARTURE arrives, so the sender is marked departed and the contexts that name it are held. -/
  | departure (m : Msg)
  /-- RETRY_RESEND (R302): The back-off after a RETRY status ends and the unit is sent again. -/
  | retryResend (d i : Nat)
  /-- UNIT_TIMEOUT (R309): A unit reaches TIMEOUT_US without completing and its context becomes fabric-held. -/
  | unitTimeout (d i : Nat)
  /-- HELD_UNITS_RELEASE (R305): The units sent on a departed rail have settled, so the held units go out under the new live set. -/
  | heldUnitsRelease (pkg : Nat)
  /-- HOLD_EXPIRE (R310): HOLD_MS passes on a held context and it is torn down with reason 0x03. -/
  | holdExpire (ctx : Nat)
  /-- QUARANTINE_END (R312): The 10 ms quarantine of a job id ends. -/
  | quarantineEnd (job : BitVec 32)
  /-- FLIT_RECEIVE (R292): A flit arrives on a port and is accepted and acknowledged, or discarded with NAK, and its credits and acknowledgements are applied. -/
  | flitReceive (port : Nat) (f : Flit)
  /-- IDENTITY_FLIT_RX (R287): A far-end identity flit is received and compared with the wiring plan, and the port comes up or stays down. -/
  | identityFlitRx (port : Nat) (record : Bytes)
  /-- PORT_LANE_LOCK (R285): Electrical training and FEC lock of a port complete and the port takes its width. -/
  | portLaneLock (port : Nat) (locked : BitVec 8)
  /-- CREDIT_INIT_DONE (R285): Credit initialisation completes and the port is up and live. -/
  | creditInitDone (port : Nat) (credits : List Nat)
  /-- TRAIN_STEP_TIMEOUT (R285): A training step exceeds its limit and the port returns to step 1 after 1 s. -/
  | trainStepTimeout (port : Nat)
  /-- LANE_FAIL (R307): A Brisor lane loses lock or exceeds its error limit, and the port degrades to width 4. -/
  | laneFail (port : Nat) (lane : BitVec 3) (codewords : Bool)
  /-- PORT_DOWN (R308): A Brisor port goes down: its retry buffer is lost, it leaves live and it retrains. -/
  | portDown (port : Nat)
  /-- FAR_END_SILENT (R308): The far end of a port has sent nothing for 100 µs and the port goes down. -/
  | farEndSilent (port : Nat)
  /-- RDMA_WRITE (R323): A RoCEv2 RDMA Write arrives on a queue pair and is checked, stored and acknowledged, or refused. -/
  | rdmaWrite (q : RdmaReq) (data : Bytes)
  /-- RDMA_READ (R323): A RoCEv2 RDMA Read arrives on a queue pair and is answered with data or a NAK. -/
  | rdmaRead (q : RdmaReq) (len : Nat)
  /-- RDMA_SEND (R324): A RoCEv2 Send is written into the queue pair's Send ring and its receive token is incremented. -/
  | rdmaSend (q : RdmaReq) (data : Bytes)
  /-- RDMA_COMPLETION (R326): An RDMA operation that the package started as requester is acknowledged or returns its data. -/
  | rdmaCompletion (qpn : Nat) (data : ReadData)
  /-- RDMA_RETRY_TIMEOUT (R326): A requester queue pair's acknowledgement times out and it retries, or enters the error state. -/
  | rdmaRetryTimeout (qpn : NoAnswer)
  /-- CNP_RECEIVE (R325): A Congestion Notification Packet halves a queue pair's send rate. -/
  | cnpReceive (qpn : Nat)
  /-- RATE_RECOVERY (R325): 55 µs pass without a congestion notification and the queue pair's rate rises by 5 % of line rate. -/
  | rateRecovery (qpn : Nat)
  /-- HOST_LINK_UP (R349): The host Ethernet link comes up. -/
  | hostLinkUp
  /-- HOST_LINK_DOWN (R349): The host Ethernet link goes down. -/
  | hostLinkDown
  /-- FRAME_DISCARD (R318): A received frame that the port does not accept is discarded and counted. -/
  | frameDiscard (f : Frame)
  /-- ARP (R318): An IPv4 ARP message is answered. -/
  | arp (f : Frame) (m : ArpMsg)
  /-- NEIGHBOR_DISCOVERY (R319): An IPv6 Neighbor Discovery message is handled, including the outcome of Duplicate Address Detection. -/
  | neighborDiscovery (f : Frame) (m : NdMsg)
  /-- ICMP_ECHO (R318): An ICMP or ICMPv6 echo request is answered. -/
  | icmpEcho (f : Frame) (v6 : Bool) (src dst : BitVec 128) (body : Bytes)
  /-- PLOUTH_DISCARD (R327): A UDP payload that is too short, lacks MAGIC, or is a reply or event is discarded without a reply. -/
  | plouthDiscard (payload : Datagram)
  /-- EVENT_RETRANSMIT (R336): Every 10 ms the oldest unacknowledged event of a slot is sent again. -/
  | eventRetransmit (slot : Slot)
  /-- STATUS_MIN (R344): Hardware-path command that returns the package's mode, identity, baton state and a fresh challenge. -/
  | statusMin (p : Pkt)
  /-- RESET (R341): Hardware-path command that sends DEPARTURE and begins a warm reset. -/
  | reset (p : Pkt)
  /-- HALT (R341): Hardware-path command that sends DEPARTURE, tears down every context and enters mode 0x03. -/
  | halt (p : Pkt)
  /-- ZEROIZE (R431): Hardware-path command that contains the package, erases its data and MRAM records, and ends in mode 0x04. -/
  | zeroize (p : Pkt)
  /-- ZEROIZE_COMPLETE (R431): Zeroing of HBM and MRAM ends and GATE_MODE becomes 0x04. -/
  | zeroizeComplete
  /-- BATON_BREAK (R338): Hardware-path command by which the other slot takes an expired baton. -/
  | batonBreak (p : Pkt)
  /-- ENVELOPE_DROP (R378): Hardware-path command that puts the package on its fallback envelope at once. -/
  | envelopeDrop (p : Pkt)
  /-- SESSION_OPEN (R415): Signed command that opens a session with an ephemeral key exchange and derives the session keys. -/
  | sessionOpen (p : Pkt)
  /-- ENROL (R414): SESSION_OPEN with ENROL set, which binds a slot to a new key and address. -/
  | enrol (p : Pkt)
  /-- SESSION_CLOSE (R335): Command that ends the slot's session, discarding its cache and events and freeing a held baton. -/
  | sessionClose (p : Pkt)
  /-- EVENT_ACK (R336): Command that acknowledges every event up to ACK_SEQ. -/
  | eventAck (p : Pkt)
  /-- BATON_TAKE (R338): Command that takes the free baton or renews one the slot already holds. -/
  | batonTake (p : Pkt)
  /-- BATON_RENEW (R338): Command by which the holder renews the baton lease. -/
  | batonRenew (p : Pkt)
  /-- BATON_RELEASE (R338): Command by which the holder frees the baton. -/
  | batonRelease (p : Pkt)
  /-- BATON_EXPIRE (R338): A baton lease runs out and the BATON event is sent. -/
  | batonExpire
  /-- FW_CLAIM_TIMEOUT (R343): A command has waited 100 ms for the firmware, so the hardware path claims it and replies 0x0F01. -/
  | fwClaimTimeout
  /-- REG_READ (R345): Command that reads 1–64 consecutive registers. -/
  | regRead (p : Pkt)
  /-- REG_WRITE (R345): Command that writes registers in order; covers writes to registers with no behaviour of their own, stopping at the first refusal. -/
  | regWrite (p : Pkt)
  /-- QP_CREATE (R345): Command that creates a queue pair of a given kind and returns its number and RKEY. -/
  | qpCreate (p : Pkt)
  /-- QP_DESTROY (R475): Command that drains and frees a queue pair. -/
  | qpDestroy (p : Pkt)
  /-- ITIN_LOAD (R345): Command that reads an itinerary file from controller memory over an outbound queue pair. -/
  | itinLoad (p : Pkt)
  /-- ITIN_CHECK (R131): When the itinerary file has been read, the loader checks it, then creates the context or refuses it. -/
  | itinCheck (file : Bytes)
  /-- CTX_START (R356): Command that moves a LOADED context to SWAPPED, or to PARKED. -/
  | ctxStart (p : Pkt)
  /-- CTX_END (R356): Command that frees a FINISHED context, or tears any other context down with reason 0x0D. -/
  | ctxEnd (p : Pkt)
  /-- CTX_SCHED_SLICE (R356): CTX_SCHED OP 1, which sets the context's slice length. -/
  | ctxSchedSlice (p : Pkt)
  /-- CTX_SCHED_RESERVE (R361): CTX_SCHED OP 2, which gives the context a reserved window in every period. -/
  | ctxSchedReserve (p : Pkt)
  /-- CTX_SCHED_UNRESERVE (R356): CTX_SCHED OP 3, which ends the context's reservation. -/
  | ctxSchedUnreserve (p : Pkt)
  /-- CTX_SCHED_PARK (R356): CTX_SCHED OP 4, which parks the context at once or at its next step release. -/
  | ctxSchedPark (p : Pkt)
  /-- CTX_SCHED_UNPARK (R356): CTX_SCHED OP 5, which returns a parked context to READY or SWAPPED. -/
  | ctxSchedUnpark (p : Pkt)
  /-- CTX_SCHED_INTERVAL (R368): CTX_SCHED OP 6, which sets the interval of STEP_STATUS reports. -/
  | ctxSchedInterval (p : Pkt)
  /-- CTX_QUERY (R356): Command that returns a context's state, job, step, footprint and times. -/
  | ctxQuery (p : Pkt)
  /-- CTX_POLICY (R86): Command that replaces a context's detour policy record from its next step. -/
  | ctxPolicy (p : Pkt)
  /-- PLAN_POST (R270): Command that checks a plan record in its buffer and copies it into the plan store. -/
  | planPost (p : Pkt)
  /-- BATCH_CANCEL (R278): Command that increments the batch epoch, notifies peers and completes awaited pairs and lanes as cancelled. -/
  | batchCancel (p : Pkt)
  /-- PART_LAYOUT (R353): Command that tears down contexts and recreates the partitions in a new count. -/
  | partLayout (p : Pkt)
  /-- PART_KEY (R417): Command that sets or clears a partition's itinerary key. -/
  | partKey (p : Pkt)
  /-- WIRING_PLAN (R288): Command that loads the wiring plan, setting the fabric id and rematching the ports. -/
  | wiringPlan (p : Pkt)
  /-- JOB_TEARDOWN (R311): Command that marks a job dead, tears down its context and begins its quarantine. -/
  | jobTeardown (p : Pkt)
  /-- ENVELOPE_GRANT (R377): Command that grants an envelope lease and may store a new fallback envelope. -/
  | envelopeGrant (p : Pkt)
  /-- LEASE_EXPIRE (R378): The envelope lease ends and the fallback envelope applies. -/
  | leaseExpire
  /-- LEDGER_READ (R388): Command that returns draw-ledger records, or the saved last-gasp record. -/
  | ledgerRead (p : Pkt)
  /-- ALARM_POLICY (R426): Command that sets the isolation flag, the authentication limits and the alarm levels. -/
  | alarmPolicy (p : Pkt)
  /-- ATTEST (R419): Command that builds and signs an attestation report. -/
  | attest (p : Pkt)
  /-- FW_UPDATE (R413): Command that fetches, checks and writes a firmware image to the bank not running, and selects it for the next boot. -/
  | fwUpdate (p : Pkt) (answer : Option ReadData)
  /-- TALLY_STREAM_START (R458): TALLY_STREAM OP 1, which starts periodic tally records to controller memory. -/
  | tallyStreamStart (p : Pkt)
  /-- TALLY_STREAM_STOP (R460): TALLY_STREAM OP 2, which stops the stream and drains its ring. -/
  | tallyStreamStop (p : Pkt)
  /-- NET_CONFIG (R345): Command that stores and applies a new network configuration. -/
  | netConfig (p : Pkt)
  /-- SERVICE_START_UNIFIED (R442): SERVICE_START with MODE 0x02, which moves the package from split mode to unified service. -/
  | serviceStartUnified (p : Pkt)
  /-- SERVICE_START_SPLIT (R442): SERVICE_START with MODE 0x01, which clears the ledger and memory and returns to split mode. -/
  | serviceStartSplit (p : Pkt)
  /-- FAULT_LOG_READ (R480): Command that returns entries of the fault log. -/
  | faultLogRead (p : Pkt)
  /-- CLR_MIN (R63): STN_CTRL write of CLR_MIN, which resets MIN_WINDOW to 0xFFFF. -/
  | clrMin (p : Pkt)
  /-- MARK_FAILED (R463): STN_CTRL write of MARK_FAILED, which marks the station failed as a failed check would. -/
  | markFailed (p : Pkt)
  /-- REMOVE (R198): HB_CTRL write of REMOVE, which tears down dependants and takes a channel out of live. -/
  | remove (p : Pkt)
  /-- CS_SCRUB (R475): CS_SCRUB write that enables, disables or re-periods the caravanserai patrol scrub. -/
  | csScrub (p : Pkt)
  /-- HB_SCRUB (R475): HB_SCRUB write that enables, disables or re-periods a stack's patrol scrub. -/
  | hbScrub (p : Pkt)
  /-- RETRAIN (R307): FB_PORT_CTRL write of RETRAIN, which clears failed lanes and retrains the port from step 1. -/
  | retrain (p : Pkt)
  /-- FORCE_UP (R287): FB_PORT_CTRL write of FORCE_UP, which brings a mismatched port up. -/
  | forceUp (p : Pkt)
  /-- DISABLE (R475): FB_PORT_CTRL write of DISABLE, which drains the port and holds it down. -/
  | disable (p : Pkt)
  /-- FB_REACH (R305): FB_REACH write that changes which rails may reach a package. -/
  | fbReach (p : Pkt)
  /-- FREEZE (R455): TL_CTRL write of FREEZE, which requests a snapshot pulse. -/
  | freeze (p : Pkt)
  /-- CLEAR (R455): TL_CTRL write of CLEAR, which takes a snapshot and clears the programmable counters. -/
  | clear (p : Pkt)
  /-- TL_RING (R462): TL_RING write that sets the local dump-ring size, refused while a stream runs. -/
  | tlRing (p : Pkt)
  /-- TL_SEL (R453): Write to a tally selection register, which changes the counted events and increments TL_SELECT_GEN. -/
  | tlSel (p : Pkt)
  /-- PX_WAYS (R249): PX_WAYS write that changes a partition's ledger ways and invalidates removed unreferenced entries. -/
  | pxWays (p : Pkt)
  /-- PX_PAGES (R249): PX_PAGES write that changes the ledger reserve, evicting entries to fit. -/
  | pxPages (p : Pkt)
  /-- GV_CTRL (R404): GV_CTRL write that changes which GV_EVENT bits assert ALERT_N. -/
  | gvCtrl (p : Pkt)
  /-- GV_EVENT (R404): W1C write to GV_EVENT, which may release ALERT_N. -/
  | gvEvent (p : Pkt)
  /-- TALLY_PERIOD_PULSE (R455): The stream period elapses and a freeze pulse is sent to every block. -/
  | tallyPeriodPulse
  /-- TALLY_COLLECT_DONE (R455): The shadows of a snapshot have been collected and the record enters the local ring, or is dropped. -/
  | tallyCollectDone
  /-- TALLY_RECORD_WRITTEN (R459): A tally record's RDMA Write to the controller is acknowledged, freeing its place in the ring. -/
  | tallyRecordWritten
  /-- TAKE_STATIONS (R358): The chosen context becomes the holder and takes its stations, starting step 0 at its first residency. -/
  | takeStations (p : Nat)
  /-- SLICE_EXPIRE (R358): The holder's slice expires, and it yields when another READY context is not blocked. -/
  | sliceExpire (p : Nat)
  /-- BLOCK_DETECT (R359): The holder has waited BLOCK_US on external producers, so it is judged blocked and may yield. -/
  | blockDetect (p : Nat)
  /-- BLOCK_EXPECTED_END (R359): A blocked context's expected end passes and it ceases to be blocked. -/
  | blockExpectedEnd (ctx : Nat)
  /-- PREEMPT_START (R362): A pre-emption begins: the stations stop and the engines drain. -/
  | preemptStart (p : Nat)
  /-- PREEMPT_SAVED (R362): The save is declared, the context becomes READY and the stations pass to the next holder. -/
  | preemptSaved (p : Nat)
  /-- RESTORE_DONE (R364): Station records, shelf, caravan groups, walkers and arrival log are restored, and the stations are released. -/
  | restoreDone (p : Nat)
  /-- SWAP_IN_START (R367): A swap candidate's footprint fits, or space has been made, and its swap-in begins. -/
  | swapInStart (p : Nat)
  /-- SWAP_IN_DONE (R367): A swap-in completes and the context becomes READY, or PARKED. -/
  | swapInDone (ctx : Nat)
  /-- SWAP_OUT_DONE (R367): An eviction completes, the context becomes SWAPPED and its slice bytes are zeroed. -/
  | swapOutDone (ctx : Nat)
  /-- SWAP_AGE_EXPIRE (R367): The swap candidate has waited SWAP_AGE_MS, so the longest-resident evictable context is evicted. -/
  | swapAgeExpire (p : Nat)
  /-- RESERVED_WINDOW_LEAD (R361): LEAD_US before a reserved window the holder's pre-emption begins, and the reserved context runs from the window's start. -/
  | reservedWindowLead (ctx : Nat)
  /-- RESERVED_WINDOW_END (R361): A reserved window ends and the reserved context yields. -/
  | reservedWindowEnd (ctx : Nat)
  /-- WATCHDOG_EXPIRE (R369): A step's watchdog count exceeds its limit and the context is torn down with reason 0x02. -/
  | watchdogExpire (ctx : Nat)
  /-- TEARDOWN_COMPLETE (R372): Zeroing and returns end, the TEARDOWN event is sent and the context becomes FREE. -/
  | teardownComplete (ctx : Nat)
  /-- GOVERNOR_TICK (R382): Every 10 µs, the governor sets each partition's island targets from its power, share and caps. -/
  | governorTick
  /-- LEDGER_WINDOW_CLOSE (R389): A 60 s ledger window ends, is recorded and judged for compliance, and WINDOW_CLOSED is sent. -/
  | ledgerWindowClose
  /-- THERMAL_CROSSING (R394): A sensor reaches its control point or falls 5 °C below it, and a THERMAL event is sent when the rate limit allows. -/
  | thermalCrossing (sensor : Sensor) (i : Nat) (temp : Int)
  /-- THERMAL_REPORT_HOLDOFF (R394): A sensor's 100 ms event limit ends, and a pending crossing is reported when its side changed. -/
  | thermalReportHoldoff (sensor : Sensor) (i : Nat)
  /-- THERMAL_TRIP (R395): A sensor reaches its trip point, so the islands stop, the dies power off, contexts are torn down and mode 0x03 follows. -/
  | thermalTrip (sensor : Sensor) (i : Nat) (temp : Int)
  /-- SUPPLY_OUT (R397): The input leaves 40.0–59.5 V and SUPPLY_OUT is reported. -/
  | supplyOut (mv : Nat)
  /-- SUPPLY_OUT_CLEAR (R397): The input has been back inside 40.5–59.0 V for 1 ms and the clearing report is sent. -/
  | supplyOutClear (mv : Nat)
  /-- SHED (R398): The input falls below 38.0 V and every island target is set to 1,000 MHz. -/
  | shed (mv : Nat)
  /-- SHED_END (R398): The input has stayed at 40.0 V or above for 1 ms, so the governor loop resumes and SHED_END is sent. -/
  | shedEnd (mv : Nat)
  /-- LAST_GASP_SAVE (R399): The input stays out of range for 20 µs, so the package saves to MRAM from the reservoir and halts. -/
  | lastGaspSave (mv : InputDip)
  /-- ALARM_FIRE (R428): An alarm source fires and its level logs, contains or erases. -/
  | alarmFire (source : Nat) (partition : Requester) (detail : BitVec 64)
  /-- FW_INTEGRITY_CHECK (R427): Every 10 s the firmware code region is hashed again, and the alarm fires when it differs from its boot value. -/
  | fwIntegrityCheck (digest : BitVec 512)
  /-- POWER_APPLIED (R434): Input power reaches 40.0 V, the gate-die supplies come up and GATE_UPTIME starts. -/
  | powerApplied (mv : Nat)
  /-- BOOT_ROM (R409): The boot ROM verifies a firmware bank, derives keys, writes GATE_FW and starts the firmware. -/
  | bootRom
  /-- RESERVOIR_CHARGED (R435): The reservoir finishes charging and the last-gasp save is armed. -/
  | reservoirCharged
  /-- HBM_TRAINING_DONE (R434): Training of the HBM stacks ends, with failed channels left out of live. -/
  | hbmTrainingDone (failed : List (Nat × Nat))
  /-- SELF_TEST_DONE (R436): Self-test ends: failures are marked, memory is zeroed, the layout is recreated and split mode begins. -/
  | selfTestDone (r : SelfTest)
  /-- RST_N_LOW (R437): RST_N has been held low for 10 µs and a warm reset begins. -/
  | rstNLow
  /-- RESET_TEMPERATURE_OK (R396): Every sensor reads 90 °C or below, so a warm reset held for temperature completes and THERMTRIP_N is released. -/
  | resetTemperatureOk (maxTemp : Int)
  /-- HBM_ZERO_DONE (R425): Zeroing of every populated HBM byte after a warm reset ends and kind-0 queue pairs are admitted. -/
  | hbmZeroDone
  /-- TRAY_REMOVAL (R471): PRSNT_N has been high for 20 µs, so the package stops, departs, saves to MRAM and halts. -/
  | trayRemoval
  /-- PRESENCE_CLOSE (R487): PRSNT_N has read low for 20 µs, so a power-up or warm reset held for presence continues. -/
  | presenceClose
  /-- HBM_DOUBLED_REFRESH (R194): A stack's reported temperature crosses 85 °C, so its refresh doubles and REFRESH_2X is set, or falls back to the base rate below it. -/
  | hbmDoubledRefresh (stack : Nat) (temp : Int)
  /-- IDENTITY_FLIT_SEND (R285): Every 10 µs in training step 3, a port sends its identity flit until it has received the far end's. -/
  | identityFlitSend (port : Nat)
  /-- TRAINING_RESTART (R285): One second after a training step exceeds its limit, the port returns to training step 1. -/
  | trainingRestart (port : Nat)
  /-- RST_N_RELEASE (R437): RST_N goes high after being held low, so the boot ROM, held while RST_N is low, may start. -/
  | rstNRelease
  /-- JTAG_INSTRUCTION (R429): An instruction shifted in through the JTAG port is taken or refused according to ISOLATION and GATE_MODE. -/
  | jtagInstruction (op : JtagOp)
  /-- NOP (R95): A bundle whose four slots all hold the empty operation issues once its header wait is met, and subtracts that count. -/
  | nop (st : Nat) (b : Bundle)
deriving DecidableEq, Repr

end Sys2Proof
end

