-- ==== Sys2Proof/Decode.lean ====
section
/-!
DEFINITION. The command a word spells by the operation table's bits. The table gives no row any bits, so no word spells a
command; the 256-bit bundle words of R92-R95 are decoded in Machine/BundleCode.lean.
-/

namespace Sys2Proof

/-- The command that a word of `nbits` bits spells: none, since the table gives no row any bits. -/
def decodeTableWord (_nbits _w : Nat) : Option Instr := none

end Sys2Proof
end

