-- ==== Sys2Proof/Machine/Bytes.lean ====
section
/-!
DEFINITION. Numbers as bytes and bits: little-endian (R5) and big-endian (R6) byte sequences, bit fields, counters that
saturate or wrap, and CRC-32C.
-/

namespace Sys2Proof.Machine

/-- The number that bytes spell, most significant first (R6). -/
def beNat (bs : Bytes) : Nat := bs.foldl (fun a b => a * 256 + b.toNat) 0

/-- The number that bytes spell, least significant first (R5). -/
def leNat (bs : Bytes) : Nat := bs.foldr (fun b a => a * 256 + b.toNat) 0

/-- `v` in `n` bytes, least significant first. -/
def toLe : Nat → Nat → Bytes
  | 0, _ => []
  | n + 1, v => BitVec.ofNat 8 (v % 256) :: toLe n (v / 256)

/-- `v` in `n` bytes, most significant first. -/
def toBe (n v : Nat) : Bytes := (toLe n v).reverse

/-- `n` bytes of `bs` from offset `o`; missing bytes read 0. -/
def slice (bs : Bytes) (o n : Nat) : Bytes :=
  let t := (bs.drop o).take n
  t ++ List.replicate (n - t.length) 0

/-- The big-endian number of `n` bytes at offset `o`. -/
def beAt (bs : Bytes) (o n : Nat) : Nat := beNat (slice bs o n)

/-- The little-endian number of `n` bytes at offset `o`. -/
def leAt (bs : Bytes) (o n : Nat) : Nat := leNat (slice bs o n)

/-- Every byte of `bs` from `o` for `n` is zero. -/
def zeroAt (bs : Bytes) (o n : Nat) : Bool := leAt bs o n == 0

/-- Bits `[lo + w - 1 : lo]` of a number. -/
def bitsOf (v lo w : Nat) : Nat := v / 2 ^ lo % 2 ^ w

/-- Bit `i` of a number. -/
def bitOf (v i : Nat) : Bool := v / 2 ^ i % 2 == 1

/-- A boolean as a bit. -/
def b2n (b : Bool) : Nat := if b then 1 else 0

/-- A field of a register value: `v`, cut to `w` bits, at bit `lo`. -/
def fld (v lo w : Nat) : Nat := v % 2 ^ w * 2 ^ lo

/-- A counter of `w` bits that saturates. -/
def satAdd (w a b : Nat) : Nat := min (2 ^ w - 1) (a + b)

/-- A value kept within limits. -/
def clamp (lo hi v : Nat) : Nat := min hi (max lo v)

/-- Round a quotient up. -/
def ceilDiv (a b : Nat) : Nat := (a + b - 1) / b

/-- A 64-bit word with bit `i` set. -/
def setBit (w : Word) (i : Nat) : Word := w ||| BitVec.ofNat 64 (2 ^ i)

/-! ### CRC-32C (R184, R289, R293) -/

/-- One bit of the reflected Castagnoli polynomial. -/
def crcBit (c : BitVec 32) : BitVec 32 :=
  if c.getLsbD 0 then (c >>> 1) ^^^ 0x82F63B78#32 else c >>> 1

/-- CRC-32C of a byte sequence. -/
def crc32c (bs : Bytes) : BitVec 32 :=
  let step (c : BitVec 32) (b : Byte) : BitVec 32 :=
    crcBit (crcBit (crcBit (crcBit (crcBit (crcBit (crcBit (crcBit (c ^^^ b.setWidth 32))))))))
  (bs.foldl step 0xFFFFFFFF#32) ^^^ 0xFFFFFFFF#32

/-! ### Hash folds (R177) -/

/-- XOR-fold of a number to 32 bits: each 32-bit piece combined by exclusive or. -/
def foldXor (w : Nat) : Nat → Nat → Nat
  | 0, _ => 0
  | n + 1, v => (v % 2 ^ w) ^^^ foldXor w n (v / 2 ^ w)

end Sys2Proof.Machine
end

