-- ==== Sys2Proof/Machine/Crypto.lean ====
section
/-!
DEFINITION. The cryptographic functions that the spec names by their standards (R130, R234, R329, R407-R421): SHA-512 and
SHA-512/256 (FIPS 180-4), HMAC (RFC 2104), HKDF (RFC 5869), SipHash-2-4, X25519 (RFC 7748) and Ed25519 (RFC 8032).
Log entry 9.
-/

namespace Sys2Proof.Machine

/-! ### SHA-512 -/

/-- `n` is divided by no number from `d` up to `d + fuel - 1`. -/
def noDivisor (n : Nat) : Nat → Nat → Bool
  | 0, _ => true
  | fuel + 1, d => if d * d > n then true else if n % d == 0 then false else noDivisor n fuel (d + 1)

/-- The primes below 410: the first 80. -/
def primes80 : List Nat := (List.range 410).filter fun n => 2 ≤ n && noDivisor n 20 2

/-- The largest `r` with `r ^ k ≤ v`, found bit by bit from bit `n - 1` down. -/
def introot (k v : Nat) : Nat → Nat → Nat
  | 0, r => r
  | n + 1, r => if (r + 2 ^ n) ^ k ≤ v then introot k v n (r + 2 ^ n) else introot k v n r

/-- The round constants: 64 bits of the fractional parts of the cube roots of the first 80 primes. -/
def shaK : List Word := primes80.map fun p => BitVec.ofNat 64 (introot 3 (p * 2 ^ 192) 70 0)

/-- The initial value of SHA-512: the same of the square roots of the first 8 primes. -/
def sha512Init : List Word := (primes80.take 8).map fun p => BitVec.ofNat 64 (introot 2 (p * 2 ^ 128) 70 0)

/-- A message with its padding and length. -/
def shaPad (m : Bytes) : Bytes :=
  let z := (111 + 128 - m.length % 128) % 128
  m ++ (0x80 : Byte) :: List.replicate z 0 ++ toBe 16 (8 * m.length)

/-- The rotations and shifts of a message-schedule sigma. -/
def shaSmall (x : Word) (a b c : Nat) : Word := x.rotateRight a ^^^ x.rotateRight b ^^^ (x >>> c)

/-- The rotations of a round sigma. -/
def shaBig (x : Word) (a b c : Nat) : Word := x.rotateRight a ^^^ x.rotateRight b ^^^ x.rotateRight c

/-- One round: eight working values, the round constant and the schedule word. -/
def shaRound : List Word → Word → List Word
  | [a, b, c, d, e, f, g, h], kw =>
    let t1 := h + shaBig e 14 18 41 + ((e &&& f) ^^^ (~~~e &&& g)) + kw
    let t2 := shaBig a 28 34 39 + ((a &&& b) ^^^ (a &&& c) ^^^ (b &&& c))
    [t1 + t2, a, b, c, d + t1, e, f, g]
  | v, _ => v

/-- The next word of a schedule window, whose newest word is first. -/
def shaNext (w : List Word) : Word :=
  shaSmall (w.getD 1 0) 19 61 6 + w.getD 6 0 + shaSmall (w.getD 14 0) 1 8 7 + w.getD 15 0

/-- Rounds over the schedule: `w` is the window of the last 16 words, newest first, `k` the constants left, `n` the round. -/
def shaRounds : List Word → List Word → Nat → List Word → List Word
  | [], _, _, v => v
  | k :: ks, w, n, v =>
    if n < 16 then shaRounds ks w (n + 1) (shaRound v (k + w.getD (15 - n) 0))
    else
      let x := shaNext w
      shaRounds ks (x :: w.take 15) (n + 1) (shaRound v (k + x))

/-- One block of 128 bytes. -/
def shaBlock (h : List Word) (block : Bytes) : List Word :=
  let w := (List.range 16).map fun i => BitVec.ofNat 64 (beAt block (8 * i) 8)
  (h.zip (shaRounds shaK w.reverse 0 h)).map fun (a, b) => a + b

/-- The blocks of a padded message, `n` of them. -/
def shaBlocks : Nat → Bytes → List Word → List Word
  | 0, _, h => h
  | n + 1, bs, h => shaBlocks n (bs.drop 128) (shaBlock h (bs.take 128))

/-- SHA-512 from an initial value. -/
def shaFrom (init : List Word) (m : Bytes) : Bytes :=
  let p := shaPad m
  (shaBlocks (p.length / 128) p init).flatMap fun w => toBe 8 w.toNat

/-- SHA-512 (FIPS 180-4). -/
def sha512 (m : Bytes) : Bytes := shaFrom sha512Init m

/-- The initial value of SHA-512/256: SHA-512 with each initial word exclusive-ored by 0xA5 bytes, over the name. -/
def sha512t256Init : List Word :=
  let h := shaFrom (sha512Init.map fun w => w ^^^ 0xA5A5A5A5A5A5A5A5)
    ([0x53, 0x48, 0x41, 0x2D, 0x35, 0x31, 0x32, 0x2F, 0x32, 0x35, 0x36] : Bytes)
  (List.range 8).map fun i => BitVec.ofNat 64 (beAt h (8 * i) 8)

/-- SHA-512/256 (FIPS 180-4). -/
def sha512t256 (m : Bytes) : Bytes := (shaFrom sha512t256Init m).take 32

/-- HMAC (RFC 2104) over a hash with 128-byte blocks. -/
def hmac (hash : Bytes → Bytes) (key m : Bytes) : Bytes :=
  let k := if key.length > 128 then hash key else key
  let k := k ++ List.replicate (128 - k.length) 0
  hash ((k.map fun b => b ^^^ 0x5C) ++ hash ((k.map fun b => b ^^^ 0x36) ++ m))

/-- The tag of R329. -/
def plouthTag (key m : Bytes) : Bytes := hmac sha512t256 key m

/-- HKDF-Extract with SHA-512. -/
def hkdfExtract (salt ikm : Bytes) : Bytes := hmac sha512 salt ikm

/-- HKDF-Expand with SHA-512, to at most 64 bytes. -/
def hkdfExpand (prk info : Bytes) (len : Nat) : Bytes := (hmac sha512 prk (info ++ [1])).take len

/-- HKDF with SHA-512. -/
def hkdf (salt ikm info : Bytes) (len : Nat) : Bytes := hkdfExpand (hkdfExtract salt ikm) info len

/-! ### SipHash-2-4 (R234) -/

/-- One SipRound. -/
def sipRound : Word × Word × Word × Word → Word × Word × Word × Word
  | (v0, v1, v2, v3) =>
    let v0 := v0 + v1
    let v1 := v1.rotateLeft 13 ^^^ v0
    let v0 := v0.rotateLeft 32
    let v2 := v2 + v3
    let v3 := v3.rotateLeft 16 ^^^ v2
    let v0 := v0 + v3
    let v3 := v3.rotateLeft 21 ^^^ v0
    let v2 := v2 + v1
    let v1 := v1.rotateLeft 17 ^^^ v2
    let v2 := v2.rotateLeft 32
    (v0, v1, v2, v3)

/-- Absorb one word. -/
def sipWord (v : Word × Word × Word × Word) (m : Word) : Word × Word × Word × Word :=
  let (a, b, c, d) := sipRound (sipRound (v.1, v.2.1, v.2.2.1, v.2.2.2 ^^^ m))
  (a ^^^ m, b, c, d)

/-- SipHash-2-4 under a 128-bit key. -/
def siphash (key : BitVec 128) (m : Bytes) : Word :=
  let k0 : Word := key.setWidth 64
  let k1 : Word := (key >>> 64).setWidth 64
  let v := (k0 ^^^ 0x736f6d6570736575, k1 ^^^ 0x646f72616e646f6d, k0 ^^^ 0x6c7967656e657261, k1 ^^^ 0x7465646279746573)
  let n := m.length / 8
  let v := (List.range n).foldl (fun v i => sipWord v (BitVec.ofNat 64 (leAt m (8 * i) 8))) v
  let last := leNat (m.drop (8 * n)) + 2 ^ 56 * (m.length % 256)
  let (a, b, c, d) := sipWord v (BitVec.ofNat 64 last)
  let (a, b, c, d) := sipRound (sipRound (sipRound (sipRound (a, b, c ^^^ 0xFF, d))))
  a ^^^ b ^^^ c ^^^ d

/-! ### The field of Curve25519 -/

/-- The field's prime. -/
def p25519 : Nat := 2 ^ 255 - 19

/-- `b ^ e mod p`, over the low `n` bits of `e`. -/
def powMod (b : Nat) : Nat → Nat → Nat
  | 0, _ => 1
  | n + 1, e =>
    let h := powMod b n (e / 2)
    let h := h * h % p25519
    if e % 2 == 1 then h * b % p25519 else h

/-- The inverse in the field. -/
def invMod (a : Nat) : Nat := powMod a 255 (p25519 - 2)

/-- Subtraction in the field. -/
def subMod (a b : Nat) : Nat := (a + p25519 - b % p25519) % p25519

/-! ### X25519 (RFC 7748) -/

/-- The ladder over bits `n - 1` down to 0 of the scalar. -/
def ladder (u k : Nat) : Nat → Nat × Nat × Nat × Nat → Nat × Nat × Nat × Nat
  | 0, v => v
  | n + 1, (x2, z2, x3, z3) =>
    let sw := bitOf k n
    let (x2, x3) := if sw then (x3, x2) else (x2, x3)
    let (z2, z3) := if sw then (z3, z2) else (z2, z3)
    let a := (x2 + z2) % p25519
    let aa := a * a % p25519
    let b := subMod x2 z2
    let bb := b * b % p25519
    let e := subMod aa bb
    let da := subMod x3 z3 * a % p25519
    let cb := (x3 + z3) * b % p25519
    let x3' := (da + cb) * (da + cb) % p25519
    let d := subMod da cb
    let z3' := u * (d * d % p25519) % p25519
    let x2' := aa * bb % p25519
    let z2' := e * (aa + 121665 * e) % p25519
    let (x2'', x3'') := if sw then (x3', x2') else (x2', x3')
    let (z2'', z3'') := if sw then (z3', z2') else (z2', z3')
    ladder u k n (x2'', z2'', x3'', z3'')

/-- X25519: a scalar and a u-coordinate of 32 bytes each. -/
def x25519 (k u : Bytes) : Bytes :=
  let k := leNat k % 2 ^ 255
  let k := k / 8 * 8 % 2 ^ 254 + 2 ^ 254
  let u := leNat u % 2 ^ 255 % p25519
  let (x, z, _, _) := ladder u k 255 (1, 0, u, 1)
  toLe 32 (x * invMod z % p25519)

/-- The base point of X25519. -/
def x25519Base : Bytes := toLe 32 9

/-! ### Ed25519 (RFC 8032) -/

/-- The curve constant d. -/
def edD : Nat := subMod 0 (121665 * invMod 121666 % p25519)

/-- A point in extended coordinates. -/
abbrev EdPoint := Nat × Nat × Nat × Nat

/-- Point addition. -/
def edAdd : EdPoint → EdPoint → EdPoint
  | (x1, y1, z1, t1), (x2, y2, z2, t2) =>
    let a := subMod y1 x1 * subMod y2 x2 % p25519
    let b := (y1 + x1) * (y2 + x2) % p25519
    let c := 2 * t1 * t2 % p25519 * edD % p25519
    let d := 2 * z1 * z2 % p25519
    let e := subMod b a
    let f := subMod d c
    let g := (d + c) % p25519
    let h := (b + a) % p25519
    (e * f % p25519, g * h % p25519, f * g % p25519, e * h % p25519)

/-- Scalar multiple over the low `n` bits of the scalar. -/
def edMul (q : EdPoint) : Nat → Nat → EdPoint
  | 0, _ => (0, 1, 1, 0)
  | n + 1, k =>
    let h := edMul q n (k / 2)
    let h := edAdd h h
    if k % 2 == 1 then edAdd h q else h

/-- Equality of points. -/
def edEq : EdPoint → EdPoint → Bool
  | (x1, y1, z1, _), (x2, y2, z2, _) =>
    x1 * z2 % p25519 == x2 * z1 % p25519 && y1 * z2 % p25519 == y2 * z1 % p25519

/-- The x-coordinate with the given sign of a point with this y, if there is one. -/
def edRecover (y : Nat) (sign : Bool) : Option Nat :=
  if y ≥ p25519 then none
  else
    let u := subMod (y * y % p25519) 1
    let v := (edD * (y * y % p25519) + 1) % p25519
    let v3 := v * v % p25519 * v % p25519
    let x := u * v3 % p25519 * powMod (u * (v3 * v3 % p25519 * v % p25519) % p25519) 255 ((p25519 - 5) / 8) % p25519
    let vxx := v * (x * x % p25519) % p25519
    let fixed : Option Nat :=
      if vxx == u then some x
      else if vxx == subMod 0 u then some (x * powMod 2 255 ((p25519 - 1) / 4) % p25519)
      else none
    match fixed with
    | none => none
    | some x =>
      if x == 0 && sign then none
      else if (x % 2 == 1) == sign then some x
      else some (p25519 - x)

/-- The point that 32 bytes encode. -/
def edDecode (bs : Bytes) : Option EdPoint :=
  let n := leNat bs
  let y := n % 2 ^ 255
  match edRecover y (n / 2 ^ 255 % 2 == 1) with
  | none => none
  | some x => some (x, y, 1, x * y % p25519)

/-- The encoding of a point. -/
def edEncode : EdPoint → Bytes
  | (x, y, z, _) =>
    let i := invMod z
    toLe 32 (y * i % p25519 + 2 ^ 255 * (x * i % p25519 % 2))

/-- The base point. -/
def edBase : EdPoint :=
  let y := 4 * invMod 5 % p25519
  let x := (edRecover y false).getD 0
  (x, y, 1, x * y % p25519)

/-- The order of the base point. -/
def edL : Nat := 2 ^ 252 + 27742317777372353535851937790883648493

/-- The secret scalar and the prefix of a seed. -/
def edExpand (seed : Bytes) : Nat × Bytes :=
  let h := sha512 seed
  let a := leNat (h.take 32) % 2 ^ 255
  (a / 8 * 8 % 2 ^ 254 + 2 ^ 254, h.drop 32)

/-- The public key of a seed. -/
def edPublic (seed : Bytes) : Bytes := edEncode (edMul edBase 256 (edExpand seed).1)

/-- The signature of a message under a seed. -/
def edSign (seed m : Bytes) : Bytes :=
  let (a, prefix_) := edExpand seed
  let pub := edPublic seed
  let r := leNat (sha512 (prefix_ ++ m)) % edL
  let rB := edEncode (edMul edBase 256 r)
  let k := leNat (sha512 (rB ++ pub ++ m)) % edL
  rB ++ toLe 32 ((r + k * a) % edL)

/-- Whether a 64-byte signature verifies under a 32-byte public key: the equation of RFC 8032 5.1.7 with the cofactor 8, the first
of the two that it allows (DEDUCED, log entry 9). -/
def edVerify (pub m sig : Bytes) : Bool :=
  if sig.length != 64 || pub.length != 32 then false
  else
    let s := leNat (sig.drop 32)
    if s ≥ edL then false
    else
      match edDecode pub, edDecode (sig.take 32) with
      | some a, some r =>
        let k := leNat (sha512 (sig.take 32 ++ pub ++ m)) % edL
        edEq (edMul edBase 260 (8 * s)) (edAdd (edMul r 8 8) (edMul a 260 (8 * k)))
      | _, _ => false

end Sys2Proof.Machine
end

