-- ==== Sys2Proof/Config.lean ====
section
/-!
DEFINITION. What the spec leaves open: constants without a body. A statement about them holds for every value.
Each is named in the assumption log.
-/

namespace Sys2Proof.Config

/-- R46, R120, R278: whether draw `n` gives the new value of byte `a` of a race (`true`) or the old one. -/
opaque raceBit : Nat → Nat → Bool

/-- R46: which of the values that byte `a` has held during a race draw `n` gives. -/
opaque racePick : Nat → Nat → Nat

/-- A fresh 64-bit value: challenges (R342), keys and numbers the package draws. Argument: the draw's number. -/
opaque freshWord : Nat → BitVec 64

/-- A fresh 256-bit value: the ephemeral X25519 private key of a session (R416). -/
opaque freshKey : Nat → BitVec 256

/-- R178: the seed drawn when a partition is created (argument: the draw's number). -/
opaque partitionSeed : Nat → BitVec 64

/-- R234: the 128-bit ledger key drawn when a partition is created. -/
opaque ledgerKey : Nat → BitVec 128

/-- R211: which free sealed page number a bundle starts at, of the candidates (draw, number of candidates). -/
opaque spnChoice : Nat → Nat → Nat

/-- R407: the unique device secret, burnt at manufacture. -/
opaque uds : BitVec 256

/-- R407: SHA-512 of Ngulia's firmware-signing key, burnt at manufacture. -/
opaque fwKeyDigest : BitVec 512

/-- R30, R407: the package serial, burnt at manufacture. -/
opaque serial : BitVec 64

/-- R407: the anti-rollback fuses blown before the first power-up. -/
opaque rollbackShipped : Fin 65

/-- R408: the firmware image in bank A (0) or B (1) as shipped. -/
opaque shippedBank : Nat → List (BitVec 8)

/-- R429: what a JTAG instruction answers where the spec gives no value; argument: the draw's number. -/
opaque debugValue : Nat → BitVec 64

/-- R429: which kind of state a debug instruction reads (modulo 3: station, slice, HBM), of which unit, and which word of it;
argument: the instruction's code. -/
opaque debugKind : Nat → Nat
opaque debugUnit : Nat → Nat
opaque debugWord : Nat → Nat

/-- R413: how long the write of a firmware image takes, in microseconds; argument: the draw's number. -/
opaque flashTime : Nat → Nat

/-- R427: the SHA-512 of the write-locked code region of a firmware image, as the boot ROM leaves it. -/
opaque codeDigest : List (BitVec 8) → BitVec 512

/-- R386: the input power the converter measures, averaged over millisecond `m` of GATE_UPTIME in power-up `n`, in mW. -/
opaque inputPower : Nat → Nat → Nat

/-- R386: the measured input energy of a part of a millisecond, in pJ; arguments: the power-up, the part's start and end in ns. -/
opaque inputPart : Nat → Nat → Nat → Nat

/-- A value or a choice that the spec leaves open and no constant above covers; argument: the draw's number. -/
opaque openValue : Nat → BitVec 64

/-- R349: the host port's lanes that are locked at nanosecond `t` while it negotiates or trains. -/
opaque hostLanes : Nat → BitVec 8

/-- R291, R302: requests that one eighth's share of a partition's inbound queue holds. -/
opaque inboundShare : Nat

/-- R275: where the records of a borrowed expert's top-up plane lie in the home's image; arguments: layer, expert. -/
opaque topupPlace : Nat → Nat → Nat

/-- R186, R297: a byte of a granule that another package holds; arguments: the draw's number and the byte's offset. -/
opaque openByte : Nat → Nat → BitVec 8

end Sys2Proof.Config
end

