-- ==== Sys2Proof/Machine/Sparse.lean ====
section
/-!
DEFINITION. Sparse data by number: a list of (key, value) pairs in one canonical form, keys strictly rising and no value
equal to what an unlisted key reads as. Memory is the case of bytes by address.
-/

namespace Sys2Proof.Machine

/-- Values by number; an unlisted number reads as a default that each use names. -/
abbrev Sparse (α : Type) := List (Nat × α)

/-- Bytes by address; an unlisted address reads as zero (log entry 3). -/
abbrev Mem := Sparse Byte

/-- The value at key `k`, or `dflt`. -/
def mget {α : Type} (dflt : α) : Sparse α → Nat → α
  | [], _ => dflt
  | (j, v) :: rest, k => if j = k then v else mget dflt rest k

/-- `m` without key `k`. -/
def mdel {α : Type} : Sparse α → Nat → Sparse α
  | [], _ => []
  | (j, v) :: rest, k => if j = k then mdel rest k else (j, v) :: mdel rest k

/-- `m` with `(k, v)` put before the first larger key. -/
def mput {α : Type} : Sparse α → Nat → α → Sparse α
  | [], k, v => [(k, v)]
  | (j, w) :: rest, k, v => if k < j then (k, v) :: (j, w) :: rest else (j, w) :: mput rest k v

/-- `m` with `v` at key `k`; a default value leaves no entry. -/
def mset {α : Type} [DecidableEq α] (dflt : α) (m : Sparse α) (k : Nat) (v : α) : Sparse α :=
  if v = dflt then mdel m k else mput (mdel m k) k v

/-- `m` with the value at `k` changed by `f`. -/
def mmod {α : Type} [DecidableEq α] (dflt : α) (m : Sparse α) (k : Nat) (f : α → α) : Sparse α :=
  mset dflt m k (f (mget dflt m k))

/-- The canonical form: keys strictly rising from `lo`, no default value listed. -/
def mwfFrom {α : Type} [DecidableEq α] (dflt : α) : Nat → Sparse α → Bool
  | _, [] => true
  | lo, (j, v) :: rest => decide (lo ≤ j) && !decide (v = dflt) && mwfFrom dflt (j + 1) rest

/-- The canonical form of sparse data. -/
def mwf {α : Type} [DecidableEq α] (dflt : α) (m : Sparse α) : Bool := mwfFrom dflt 0 m

/-! ### Bytes of memory -/

/-- One byte of memory. -/
def rdByte (m : Mem) (a : Nat) : Byte := mget 0 m a

/-- Memory with one byte written. -/
def wrByte (m : Mem) (a : Nat) (v : Byte) : Mem := mset 0 m a v

/-- `n` bytes from address `a` upward. -/
def rdBytes (m : Mem) (a n : Nat) : Bytes := (List.range n).map fun i => rdByte m (a + i)

/-- Memory with `bs` written from address `a` upward. -/
def wrBytes (m : Mem) (a : Nat) : Bytes → Mem
  | [] => m
  | v :: rest => wrBytes (wrByte m a v) (a + 1) rest

/-- The canonical form of memory. -/
def Mem.wf (m : Mem) : Bool := mwf 0 m

end Sys2Proof.Machine
end

