-- ==== Sys2Proof/Machine/State.lean ====
section
/-!
DEFINITION. The state of the package: every register, buffer, queue, counter, mode and pin the spec gives it, as plain
data, grouped as the spec's chapters group them. INVENTORY.md lists each with its rule and its reset value.
-/

namespace Sys2Proof.Machine

/-- The bits of a W1C register that hardware has set at one gate time: a write of that time does not clear them (R11). -/
structure Fresh where
  at_ : Nat := 0
  bits : Nat := 0
deriving DecidableEq, Repr

/-! ### Stations (02_stations.md, 04_station_instructions.md, 05_weave_and_vector.md) -/

/-- A line of the instruction store: which line of the stream it holds, its 64 bundle words, and when it last issued a
bundle (0 never); R41. -/
structure ILine where
  line : Nat
  words : List (BitVec 256)
  lastIssue : Nat := 0
deriving DecidableEq, Repr

/-- Where a station stands in its stream (R97, R108, R111). -/
inductive RunState
  | issuing
  /-- waits at a STEP that names this bound index -/
  | atStep (bound : Nat)
  | finished
  /-- a program fault after issue: the station issues no further bundle -/
  | stopped
deriving DecidableEq, Repr

/-- An 8-byte halo descriptor's decoded fields (R122). -/
structure Halo where
  src : Nat
  dst : Nat
  srcStride : Nat
  dstStride : Nat
  width : Nat
  count : Nat
  link : Nat
  localTok : Nat
  remoteTok : Nat
  perRow : Bool
deriving DecidableEq, Repr

/-- An incomplete X-slot operation (R118). Source bytes are those at issue; a completion that finds other bytes there
chooses per byte under R46. -/
inductive XferKind
  /-- caravanserai to saddlebag: context address, saddlebag address, bytes at issue, token -/
  | xld (ca sa : Nat) (bytes : Bytes) (t : Nat)
  /-- saddlebag to caravanserai: saddlebag address, context address, bytes, token, notification (station, counter) -/
  | xst (sa ca : Nat) (bytes : Bytes) (t : Nat) (notify : Option (Nat × Nat))
  /-- neighbour send: link, source, destination, bytes, tokens, whether the source has been read -/
  | send (link src dst : Nat) (bytes : Bytes) (tl tr : Nat) (read : Bool)
  /-- halo send: the descriptor's bytes at issue, and once copied its fields, whether the source has been read and the
  rows delivered -/
  | halo (desc : Bytes) (h : Option Halo) (rows : List Bytes) (read : Bool) (delivered : Nat)
  /-- remote increment: context-relative target, counter, count -/
  | note (target t n : Nat)
deriving DecidableEq, Repr

/-- An incomplete X-slot operation with the index of the bundle that issued it. -/
structure Xfer where
  bundle : Nat
  kind : XferKind
  /-- an order number: operations of one station in issue order -/
  ord : Nat
  /-- how many writes to the memory that it reads were noted before it issued (R46) -/
  since : Nat := 0
deriving DecidableEq, Repr

/-- A notification of an XST that has completed (R117): target station, counter, issuing bundle. -/
structure Notice where
  target : Nat
  t : Nat
  bundle : Nat
deriving DecidableEq, Repr

/-- An LDSHP in flight (R107): destination, token, slot, the word read at issue, the issuing bundle. -/
structure ShapeLoad where
  d : Reg
  t : Nat
  slot : Nat
  word : Word
  bundle : Nat
deriving DecidableEq, Repr

/-- A weave instruction the weave has accepted (R138-R144): the operation, the operand registers as read at issue, the
tags as read at the accept (row, tag of the row, word), the saddlebag and the own-slice bytes as they stood at issue (R46), and
the issuing bundle. -/
structure WvJob where
  op : WvOp
  chunks : Nat
  aRegs : List Word
  wRegs : List Word
  tags : List (Nat × Nat × Word)
  saddle : Mem
  store : Mem
  bundle : Nat
  /-- the detoured chunks whose top-ups it needs, in order, and the records of those that have arrived, column by column
  (R144) -/
  topupNeed : List Nat
  topups : List (List Bytes)
  /-- the store ranges that it reads: first byte and length (R183) -/
  own : List (Nat × Nat) := []
  /-- it has started; one accepted by an idle weave fills before that (R140) -/
  started : Bool
  /-- how many writes to the saddlebag and to the context's store were noted before its accept (R46, R138) -/
  sinceSaddle : Nat := 0
  sinceStore : Nat := 0
  /-- when top-ups arrived last, and how many chunks' then (R144) -/
  gainedAt : Nat := 0
  gained : Nat := 0
  /-- busy cycles and slice bytes counted and charged so far (R390) -/
  counted : Nat := 0
  countedBytes : Nat := 0
deriving DecidableEq, Repr

/-- An entry of the open-block table (R154): tag address, elements so far, ELIGIBLE. -/
structure OpenBlock where
  tag : Nat
  count : Nat
  eligible : Bool
deriving DecidableEq, Repr

/-- The producer kinds of a token counter's tag (R449-R451); `unattributed` is the first. -/
inductive Producer
  | unattributed | transfer | neighbour | notification | caravan | walker | dispatch | brisor | hostSend | weave
  | shape | barrier
deriving DecidableEq, Repr

/-- What a station holds for its context, and a hamper saves (R35, R100, R366). -/
structure Arch where
  sregs : Sparse Word := []
  vregs : Sparse (BitVec 4096) := []
  /-- element i of accumulator k at key 8192 k + i -/
  accs : Sparse (BitVec 32) := []
  saddle : Mem := []
  istore : List ILine := []
  tokens : Sparse (BitVec 16) := []
  producers : Sparse Producer := []
  marks : List Mark := []
  next : Nat := 0
  retStack : List Nat := []
  run : RunState := .issuing
  inflight : List Xfer := []
  notices : List Notice := []
  shapes : List ShapeLoad := []
  /-- accepted behind another, and waiting to start (R141) -/
  weaveWait : Option WvJob := none
  /-- filling on an idle weave, running, or ended and not complete, oldest first -/
  weaveRun : List WvJob := []
  /-- the top-ups of the first detoured chunk of the next WV, not yet accepted, once they have arrived (R144) -/
  topups : Option (List Bytes) := none
  /-- the remaining detour quota; none is unlimited (R87) -/
  quota : Option Nat := some 0
  openBlocks : List OpenBlock := []
  /-- bundles issued, which orders its transfers and its lines -/
  issued : Nat := 0
  /-- saddlebag ranges that hold bytes of a substituted tensor (R128) -/
  wide : List (Nat × Nat) := []
  /-- what VQs whose marks are still set wrote over: tag, address, the bytes before (R163) -/
  quantised : List (Nat × Nat × Bytes) := []
  /-- writes to the saddlebag while operations that read it are incomplete, oldest first (R46) -/
  writes : List (Nat × Bytes) := []
deriving DecidableEq, Repr

/-- The counters of a station's block and their programmable part (R445, R446). -/
structure StnTally where
  cycles : BitVec 64 := 0
  hold : BitVec 48 := 0
  retired : BitVec 48 := 0
  wasted : BitVec 48 := 0
  front : BitVec 48 := 0
  back : BitVec 48 := 0
  weaveBusy : BitVec 48 := 0
  vPipe : BitVec 48 := 0
  vSfu : BitVec 48 := 0
  vRed : BitVec 48 := 0
  chanBytes : BitVec 48 := 0
  prog : Sparse (BitVec 48) := []
deriving DecidableEq, Repr

/-- The counters of any other block (R445): its fixed counter where it has one, and the programmable ones. -/
structure BlkTally where
  fixed : BitVec 48 := 0
  prog : Sparse (BitVec 48) := []
deriving DecidableEq, Repr

/-- The island of a station and its slice (R50-R52, R59, R60, R384, R394). -/
structure Island where
  target : Nat := 2100
  /-- the frequency the oscillator has settled on -/
  freq : Nat := 2100
  lastWindow : Nat := 0
  minWindow : Nat := 0xFFFF
  stretched : Nat := 0
  /-- present stretch in eighths of the period -/
  stretch : Nat := 0
  /-- stretched at some time in the present window -/
  droopWin : Bool := false
  thermalCap : Nat := 2700
  /-- the station has run its context since this window began -/
  wholeWin : Bool := false
  /-- it has run one at some time in this window; every cycle of this window so far was stretched -/
  ranWin : Bool := false
  stretchAll : Bool := false
  /-- bundles issued in this window -/
  issuedWin : Nat := 0
  /-- lengthened cycles of a release that began in this window, and those of one that began in the window before (R51) -/
  release : Nat := 0
  releaseLeft : Nat := 0
  /-- codes of R448 and R450 for the waits that a station has had in this window -/
  waited : List Nat := []
  /-- parts of the vector unit that operations hold: part (R148), cycles that are left at the least, gate time of the last issue -/
  vBusy : List (Nat × Nat × Nat) := []
  /-- CAUSE that R385 gives a shortfall of this window by itself: 1 a thermal cap, 2 a shed, 0 neither -/
  lowWin : Nat := 0
  /-- cycles and stretched cycles of the governor's present period; until when the voltage stands one step higher (R384) -/
  perCycles : Nat := 0
  perStretched : Nat := 0
  raised : Option Nat := none
deriving DecidableEq, Repr

/-- One station with its island, its slice and its counters. -/
structure Stn where
  arch : Arch := {}
  /-- context number the station runs, saves or restores -/
  ctx : Option Nat := none
  /-- STN_STATE STATE (R58) -/
  state : BitVec 8 := 0
  failed : Bool := false
  /-- MARK_FAILED as STN_CTRL reads it (R63) -/
  markFailed : Bool := false
  fault : BitVec 7 := 0
  fresh : Fresh := {}
  /-- UP and FAILED of the links, bit 0 N, 1 E, 2 S, 3 W (R61) -/
  linkUp : BitVec 4 := 0
  linkFailed : BitVec 4 := 0
  island : Island := {}
  tally : StnTally := {}
  shadow : StnTally := {}
  sel : Word := 0
  slice : BlkTally := {}
  sliceShadow : BlkTally := {}
  /-- the handle and STATE at the last pulse (R457) -/
  shadowHandle : Nat := 0xFFFF
  shadowState : Nat := 0
  sliceSel : Word := 0
deriving DecidableEq, Repr

/-! ### Itineraries (R123-R130, R185-R189, R213, R254, R314) -/

/-- A STATIONS entry with its stream (R126). -/
structure StreamDecl where
  station : Nat
  entry : Nat
  regionBase : Nat
  words : List (BitVec 256)
deriving DecidableEq, Repr

/-- A LAYOUT region (R127). -/
structure Region where
  base : Nat
  bytes : Nat
  kind : BitVec 8
  placement : BitVec 16
deriving DecidableEq, Repr

/-- A SHAPES entry (R128). -/
structure ShapeDecl where
  slot : Nat
  max : Nat
  addr : Nat
deriving DecidableEq, Repr

/-- A BARRIERS entry: its group and its members, context-relative (R128). -/
structure BarrierDecl where
  group : Nat
  members : List Nat
deriving DecidableEq, Repr

/-- A detour policy record (R86). -/
structure Policy where
  satLimit : Nat := 4096
  flushLimit : Nat := 4096
  cap : Nat := 0
  allow : Nat := 0
  detourCycles : Nat := 0
  boundExt : Nat := 0
  stormEvent : Bool := false
deriving DecidableEq, Repr

/-- A TENSORS entry (R128). -/
structure Tensor where
  id : Nat
  format : BitVec 8
  hasTopup : Bool
  wideCopy : Bool
  offset : Nat
  bytes : Nat
  topup : Nat
deriving DecidableEq, Repr

/-- An image region (R186). -/
structure ImageRegion where
  offset : Nat
  bytes : Nat
  seed : Word
  homes : Nat
deriving DecidableEq, Repr

/-- A caravan group (R187). -/
structure GroupDecl where
  entryEnd : Nat
  releaseAt : Nat
  passStride : Nat
  releaseSrc : Nat
  notifyGroup : Nat
  notifyToken : Nat
deriving DecidableEq, Repr

/-- A caravan entry (R188). -/
structure EntryDecl where
  tensor : Nat
  indirect : Bool
  slot : Nat
  src : Nat
  dst : Nat
  bytes : Nat
deriving DecidableEq, Repr

/-- The CARAVAN section (R185). -/
structure Caravan where
  imageId : Nat
  cyclic : Bool
  storeSeeds : List Word
  regions : List ImageRegion
  groups : List GroupDecl
  entries : List EntryDecl
deriving DecidableEq, Repr

/-- The KVCONF section (R213). -/
structure KvConf where
  tokenBytes : Nat
  layers : Nat
  seqMax : Nat
  tokensMax : Nat
  ledger : Bool
  btBase : Nat
  frameBase : Nat
  frameGroups : Nat
  stageFrames : Nat
  stageBase : Nat
  listBase : Nat
  listItems : Nat
  poolPages : Nat
  modelTag : Word
  tokenBase : Nat
deriving DecidableEq, Repr

/-- A home-map entry of STEPPLAN (R255). -/
structure HomeDecl where
  home : Nat
  ordinal : Nat
  tensor : Nat
deriving DecidableEq, Repr

/-- An expert-group entry of STEPPLAN (R255). -/
structure ExpertGroup where
  first : Nat
  count : Nat
  slotBase : Nat
  returnToken : Nat
  shipSlot : Nat
  actBase : Nat
  listBase : Nat
  returnBase : Nat
  borrowTensor : Nat
deriving DecidableEq, Repr

/-- One quota of a plan (R270): layer, expert, quota. -/
structure Quota where
  layer : Nat
  expert : Nat
  quota : Nat
deriving DecidableEq, Repr

/-- The STEPPLAN section (R254, R255). -/
structure StepPlan where
  experts : Nat
  moeLayers : Nat
  topK : Nat
  lanes : Nat
  routeMax : Nat
  serveRows : Nat
  actBytes : Nat
  resultBytes : Nat
  shipMax : Nat
  threshold : Nat
  hysteresis : Nat
  deadlineNs : Nat
  caravanBase : Nat
  arrivalBase : Nat
  histBase : Nat
  histSlots : Nat
  histSlotBytes : Nat
  planBase : Nat
  planBytes : Nat
  homes : List HomeDecl
  groups : List ExpertGroup
  initPlan : List Quota
deriving DecidableEq, Repr

/-- The PEERS section (R314): this package's index and the fabric ids. -/
structure Peers where
  self : Nat
  ids : List Nat
deriving DecidableEq, Repr

/-- Everything an accepted itinerary declares (R124-R130). -/
structure Itin where
  eighths : Nat := 1
  stepPlanMode : Bool := false
  firstBound : Nat := 0
  stackMask : Nat := 0
  job : BitVec 32 := 0
  storeBytes : Nat := 0
  hbmBytes : Nat := 0
  streams : List StreamDecl := []
  regions : List Region := []
  bounds : List Nat := []
  shapes : List ShapeDecl := []
  barriers : List BarrierDecl := []
  policy : Policy := {}
  /-- base and slots of the summary ring -/
  summary : Option (Nat × Nat) := none
  tensors : List Tensor := []
  wideRef : List (Nat × Nat) := []
  caravan : Option Caravan := none
  stepPlan : Option StepPlan := none
  kv : Option KvConf := none
  peers : Option Peers := none
deriving DecidableEq, Repr

/-! ### Contexts (12_partitions_contexts.md) -/

/-- The states of a context (R355). -/
inductive CtxState
  | free | loaded | ready | running | saving | restoring | swapped | swappingOut | swappingIn | parked | held
  | finished | tearingDown
deriving DecidableEq, Repr

/-- The counts of the present step for its summary record (R91). -/
structure StepSum where
  closed : Nat := 0
  overT : Nat := 0
  detoured : Nat := 0
  unrecovered : Nat := 0
  ineligible : Nat := 0
  nonfinite : Nat := 0
  satTotal : Nat := 0
  flushTotal : Nat := 0
  maxSat : Nat := 0
  maxFlush : Nat := 0
  storm : Bool := false
  policyNew : Bool := false
  wideRef : Bool := false
deriving DecidableEq, Repr

/-- A reservation (R361). -/
structure Reservation where
  periodUs : Nat
  lengthUs : Nat
  phaseUs : Nat
  leadUs : Nat
  /-- when the reservation took effect, ns -/
  since : Nat
deriving DecidableEq, Repr

/-- A blocked state (R359): class 0-4 and the expected end in ns. -/
structure Blocked where
  cls : Nat
  until_ : Option Nat
deriving DecidableEq, Repr

/-- Why a context is being torn down (R371-R373). -/
structure Teardown where
  reason : BitVec 8
  detail : BitVec 8 := 0
  station : BitVec 16 := 0xFFFF
  bundle : Nat := 0
  since : Nat := 0
deriving DecidableEq, Repr

/-- A caravan group that has begun (R190, R191): its index and pass, the resolved v of its entries, whether its bytes
have all arrived and whether its notification has been delivered. -/
structure GroupRun where
  group : Nat
  pass : Nat
  vs : List Nat
  done : Bool := false
  notified : Bool := false
deriving DecidableEq, Repr

/-- The caravan engine's state for a context (R190, R191). -/
structure CaravanRun where
  pass : Nat := 0
  next : Nat := 0
  live : List GroupRun := []
  /-- releases of barrier group g at key g; step releases at key 0xFE -/
  releases : Sparse Nat := []
  /-- lane caravan groups whose slots have been written since they last began (R252) -/
  laneReady : List Nat := []
  /-- image granules that another package holds, as its answers brought them (R186, R301) -/
  fetched : List (Nat × Bytes) := []
  /-- stations whose top-up reads of a borrowed lane have been sent, and what has come: station, place, 256 bytes (R275) -/
  topAsked : List Nat := []
  topGot : List (Nat × Nat × Bytes) := []
deriving DecidableEq, Repr

/-- A walk request a walker holds (R218, R224). -/
structure WalkReq where
  /-- issuing station, context-relative -/
  station : Nat
  bundle : Nat
  op : Nat
  mode : Nat
  layer : Nat
  lenSlot : Nat
  countSlot0 : Nat
  groupFirst : Nat
  groupCount : Nat
  listToken : Nat
  itemToken : Nat
  doneToken : Nat
  ackCount : Nat
  lenTable : Nat
  listOffset : Nat
deriving DecidableEq, Repr

/-- A listed item whose ITEM_TOKEN has not risen (R222): its destination, its counter, and for a sealed page the staging
frame it will lie in and its page number. -/
structure Staging where
  station : Nat
  seq : Nat
  itemToken : Nat
  page : Option (Nat × Nat)
deriving DecidableEq, Repr

/-- The walkers' state for a context (R211, R222, R229, R233). -/
structure WalkRun where
  reqs : List WalkReq := []
  /-- frame groups allocated; those to be freed at the next step release, with the first SPN of the sealed bundle whose upper copy
  they hold; those that wait for a read of them to end (R183) -/
  frames : List Nat := []
  freeAtStep : List (Nat × Option Nat) := []
  freeWhenRead : List Nat := []
  /-- first SPNs of the bundles the context's reservation holds -/
  spns : List Nat := []
  ringPos : Sparse Nat := []
  filled : Sparse Nat := []
  staging : List Staging := []
  /-- the filled staging frames, oldest first: station, frame, SPN; and whether a swap-out has dropped the upper copies of sealed
  pages (R366) -/
  staged : List (Nat × Nat × Nat) := []
  dropped : Bool := false
  /-- 64 KiB pages with a writable mark, by page number of the context address -/
  writable : List Nat := []
deriving DecidableEq, Repr

/-- An expert's decision in a layer (R260). -/
inductive Decision | local_ | ship | borrow
deriving DecidableEq, Repr

/-- A dispatch request a context has issued (R258). -/
structure DispReq where
  station : Nat
  bundle : Nat
  op : Nat
  group : Nat
  layer : Nat
  countSlot : Nat
  listToken : Nat
  laneToken : Nat
  doneToken : Nat
  table : Nat
  lane : Nat
  /-- the step in which it was issued, and the threshold and hysteresis in force then (R260, R282) -/
  step : Nat
  threshold : Nat
  hysteresis : Nat
deriving DecidableEq, Repr

/-- A pair: group, pair index, expert, token slot (R259). -/
structure Pair where
  group : Nat
  index : Nat
  expert : Nat
  slot : Nat
deriving DecidableEq, Repr

/-- A layer being routed in a step (R259): the requests seen, their pairs, whether its lanes are listed, the shipped pairs
with their homes, and whether those have been sent. -/
structure RouteRun where
  layer : Nat
  step : Nat
  reqs : List DispReq := []
  pairs : List Pair := []
  listed : Bool := false
  ships : List (Pair × Nat) := []
  shipped : Bool := false
deriving DecidableEq, Repr

/-- A borrowed expert that awaits its relay (R259, R278): its step, layer and expert, the lanes it fills (group, lane and the
LANE_TOKEN of the group's request), whether the request has been sent, the blocks that have arrived, and what the bytes they have
written held before. -/
structure BorrowRun where
  step : Nat
  layer : Nat
  expert : Nat
  lanes : List (Nat × Nat × Nat)
  sent : Bool := false
  blocks : List Nat := []
  before : Mem := []
deriving DecidableEq, Repr

/-- A pair that awaits its result, with its expert and the PEERS index of its home (R259 step 4, R278). -/
structure AwaitPair where
  step : Nat
  layer : Nat
  group : Nat
  index : Nat
  expert : Nat
  home : Nat
deriving DecidableEq, Repr

/-- An arrival record at this home (R262). -/
structure ArrivalRec where
  source : Nat
  layer : Nat
  expert : Nat
  pair : Nat
  group : Nat
  epoch : Nat
  step : Nat
  slot : Nat
  addr : Nat
  /-- the rail it came by (R304) -/
  rail : Nat
deriving DecidableEq, Repr

/-- A serve lane listed in a layer (R263, R264). -/
structure ServeLane where
  layer : Nat
  group : Nat
  lane : Nat
  rows : List ArrivalRec
  returned : Bool := false
deriving DecidableEq, Repr

/-- A shipment-done notice (R259, R263). -/
structure ShipNote where
  step : Nat
  layer : Nat
  source : Nat
  count : Nat
deriving DecidableEq, Repr

/-- A local lane that holds a borrowed expert (R252, R275). -/
structure LentLane where
  group : Nat
  lane : Nat
  layer : Nat
  expert : Nat
  /-- PEERS index of the expert's home -/
  home : Nat
deriving DecidableEq, Repr

/-- A borrow request in a home's merge window (R273). -/
structure BorrowReq where
  step : Nat
  layer : Nat
  expert : Nat
  pkg : Nat
  origin : Nat
  epoch : Nat
  at_ : Nat
deriving DecidableEq, Repr

/-- The dispatch engine's state for a context (R250-R280). -/
structure MoeRun where
  queue : List DispReq := []
  routes : List RouteRun := []
  /-- SERVEs that wait for their notices, oldest first (R263) -/
  serving : List DispReq := []
  /-- (step, layer) whose SERVE has been taken -/
  served : List (Nat × Nat) := []
  lanes : List ServeLane := []
  arrivals : List ArrivalRec := []
  notes : List ShipNote := []
  await : List AwaitPair := []
  borrows : List BorrowRun := []
  /-- what the local lanes hold that was borrowed (R275) -/
  lent : List LentLane := []
  /-- (layer, expert) borrowed last step, key layer x 65536 + expert -/
  history : List Nat := []
  counts : Sparse Nat := []
  epoch : BitVec 16 := 0
  cancels : BitVec 16 := 0
  /-- current epoch of each origin at this home, by PEERS index -/
  originEpoch : Sparse Nat := []
  reqs : List BorrowReq := []
  /-- plan in force, plan store, lowest step whose plan has not been taken, flags of the histogram record -/
  plan : List Quota := []
  planStore : List (Nat × List Quota) := []
  planNext : Nat := 0
  planTaken : Bool := false
  planLate : Bool := false
  cancelled : Bool := false
  overrun : Bool := false
deriving DecidableEq, Repr

/-- An entry of an arrival log (R266): what the block applies to the context at restore. -/
inductive LogEntry
  | token (station t n : Nat) (p : Producer)
  | bytes (addr : Nat) (bs : Bytes)
  | message (kind : Nat) (m : Msg) (a b c d : Nat)
deriving DecidableEq, Repr

/-- The reply a command still owes (R332): slot, the command's packet. -/
structure Owed where
  slot : Slot
  pkt : Pkt
deriving DecidableEq, Repr

/-- One context number (R352). -/
structure Ctx where
  state : CtxState := .free
  /-- loads of this number since the partition was created, mod 32 -/
  use_ : Nat := 0
  handle : BitVec 16 := 0xFFFF
  itin : Itin := {}
  digest : BitVec 512 := 0
  store : Mem := []
  resident : Bool := false
  everResident : Bool := false
  everHeld : Bool := false
  /-- CTX_START has been accepted (R443) -/
  started : Bool := false
  /-- it has been READY; it has been pre-empted in this step (R54, R358) -/
  everReady : Bool := false
  preempted : Bool := false
  /-- HELD or PARKED carried through a swap-out (R310, R367) -/
  under : Option CtxState := none
  /-- every station has issued FINISH (R111) -/
  complete : Bool := false
  /-- to be swapped out when its pre-emption ends (R367) -/
  evict : Bool := false
  step : Nat := 0
  bound : Nat := 0
  policy : Policy := {}
  newPolicy : Option Policy := none
  sum : StepSum := {}
  /-- one more than the token that member i of group g named last, and its arrivals not yet released: token and the station's transfer order
  then, key 1024 g + i (R109) -/
  barTok : Sparse Nat := []
  barPend : Sparse (List (Nat × Nat)) := []
  /-- station and bundle of the STEP that arrived last (R108) -/
  lastStep : Option (Nat × Nat) := none
  sliceUs : Nat := 0
  /-- SLICE_US and BLOCK_US as they apply in the present slice (R375) -/
  sliceNow : Nat := 0
  blockNow : Nat := 0
  sliceStart : Nat := 0
  interval : Nat := 1
  parkPending : Bool := false
  swapFirst : Bool := false
  blocked : Option Blocked := none
  blockSince : Option Nat := none
  resv : Option Reservation := none
  /-- the start of the reserved window that is on, ns: from its LEAD_US to its end (R361) -/
  window : Option Nat := none
  waitSince : Nat := 0
  runnableSince : Nat := 0
  residentSince : Nat := 0
  hostAnswer : Bool := false
  shelf : Sparse Nat := []
  saved : Sparse Arch := []
  hamper : Bool := false
  hamperBytes : Nat := 0
  log : List LogEntry := []
  /-- step start, holding since, ns held in the step, over the life; external wait of the step -/
  stepStart : Nat := 0
  heldSince : Option Nat := none
  stepRun : Nat := 0
  lifeRun : Nat := 0
  extNs : Nat := 0
  /-- external wait over the life -/
  lifeExt : Nat := 0
  /-- MARGIN_PCT as it applies in the present step (R369, R375) -/
  margin : Nat := 125
  breach : Bool := false
  /-- a channel left live after acceptance (R469) -/
  rateCut : Bool := false
  caravan : CaravanRun := {}
  walk : WalkRun := {}
  moe : MoeRun := {}
  /-- cause and peer of a fabric hold, and when HOLD_MS ends (R309, R310) -/
  hold : Option (Nat × Nat × Nat) := none
  teardown : Option Teardown := none
  /-- the stations as a program fault found them, which may fault at the same gate time (R98) -/
  fallen : Sparse Arch := []
  /-- ranges of its store that hold bytes of a substituted tensor (R128) -/
  wide : List (Nat × Nat) := []
  /-- writes to its store while operations that read it are incomplete, oldest first (R46), and which of them are atomics (R300) -/
  writes : List (Nat × Bytes) := []
  atomics : List Nat := []
  owed : List Owed := []
  /-- modelled energy, in units of 0.01 pJ / 3750^2 (R390) -/
  energy : Nat := 0
deriving DecidableEq, Repr

/-! ### Partitions, images, sealed pages, ledger (07, 08, 12) -/

/-- The governor's state for a partition (R380-R383). -/
structure PartGov where
  /-- energies in units of 0.01 pJ / 3750^2 -/
  used : Nat := 0
  /-- highest share in this second, in units of W/8 -/
  shareSec : Nat := 0
  runUs : Nat := 0
  historyUs : Nat := 0
  fNow : Nat := 2100
  /-- modelled energy of the last whole millisecond and of the present one -/
  lastMs : Nat := 0
  msEnergy : Nat := 0
  excursion : Bool := false
  energy : Nat := 0
  idle : Nat := 0
  /-- dynamic, holding and HBM energy charged in the present period -/
  dyn : Nat := 0
  hold : Nat := 0
  hbm : Nat := 0
  breachWin : Nat := 0
  breachSteps : Nat := 0
  breachPending : Nat := 0
  breachCause : Nat := 0
  breachAt : Option Nat := none
deriving DecidableEq, Repr

/-- One partition (R350-R354, R375). -/
structure Part where
  key : BitVec 256 := 0
  seed : Word := 0
  ledgerKey : BitVec 128 := 0
  cfg : Word := 0x0000_3202_8000_07D0
  holder : Option Nat := none
  preempts : Nat := 0
  swaps : Nat := 0
  tdHandle : BitVec 16 := 0xFFFF
  tdReason : BitVec 8 := 0
  tdDetail : BitVec 8 := 0
  tdStation : BitVec 16 := 0xFFFF
  maxPre : Nat := 0
  /-- when the pre-emption of the holder was requested, ns (R362) -/
  preSince : Option Nat := none
  ways : BitVec 8 := 0
  pages : Nat := 0
  hits : Nat := 0
  misses : Nat := 0
  inserts : Nat := 0
  evicts : Nat := 0
  declined : Nat := 0
  /-- a reserved window has fallen due during a slice switch, which completes first (R363) -/
  switchFirst : Bool := false
  shipped : Nat := 0
  servedRows : Nat := 0
  borrows : Nat := 0
  trees : Nat := 0
  forwarded : Nat := 0
  sentBlocks : Nat := 0
  staleRes : Nat := 0
  staleBlk : Nat := 0
  plansApplied : Nat := 0
  plansLate : Nat := 0
  rowsRefused : Nat := 0
  postsRefused : Nat := 0
  heldReg : Word := 0
  holds : Nat := 0
  gov : PartGov := {}
deriving DecidableEq, Repr

/-- An image (R180): its partition, name, size, regions, bytes by image offset, poisoned granules, whether open. -/
structure Image where
  part : Nat
  id : Nat
  size : Nat
  regions : List ImageRegion
  data : Mem := []
  poison : List Nat := []
  open_ : Bool := true
deriving DecidableEq, Repr

/-- A sealed page or one on its way (R182, R211). -/
structure Page where
  part : Nat
  spn : Nat
  data : Bytes
  crcs : List (BitVec 32)
  poison : Bool := false
deriving DecidableEq, Repr

/-- A seal between its seal point and its completion (R182): the page's sequence, block and layer, the bundle's first page
number and layer count, the reservation it was taken from (handle and POOL_PAGES), and the page's bytes. -/
structure Seal where
  part : Nat
  /-- `none` once the context has ended or been torn down (R229) -/
  ctx : Option Nat
  handle : BitVec 16
  pool : Nat
  seq : Nat
  block : Nat
  layer : Nat
  base : Nat
  layers : Nat
  data : Bytes
deriving DecidableEq, Repr

/-- A prefix-ledger entry (R235); its set and way are its key 8 set + way. -/
structure LedgerEntry where
  key : Word
  poison : Bool := false
  part : Nat
  layers : Nat
  spn : Nat
  ref : Nat
  parent : Option Nat
  stamp : Nat
deriving DecidableEq, Repr

/-! ### The command interface (11_host_port.md R327-R347) -/

/-- A command accepted in this session (R330): its packet, and its reply status, detail and body once sent. -/
structure Cached where
  pkt : Pkt
  reply : Option (BitVec 16 × BitVec 32 × Bytes)
  /-- where retransmissions that came before the reply was ready came from (R327, R330) -/
  again : List (BitVec 128 × BitVec 16) := []
deriving DecidableEq, Repr

/-- An event of a slot's queue (R336). -/
structure QueuedEvent where
  num : BitVec 32
  opcode : BitVec 16
  ctx : BitVec 16
  time : Nat
  overflow : Bool
  body : Bytes
deriving DecidableEq, Repr

/-- A controller slot's session (R328-R336, R415, R416). -/
structure Session where
  open_ : Bool := false
  number : BitVec 32 := 0
  cmdKey : Bytes := []
  replyKey : Bytes := []
  /-- the highest SEQUENCE accepted, H -/
  high : Nat := 0
  /-- accepted sequences H - 63 to H, newest first -/
  cache : List Cached := []
  /-- unacknowledged events, oldest first -/
  events : List QueuedEvent := []
  lastEvent : Nat := 0
  /-- an event has been dropped since the last event was sent -/
  overflow : Bool := false
  /-- when the oldest event was last sent -/
  sentAt : Nat := 0
  /-- source address and port of the most recent authenticated command -/
  lastAddr : BitVec 128 := 0
  lastPort : BitVec 16 := 0
deriving DecidableEq, Repr

/-- A challenge of STATUS_MIN (R342). -/
structure Challenge where
  value : BitVec 64
  at_ : Nat
  spent : Bool := false
deriving DecidableEq, Repr

/-- The command interface. -/
structure Cmd where
  a : Session := {}
  b : Session := {}
  challenges : List Challenge := []
  baton : Option Slot := none
  batonGen : BitVec 32 := 0
  batonEnd : Nat := 0
  /-- BATON_EXPIRE has reported the present lease's end -/
  batonReported : Bool := false
  leaseMs : Nat := 2000
  event : Word := 0
  fresh : Fresh := {}
  accepted : Nat := 0
  refused : Nat := 0
  authFails : Nat := 0
  suppressed : Nat := 0
  /-- refusals sent in the present second, and that second (R329) -/
  refusals : Nat := 0
  refusalSec : Nat := 0
  /-- packets that wait for a firmware that has not started (R343): arrival time and packet -/
  waiting : List (Nat × Pkt) := []
  /-- the firmware has started and answers -/
  responsive : Bool := false
  /-- when the firmware last began a command or gave a heartbeat (R343) -/
  beatAt : Option Nat := none
  /-- commands that need the baton and wait for a FW_UPDATE before them to end, oldest first (R332) -/
  serial : List (Slot × Pkt) := []
deriving DecidableEq, Repr

/-! ### The host port (11_host_port.md R318-R326) -/

/-- A queue pair (R321-R326, R345). -/
structure Qp where
  qpn : Nat
  kind : Nat
  slot : Slot
  /-- context number, kind 1 -/
  ctx : Nat := 0
  remoteQpn : Nat
  /-- the PSN that the next request must carry (R321, R324) -/
  remotePsn : Nat
  remoteGid : BitVec 128
  localPsn : Nat
  rkey : BitVec 32
  recvBase : Nat := 0
  recvSlots : Nat := 0
  slotBytes : Nat := 0
  recvStation : Nat := 0
  recvToken : Nat := 0
  sends : Nat := 0
  error : Bool := false
  /-- send rate in kb/s, and when it was last halved and last raised (R325) -/
  rate : Nat := 1600000000
  halvedAt : Option Nat := none
  raisedAt : Nat := 0
  cnpSentAt : Option Nat := none
  retries : Nat := 0
  /-- RNR NAKs in a row to its outstanding request -/
  rnrs : Nat := 0
  /-- when its outstanding request was last sent (R326) -/
  reqSentAt : Nat := 0
deriving DecidableEq, Repr

/-- An itinerary whose bytes have been fetched and whose checks have not been made (R131, R344). -/
structure LoadJob where
  owed : Owed
  part : Nat
  file : Bytes
deriving DecidableEq, Repr

/-- The host port. -/
structure HostPort where
  /-- 2 up, 0 not -/
  link : BitVec 8 := 0
  lanes : BitVec 8 := 0
  /-- when the link was last found down (R349) -/
  downAt : Nat := 0
  qps : List Qp := []
  /-- ITIN_LOAD commands whose RDMA Read is outstanding: queue pair, command, partition, length -/
  fetches : List (Nat × Owed × Nat × Nat) := []
  loads : List LoadJob := []
  /-- SERVICE_START and ITIN_LOAD commands that wait for one another, in order of arrival (R442) -/
  service : List Owed := []
  rxBytes : Nat := 0
  txBytes : Nat := 0
  fcsErrors : Nat := 0
  dropped : Nat := 0
  cnpSent : Nat := 0
  cnpReceived : Nat := 0
  event : Word := 0
  fresh : Fresh := {}
  /-- Duplicate Address Detection has found the configured address in use (R319) -/
  dadFailed : Bool := false
deriving DecidableEq, Repr

/-! ### MRAM, fuses and flash (R319, R335, R376, R400, R407-R411, R426, R430, R477) -/

/-- A slot's binding (R335, R414) and its last session number (R415). -/
structure Binding where
  enrolled : Bool := false
  ipv4 : Bool := false
  key : BitVec 256 := 0
  addr : BitVec 128 := 0
  lastSession : BitVec 32 := 0
deriving DecidableEq, Repr

/-- The network configuration (R319, R345, R349). -/
structure NetConfig where
  v6en : Bool := false
  v4en : Bool := false
  vlanEn : Bool := false
  vlanId : BitVec 12 := 0
  port : BitVec 16 := 0xBC3E
  addr6 : BitVec 128 := 0
  prefix6 : BitVec 8 := 0
  prefix4 : BitVec 8 := 0
  addr4 : BitVec 32 := 0
  gw6 : BitVec 128 := 0
  gw4 : BitVec 32 := 0
deriving DecidableEq, Repr

/-- The alarm policy (R426, R427): the shipped levels of sources 1-7. -/
structure AlarmPolicy where
  isolation : Bool := true
  authLimit : Nat := 1000
  authWindowS : Nat := 10
  levels : List Nat := [0, 1, 1, 1, 1, 0, 1, 1]
deriving DecidableEq, Repr

/-- A draw-ledger record (R387). -/
structure LedgerRec where
  window : Nat := 0
  flags : Nat := 0
  startUs : Nat := 0
  lengthMs : Nat := 0
  peak1sW : Nat := 0
  energyMj : Nat := 0
  allowedMj : Nat := 0
  modelMj : Nat := 0
  excursions : Nat := 0
  longestMs : Nat := 0
  peak1msW : Nat := 0
  peakAtMs : Nat := 0
deriving DecidableEq, Repr

/-- An alarm-log entry (R430). -/
structure AlarmEntry where
  uptimeUs : Nat
  boot : Nat
  source : Nat
  level : Nat
  action : Nat
  detail : Word
  part : Nat
deriving DecidableEq, Repr

/-- A fault-log entry (R477). -/
structure FaultEntry where
  uptimeUs : Nat := 0
  boot : Nat := 0
  seq : Nat := 0
  kind : Nat
  reason : Nat := 0
  detail : Nat := 0
  flags : Nat := 0
  ctx : BitVec 16 := 0xFFFF
  station : Nat := 0xFFFF
  bundle : Nat := 0
  job : BitVec 32 := 0
  step : Nat := 0
  unit : Nat := 0
  info : Word := 0
deriving DecidableEq, Repr

/-- A firmware bank (R408, R433): its file and its state. -/
structure Bank where
  image : Bytes
  state : Nat
deriving DecidableEq, Repr

/-- What survives a loss of power (R439): MRAM, flash and fuses. -/
structure Nv where
  slotA : Binding := {}
  slotB : Binding := {}
  net : NetConfig := {}
  layout : Nat := 1
  fallbackW : Nat := 2400
  policy : AlarmPolicy := {}
  savedRec : Option LedgerRec := none
  /-- newest first, at most 256 -/
  alog : List AlarmEntry := []
  /-- entries ever written, which fixes the ring position of the newest -/
  alogCount : Nat := 0
  bootCount : Nat := 0
  /-- newest first, at most 4,096 -/
  faults : List FaultEntry := []
  faultSeq : Nat := 0
  bankA : Bank := ⟨Config.shippedBank 0, 1⟩
  bankB : Bank := ⟨Config.shippedBank 1, 0⟩
  /-- the bank the boot ROM takes first: false A, true B -/
  nextBank : Bool := false
  rollback : Fin 65 := Config.rollbackShipped
  revoked : Bool := false
deriving DecidableEq, Repr

/-! ### Power, thermal and supply (13_power_thermal.md) -/

/-- A temperature sensor (R394): reading, side of its control point, side and time of its last event. -/
structure Sens where
  temp : Int := 0
  above : Bool := false
  reported : Bool := false
  lastEvent : Option Nat := none
  /-- a crossing waits for the end of the 100 ms (R394) -/
  held : Bool := false
deriving DecidableEq, Repr

/-- The governor and the converter (R376-R406). -/
structure Gov where
  envelope : Nat := 2400
  source : Nat := 0
  leaseEnd : Option Nat := none
  grantGen : Nat := 0
  /-- when an ENVELOPE_DROP last ran, and the drops whose effect and reply come after a grant of the same gate-die cycle (R378) -/
  droppedAt : Option Nat := none
  dropWaits : List Pkt := []
  event : Word := 0
  fresh : Fresh := {}
  alertMask : BitVec 8 := 0x5C
  breachWindows : Nat := 0
  lastCause : Nat := 0
  inputMv : Nat := 48000
  /-- the input is outside 40.0-59.5 V by the last report (R397) -/
  supplyOut : Bool := false
  shed : Bool := false
  sensors : Sparse Sens := []
  thermtrip : Bool := false
  /-- when metering began (R386) -/
  meterSince : Option Nat := none
  /-- changes of the envelope in force: time, watts, newest first, back to the open window's start -/
  envLog : List (Nat × Nat) := []
  /-- 64 closed windows, newest first -/
  windows : List LedgerRec := []
  openWindow : Nat := 0
  openStart : Nat := 0
  openFallback : Bool := false
  openBreach : Bool := false
  /-- modelled energy of the open window and of the last tick, in units of 0.01 pJ / 3750^2 -/
  openModel : Nat := 0
  lastTick : Nat := 0
  /-- when the loop of R382 last ran: a shed bypasses it (R398) -/
  lastLoop : Nat := 0
  modelledW : Nat := 0
  /-- power-up number, which tells measured samples of one power-up from another's -/
  powerUps : Nat := 0
  /-- when GATE_MODE 0x03 began after a trip or a save, and when a reset ended it, newest first (R489) -/
  quiet : List (Nat × Option Nat) := []
deriving DecidableEq, Repr

/-! ### Security (14_security.md) -/

/-- A firmware image on its way to the bank that is not running (R413): the command that is owed a reply, the image, and the
microseconds that the write still takes. -/
structure FwWrite where
  owed : Option Owed := none
  image : Bytes := []
  left : Nat := 0
deriving DecidableEq, Repr

/-- The RDMA Read of a FW_UPDATE that has not been answered (R413): the command that is owed a reply, the queue pair, and the request. -/
structure FwRead where
  owed : Option Owed := none
  qpn : Nat
  va : Nat
  rkey : BitVec 32
  len : Nat
deriving DecidableEq, Repr

/-- The security block. -/
structure Sec where
  event : Word := 0
  fresh : Fresh := {}
  alarms : Nat := 0
  contains_ : Nat := 0
  erases : Nat := 0
  /-- alarms per source since power-up (R430) -/
  counts : Sparse Nat := []
  trips : Nat := 0
  tripPart : BitVec 4 := 0
  tripKind : BitVec 4 := 0
  tripAgent : BitVec 16 := 0
  alogIndex : BitVec 8 := 0
  idPub : Bytes := []
  atPub : Bytes := []
  atPriv : Option Bytes := none
  aliasSig : Bytes := []
  contained : Bool := false
  bootBank : Bool := false
  fwDigest : BitVec 512 := 0
  imageRollback : Fin 65 := 0
  /-- the lid mesh is broken -/
  tamperOpen : Bool := false
  /-- until when a contain or an erase is under way, and its level (R428) -/
  containEnd : Nat := 0
  containLevel : Nat := 0
  /-- a firmware image being written to the bank that is not running (R413) -/
  fwWrite : Option FwWrite := none
  /-- the RDMA Read that fetches a firmware image (R413, R326) -/
  fwRead : Option FwRead := none
  /-- authentication failures at the start of the window, that start, and whether source 5 has fired in it (R427) -/
  authBase : Nat := 0
  authSince : Nat := 0
  authFired : Bool := false
  /-- alarms whose action waits for the firmware (R428) -/
  deferred : List (Nat × Nat × Word) := []
  zeroizing : Bool := false
  /-- the JTAG instruction in force and what it answered (R429) -/
  jtag : Option (JtagOp × Word) := none
deriving DecidableEq, Repr

/-! ### The scheduler, the store and the HBM stacks (07_central_store.md, 12_partitions_contexts.md) -/

/-- The SCHED block's package-wide registers (R374, R375). -/
structure Sched where
  count : Nat := 1
  generation : Nat := 0
  event : Word := 0
  fresh : Fresh := {}
  marginPct : Nat := 125
deriving DecidableEq, Repr

/-- A write held in a transit buffer, with the slice in whose piece of the buffer it lies (R173, R465). -/
inductive Transit
  | split (addr : Nat) (bs : Bytes) (slice : Nat)
  | image (part id offset : Nat) (bs : Bytes) (slice : Nat)
deriving DecidableEq, Repr

/-- The central store's registers, split-mode contents and transit buffers (R171-R173, R195-R203). -/
structure Cst where
  event : Word := 0
  fresh : Fresh := {}
  errAddr : Word := 0
  corr : Nat := 0
  uncorr : Nat := 0
  scrubOn : Bool := true
  scrubS : Nat := 0xE10
  scrubPos : Nat := 0
  /-- when the present pass began (R197) -/
  scrubFrom : Option Nat := none
  seals : Nat := 0
  /-- split-mode bytes of the slices and of the HBM stacks, by physical address -/
  split : Mem := []
  hbm : Mem := []
  /-- pending writes of eighth k at key k, oldest first -/
  transit : Sparse (List Transit) := []
deriving DecidableEq, Repr

/-- One HBM stack (R194-R198, R204-R209). -/
structure Stk where
  state : BitVec 8 := 0
  live : BitVec 64 := 0
  /-- pseudo-channels that training or self-test marked, and those that a controller removed: out of live until the next power-up
  (R198, R436, R439) -/
  out : BitVec 64 := 0
  removed : BitVec 64 := 0
  corr : Nat := 0
  uncorr : Nat := 0
  errAddr : Word := 0
  scrubOn : Bool := true
  scrubH : Nat := 12
  scrubPos : Nat := 0
  scrubFrom : Option Nat := none
  event : Word := 0
  fresh : Fresh := {}
  channel : BitVec 5 := 0
  doubled : Bool := false
  tally : BlkTally := {}
  shadow : BlkTally := {}
  sel : Word := 0
  /-- HBM bytes moved in the present governor period -/
  bytes : Nat := 0
deriving DecidableEq, Repr

/-! ### Brisor (10_brisor_fabric.md) -/

/-- An XFAB descriptor at its drover (R295, R301). -/
structure FabDesc where
  id : Nat
  ctx : Nat
  station : Nat
  bundle : Nat
  op : Nat
  sub : Nat
  /-- PEERS index, or `none` for the hash of R297 -/
  peer : Option Nat
  token : Nat
  ntoken : Nat
  nindex : Nat
  remote : Nat
  local_ : Nat
  count : Nat
  ncount : Nat
  issued : Nat := 0
  done : Nat := 0
deriving DecidableEq, Repr

/-- What a unit carries (R294, R295). -/
inductive UnitKind
  /-- unit of a station's descriptor -/
  | desc (id unit : Nat)
  /-- a message of the dispatch engine that is answered by RSP (R294) -/
  | engine
  /-- the caravan engine's read of an image granule that another package holds (R186, R301) -/
  | fetch (granule : Nat)
  /-- its read of a borrowed expert's top-up record for a station: the record's place in the home's image (R275) -/
  | topup (st place : Nat)
deriving DecidableEq, Repr

/-- A unit in a drover's entry (R301). -/
structure DUnit where
  kind : UnitKind
  ctx : Nat
  station : Nat
  entry : Nat
  gen : Nat
  mtype : BitVec 8
  msg : Msg
  peer : Nat
  rail : Nat
  /-- when it times out: its first send + TIMEOUT_US as it stood then (R309, R317) -/
  deadline : Nat
  lastSent : Nat
  backoffUs : Nat := 1
  /-- answered RETRY and not yet re-sent -/
  retry : Bool := false
  /-- held for a rail that has left live (R305) -/
  held : Bool := false
  /-- sent on a rail that has since left live toward its package (R305) -/
  departed : Bool := false
deriving DecidableEq, Repr

/-- One drover (R301). -/
structure Drover where
  queue : List FabDesc := []
  active : List FabDesc := []
  units : List DUnit := []
  gen : Nat := 0
  completed : Nat := 0
  retries : Nat := 0
  timeouts : Nat := 0
  tally : BlkTally := {}
  shadow : BlkTally := {}
  sel : Word := 0
deriving DecidableEq, Repr

/-- A flit that a port has sent and that is not yet acknowledged (R292): its SEQ, its class, its message bytes, and how often in a
row it has been replayed. -/
structure SentFlit where
  seq : BitVec 12
  cls : Nat
  body : Bytes
  replays : Nat := 0
deriving DecidableEq, Repr

/-- A message that waits at a port to enter its class's byte stream: its class, the eighth it is of, its type (R289, R301). -/
structure Waiting where
  cls : Nat
  eighth : Nat
  mtype : BitVec 8
  msg : Msg
deriving DecidableEq, Repr

/-- One Brisor port (R283-R292, R307, R308, R317). -/
structure FabPort where
  /-- FB_PORT_STATE STATE -/
  state : BitVec 4 := 0
  lanes : BitVec 8 := 0
  width : Nat := 0
  locked : BitVec 8 := 0
  failed : BitVec 8 := 0
  /-- the step of R285 and when it began -/
  step : Nat := 0
  stepSince : Nat := 0
  far : Option Ident := none
  corrected : Nat := 0
  uncorrected : Nat := 0
  replays : Nat := 0
  /-- until when the change to width 4 is under way: STATE reads 6 (R307, R317) -/
  degradingTo : Nat := 0
  forceUp : Bool := false
  disable : Bool := false
  /-- since when DISABLE drains the port (R475) -/
  draining : Option Nat := none
  /-- SEQ expected next, last SEQ sent, the retry buffer, a NAK is owed -/
  rxNext : BitVec 12 := 0
  txLast : BitVec 12 := 0
  unacked : List SentFlit := []
  nakOwed : Bool := false
  /-- credits held of classes 0-3, and the receive buffers of classes 0-3 that the far end was told of (R285, R290, R291) -/
  credits : List Nat := [0, 0, 0, 0]
  advertised : List Nat := [0, 0, 0, 0]
  /-- messages that wait to enter their class's stream, oldest first (R289, R291) -/
  egress : List Waiting := []
  /-- bytes of each class's outbound stream that no flit has taken yet, and of its inbound stream that end no message yet (R289) -/
  txStream : List Bytes := [[], [], [], []]
  rxStream : List Bytes := [[], [], [], []]
  /-- the eighth whose message entered last (R301) -/
  turn : Nat := 7
  lastRx : Nat := 0
  identSentAt : Option Nat := none
deriving DecidableEq, Repr

/-- The wiring plan (R287). -/
structure Plan where
  gen : Nat
  id : Nat
  tray : BitVec 8
  rack : BitVec 16
  slot : BitVec 8
  ports : List (Ident × Bool)
deriving DecidableEq, Repr

/-- The fabric block. -/
structure Fab where
  plan : Option Plan := none
  event : Word := 0
  fresh : Fresh := {}
  timeoutUs : Nat := 100
  holdMs : Nat := 2000
  merged : Nat := 0
  discard : Nat := 0
  /-- rails that reach package k -/
  reach : Sparse (BitVec 8) := []
  departed : BitVec 256 := 0
  departNew : Fresh := {}
  ports : Sparse FabPort := []
  drovers : Sparse Drover := []
  dead : List (BitVec 32) := []
  /-- quarantined job ids and the end of each quarantine -/
  quarantine : List (BitVec 32 × Nat) := []
  nextDesc : Nat := 0
  /-- engine requests that each partition has sent, which rotate over its drovers (R301) -/
  turns : Sparse Nat := []
  /-- the partitions' inbound queues, oldest first: requests that wait for a seal to end or for their context to be resident, with
  partition and MTYPE (R291, R296, R302) -/
  inbound : List (Nat × BitVec 8 × Msg) := []
  /-- granules read for peers in the present microsecond, which a read may merge with: partition and granule (R306) -/
  reads : List (Nat × Nat) := []
  readsAt : Nat := 0
deriving DecidableEq, Repr

/-! ### Walkers, ledger, experts -/

/-- One page walker's counters (R244, R245). -/
structure Walker where
  items : Nat := 0
  hits : Nat := 0
  misses : Nat := 0
  staged : Nat := 0
deriving DecidableEq, Repr

/-- The KVW block. -/
structure Kvw where
  event : Word := 0
  fresh : Fresh := {}
  walkers : Sparse Walker := []
  /-- look-aside lines of walker w for partition p at key 8 w + p, most recent first: context and line address (R231) -/
  lab : Sparse (List (Nat × Nat)) := []
deriving DecidableEq, Repr

/-- The PFX block: entries at key 8 set + way, and the stamp of the next insertion or use (R235). -/
structure Pfx where
  event : Word := 0
  fresh : Fresh := {}
  ledger : Sparse (Option LedgerEntry) := []
  stamp : Nat := 0
deriving DecidableEq, Repr

/-- The MOE block's package-wide registers (R282). -/
structure Moe where
  event : Word := 0
  fresh : Fresh := {}
  mergeNs : BitVec 16 := 0x7D0
  threshold : BitVec 16 := 0x578
  hysteresis : BitVec 16 := 0xC8
deriving DecidableEq, Repr

/-! ### Tallies (16_tallies.md) -/

/-- A snapshot being collected (R455). -/
structure Collect where
  seq : Nat
  at_ : Nat
  flags : Nat
  selectGen : Nat
deriving DecidableEq, Repr

/-- The running stream (R458-R460). -/
structure Stream where
  set : BitVec 8
  periodUs : Nat
  owner : Slot
  qpn : Nat
  rkey : BitVec 32
  va : Nat
  bytes : Nat
  nextAt : Nat
  /-- FIRST_SEQ that its start has reported -/
  firstSeq : Nat := 0
  stopping : Bool := false
  owed : Option Owed := none
deriving DecidableEq, Repr

/-- The TALLY block. -/
structure Tally where
  event : Word := 0
  fresh : Fresh := {}
  seq : Nat := 0
  dropped : Nat := 0
  missed : Nat := 0
  ringKib : Nat := 0x400
  selectGen : Nat := 0
  peek : Word := 0
  itinRefused : Nat := 0
  storms : Nat := 0
  collect : Option Collect := none
  stream : Option Stream := none
  /-- records in the local ring, oldest first: SEQ and bytes -/
  ring : List (Nat × Bytes) := []
  /-- where in the ring's byte stream the next record begins (R456) -/
  ringPos : Nat := 0
  droppedSince : Nat := 0
  gate : BlkTally := {}
  gateShadow : BlkTally := {}
  selGate0 : Word := 0
  selGate1 : Word := 0
deriving DecidableEq, Repr

/-! ### The gate die, bring-up and pins (01, 15, 18) -/

/-- Where the power-up sequence stands, and the pins (R434-R438, R484-R487). -/
structure Bring where
  powered : Bool := true
  /-- step 1 of R434 has ended -/
  pgood : Bool := false
  romDone : Bool := false
  reservoir : Bool := false
  /-- the lattice dies, store dies and HBM stacks are powered (R434 step 4) -/
  diesOn : Bool := false
  /-- HBM training has ended; self-test has ended -/
  trained : Bool := false
  selfTested : Bool := false
  /-- a warm reset is in progress, and it waits for temperature (R396) -/
  warm : Bool := false
  hot : Bool := false
  /-- populated HBM has still to be zeroed (R425) -/
  zeroPending : Bool := false
  rstLow : Option Nat := none
  prsntHigh : Option Nat := none
  /-- a removal has been decided (R471) -/
  removal : Bool := false
  /-- until when a last-gasp or removal save is under way, and ALERT_N's state at its decision, which it keeps (R399, R471, R486) -/
  saveEnd : Nat := 0
  alertHeld : Bool := false
  /-- TRST_N reads high: its pull-down holds it low until a debugger drives it; TDO, which is driven only while the TAP shifts
  (R484) -/
  trstHigh : Bool := false
  tdo : Option Bool := none
  /-- both banks failed and the boot ROM has stopped (R409) -/
  stopped : Bool := false
  /-- the fuse port is locked against further reads (R407) -/
  fuseLocked : Bool := false
deriving DecidableEq, Repr

/-- The GATE block (R26-R34). -/
structure Gate where
  fw : Word := 0
  mode : BitVec 8 := 0
  scratch : Word := 0
deriving DecidableEq, Repr

/-- The responder's answers on a queue pair (R321-R324, R357). -/
inductive Roce
  | ack
  | data (bs : Bytes)
  | invalidRequest
  | remoteAccess
  /-- every request on a queue pair in the error state (R322) -/
  | nak
  /-- RNR NAK, timer 0.64 ms (R357) -/
  | rnr
  /-- NAK, PSN sequence error (R321) -/
  | sequence
deriving DecidableEq, Repr

/-- What the package has sent. -/
inductive Out
  | reply (cmd : Pkt) (flags : BitVec 16) (status : BitVec 16) (detail : BitVec 32) (body trailer : Bytes)
  | event (slot : Slot) (e : QueuedEvent) (trailer : Bytes)
  /-- a Brisor message whose bytes begin to leave on rail `port` -/
  | msg (mtype : BitVec 8) (m : Msg)
  /-- the 256 bytes of a flit (R289) -/
  | flit (port : Nat) (bytes : Bytes)
  | roce (qpn psn : Nat) (r : Roce)
  | cnp (qpn : Nat)
  | rdmaRead (qpn : Nat) (va : Nat) (rkey : BitVec 32) (len : Nat)
  | rdmaWrite (qpn : Nat) (va : Nat) (rkey : BitVec 32) (bs : Bytes)
  | arpReply (mac : BitVec 48) (ip target : BitVec 32)
  | ndAdvert (target dest : BitVec 128)
  /-- a Duplicate Address Detection probe (R318, R319) -/
  | dadProbe (target : BitVec 128)
  | echoReply (v6 : Bool) (src dst : BitVec 128) (body : Bytes)
deriving DecidableEq, Repr

/-- The whole package. -/
structure State where
  /-- commands and events that wait, first in, first out -/
  pending : List Instr := []
  /-- nanoseconds of the gate reference clock since input power was applied (R33, R457) -/
  now : Nat := 0
  bring : Bring := {}
  gate : Gate := {}
  nv : Nv := {}
  cmd : Cmd := {}
  host : HostPort := {}
  gov : Gov := {}
  sec : Sec := {}
  sched : Sched := {}
  /-- partitions 0-7, contexts 0-127, stations 0-1,023, stacks 0-31 by number -/
  parts : Sparse Part := []
  ctxs : Sparse Ctx := []
  stns : Sparse Stn := []
  stks : Sparse Stk := []
  cst : Cst := {}
  fab : Fab := {}
  kvw : Kvw := {}
  pfx : Pfx := {}
  moe : Moe := {}
  tally : Tally := {}
  images : List Image := []
  pages : List Page := []
  seals : List Seal := []
  /-- the second in which fault-log entries were last counted, entries written in it, entries suppressed (R477) -/
  faultSec : Nat := 0
  faultRate : Nat := 0
  faultSuppressed : Nat := 0
  /-- the model's own log of what the package has sent, newest first -/
  out : List Out := []
  /-- the model's own counter of free values drawn (Config) -/
  free : Nat := 0
deriving DecidableEq, Repr

/-- The package right after input power is first applied: step 1 of R434, every register at its "At reset" value. -/
def State.reset : State := {}

/-- Faults of the model. No command of this block ends in one: every failure that the spec describes is an effect on the state. -/
inductive Fault
  /-- an access of the model to an address that does not exist. No command raises it: an access that the spec refuses is answered
  or dropped as the spec says. Safe: a fault ends the run. -/
  | badAddress (addr : Nat)
deriving DecidableEq, Repr

/-- Refusals of the model. -/
inductive Refusal
  /-- the command has no meaning yet. No command raises it: every row of the table has its meaning. Safe: a refusal ends the run. -/
  | notModelled (mnemonic : String)
deriving DecidableEq, Repr

end Sys2Proof.Machine
end

