-- ==== Sys2Proof/Machine/Ops.lean ====
section
/-!
DEFINITION. The named operations over the state: numbered blocks, time, tallies, Plouth replies and events, the fault log
and the alarm log.
-/

namespace Sys2Proof.Machine

/-! ### Numbered blocks -/

/-- Station `i`. -/
def State.stn (s : State) (i : Nat) : Stn := mget {} s.stns i
/-- Context number `c`. -/
def State.ctx (s : State) (c : Nat) : Ctx := mget {} s.ctxs c
/-- Partition `p`. -/
def State.part (s : State) (p : Nat) : Part := mget {} s.parts p
/-- Stack `n`. -/
def State.stk (s : State) (n : Nat) : Stk := mget {} s.stks n
/-- Brisor port `r`. -/
def State.port (s : State) (r : Nat) : FabPort := mget {} s.fab.ports r
/-- Drover `d`. -/
def State.drover (s : State) (d : Nat) : Drover := mget {} s.fab.drovers d
/-- Sensor `k`: islands at 0, stacks at 1,024, gate die at 1,056, converter at 1,060 (R394). -/
def State.sens (s : State) (k : Nat) : Sens := mget {} s.gov.sensors k

/-- Change station `i`. -/
def State.modStn (s : State) (i : Nat) (f : Stn → Stn) : State := { s with stns := mmod {} s.stns i f }
/-- Change context `c`. -/
def State.modCtx (s : State) (c : Nat) (f : Ctx → Ctx) : State := { s with ctxs := mmod {} s.ctxs c f }
/-- Change partition `p`. -/
def State.modPart (s : State) (p : Nat) (f : Part → Part) : State := { s with parts := mmod {} s.parts p f }
/-- Change stack `n`. -/
def State.modStk (s : State) (n : Nat) (f : Stk → Stk) : State := { s with stks := mmod {} s.stks n f }
/-- Change port `r`. -/
def State.modPort (s : State) (r : Nat) (f : FabPort → FabPort) : State :=
  { s with fab := { s.fab with ports := mmod {} s.fab.ports r f } }
/-- Change drover `d`. -/
def State.modDrover (s : State) (d : Nat) (f : Drover → Drover) : State :=
  { s with fab := { s.fab with drovers := mmod {} s.fab.drovers d f } }
/-- Change sensor `k`. -/
def State.modSens (s : State) (k : Nat) (f : Sens → Sens) : State :=
  { s with gov := { s.gov with sensors := mmod {} s.gov.sensors k f } }
/-- Change what a station holds for its context. -/
def State.modArch (s : State) (i : Nat) (f : Arch → Arch) : State :=
  s.modStn i fun t => { t with arch := f t.arch }

/-- `f` applied for every number of a list. -/
def State.foldNat (s : State) (l : List Nat) (f : State → Nat → State) : State := l.foldl f s

/-! ### Layout (R350-R352) -/

/-- Eighths of each partition. -/
def State.eighths (s : State) : Nat := 8 / s.sched.count
/-- The partition that holds package station `st`. -/
def State.partOfStn (s : State) (st : Nat) : Nat := st / (128 * s.eighths)
/-- The layout creates partition `p`. -/
def State.hasPart (s : State) (p : Nat) : Bool := p < s.sched.count
/-- The first package station of partition `p`. -/
def State.stnBase (s : State) (p : Nat) : Nat := 128 * p * s.eighths
/-- The package stations of partition `p`. -/
def State.stnsOfPart (s : State) (p : Nat) : List Nat :=
  (List.range (128 * s.eighths)).map fun i => s.stnBase p + i
/-- The package stacks of partition `p`. -/
def State.stksOfPart (s : State) (p : Nat) : List Nat :=
  (List.range (4 * s.eighths)).map fun i => 4 * p * s.eighths + i
/-- The context numbers of partition `p` (R352). -/
def ctxsOfPart (p : Nat) : List Nat := (List.range 16).map fun i => 16 * p + i
/-- The partition of context number `c`. -/
def partOfCtx (c : Nat) : Nat := c / 16
/-- The package station of context-relative station `i` of context `c`; 1,024 when there is none. -/
def State.stnOfCtx (s : State) (c i : Nat) : Nat :=
  match (s.ctx c).itin.streams[i]? with
  | some d => s.stnBase (partOfCtx c) + d.station
  | none => 1024
/-- STATION_COUNT of context `c`. -/
def State.stnCount (s : State) (c : Nat) : Nat := (s.ctx c).itin.streams.length
/-- The package stations of context `c` in context-relative order. -/
def State.stnsOfCtx (s : State) (c : Nat) : List Nat :=
  (s.ctx c).itin.streams.map fun d => s.stnBase (partOfCtx c) + d.station
/-- The context-relative index of package station `st` in context `c`; STATION_COUNT when it is not one. -/
def State.relStn (s : State) (c st : Nat) : Nat := (s.stnsOfCtx c).findIdx (· == st)
/-- The handle of context `c` (R352). -/
def ctxHandle (c use_ : Nat) : BitVec 16 := BitVec.ofNat 16 (partOfCtx c * 4096 + use_ % 32 * 128 + c)
/-- The context that a handle names: not FREE, and with this USE (R352). -/
def State.ctxOfHandle (s : State) (h : BitVec 16) : Option Nat :=
  let c := h.toNat % 128
  if h.toNat / 4096 < 8 && partOfCtx c == h.toNat / 4096 && (s.ctx c).handle == h && (s.ctx c).state != .free then some c
  else none
/-- The context is loaded: its number is not FREE. -/
def State.loaded (s : State) (c : Nat) : Bool := (s.ctx c).state != .free
/-- Every context number that is not FREE. -/
def State.loadedCtxs (s : State) : List Nat := (List.range 128).filter s.loaded
/-- The context holds its partition's stations (R358). -/
def State.holds (s : State) (c : Nat) : Bool := (s.part (partOfCtx c)).holder == some c

/-- The context is fabric-held, also when it has been swapped out since (R310). -/
def Ctx.isHeld (k : Ctx) : Bool := k.state == .held || k.under == some .held
/-- The context is parked, also when it has been swapped out since (R356). -/
def Ctx.isParked (k : Ctx) : Bool := k.state == .parked || k.under == some .parked
/-- Every station has issued FINISH and nothing else marks the context (R111). -/
def Ctx.isFinished (k : Ctx) : Bool := k.complete && !k.isHeld && !k.isParked
/-- The blocked state of a context and its BLOCK_CLASS (R359). -/
def Ctx.block (k : Ctx) : Option Blocked :=
  if k.isHeld then some ⟨2, none⟩ else if k.isParked then some ⟨3, none⟩ else if k.isFinished then some ⟨1, none⟩ else k.blocked

/-- The footprint of a context occupies the caravanserai, wholly or partly (R355). -/
def Ctx.occupies (k : Ctx) : Bool := k.resident || k.state == .swappingIn || k.state == .swappingOut

/-! ### The grid of stations (R47, R61) -/

/-- Row and column of a station. -/
def gridOf (st : Nat) : Nat × Nat :=
  let d := st / 256
  (16 * (d / 2) + st / 16 % 16, 16 * (d % 2) + st % 16)

/-- The station at a row and column. -/
def stnAt (row col : Nat) : Nat := (row / 16 * 2 + col / 16) * 256 + row % 16 * 16 + col % 16

/-- The station at the far end of link `l` (0 N, 1 E, 2 S, 3 W), when the link exists. -/
def linkFar (st l : Nat) : Option Nat :=
  let (r, c) := gridOf st
  if 1024 ≤ st then none
  else match l with
    | 0 => if r == 0 then none else some (stnAt (r - 1) c)
    | 1 => if c == 31 then none else some (stnAt r (c + 1))
    | 2 => if r == 31 then none else some (stnAt (r + 1) c)
    | 3 => if c == 0 then none else some (stnAt r (c - 1))
    | _ => none

/-- The link that leads back. -/
def linkBack (l : Nat) : Nat := (l + 2) % 4

/-- STN_LINKS (R61). -/
def Stn.links (t : Stn) (st : Nat) : Nat :=
  ((List.range 4).map fun l =>
    let far := linkFar st l
    fld (8 * b2n far.isSome + 4 * b2n (match far with | some f => f / 256 != st / 256 | none => false) +
      2 * b2n (t.linkUp.getLsbD l) + b2n (t.linkFailed.getLsbD l)) (12 - 4 * l) 4).sum

/-- A bit of a link field or port field set or cleared. -/
def putBit {w : Nat} (b : BitVec w) (i : Nat) (v : Bool) : BitVec w :=
  if v then b ||| BitVec.ofNat w (2 ^ i) else b &&& ~~~ BitVec.ofNat w (2 ^ i)

/-! ### Bits that hardware sets (R11) -/

/-- Hardware sets `b` at time `now`. -/
def Fresh.add (f : Fresh) (now b : Nat) : Fresh := ⟨now, (if f.at_ == now then f.bits else 0) ||| b⟩
/-- The bits that hardware has set at time `now`. -/
def Fresh.now (f : Fresh) (now : Nat) : Nat := if f.at_ == now then f.bits else 0

/-- A W1C register after a write of `v`: the bits written as 1 clear, but for those that hardware has set at this gate time (R11). -/
def w1c {w : Nat} (old : BitVec w) (f : Fresh) (now v : Nat) : BitVec w :=
  old &&& ~~~ (BitVec.ofNat w v &&& ~~~ BitVec.ofNat w (f.now now))

/-- STN_FAULT bits of a station are set (R62). -/
def Stn.faults (t : Stn) (now : Nat) (bits : BitVec 7) : Stn :=
  { t with fault := t.fault ||| bits, fresh := t.fresh.add now bits.toNat }

/-! ### Time -/

/-- GATE_UPTIME (R33). -/
def State.uptimeUs (s : State) : Nat := s.now / 1000
/-- The aligned second of GATE_UPTIME. -/
def State.second (s : State) : Nat := s.now / 1000000000
/-- Microseconds in nanoseconds. -/
def us (n : Nat) : Nat := n * 1000
/-- Milliseconds in nanoseconds. -/
def ms (n : Nat) : Nat := n * 1000000

/-- The package is powered: its gate die runs. -/
def State.alive (s : State) : Bool := s.bring.powered
/-- GATE_MODE MODE (R32). -/
def State.mode (s : State) : Nat := s.gate.mode.toNat
/-- GATE_MODE set. -/
def State.setMode (s : State) (m : BitVec 8) : State := { s with gate := { s.gate with mode := m } }

/-! ### Free values -/

/-- The next draw: its number, and the state with the counter advanced. -/
def State.draw (s : State) : Nat × State := (s.free, { s with free := s.free + 1 })

/-! ### Races (R46, R120) -/

/-- What some writes put into byte `a`, oldest first. -/
def written (ws : List (Nat × Bytes)) (a : Nat) : Bytes := ws.filterMap fun (lo, bs) => if lo ≤ a then bs[a - lo]? else none

/-- A byte that stood as `o` and has since been each of `l`: one of them, free in the model where they differ. -/
def raceByte (d a : Nat) (o : Byte) (l : Bytes) : Byte :=
  if l.all (· == o) then o else (o :: l).getD (Config.racePick d a % (l.length + 1)) o

/-- The byte whose draw decides for byte `a`: bytes of one word that only atomics have written share theirs (R300). -/
def raceKey (whole : Nat → Bool) (a : Nat) : Nat := if whole a then a / 8 * 8 else a

/-- Bytes read at `addr` while transfers may be writing them: each is the one that stood at first, one written since, or the
one that stands now; in the words that `whole` selects all bytes are of one of these times. -/
def State.race (s : State) (addr : Nat) (old : Bytes) (ws : List (Nat × Bytes)) (new : Bytes)
    (whole : Nat → Bool := fun _ => false) : Bytes × State :=
  if old == new && ws.isEmpty then (old, s)
  else
    let (d, s) := s.draw
    ((old.zip new).zipIdx.map fun ((o, n), i) => raceByte d (raceKey whole (addr + i)) o (written ws (addr + i) ++ [n]), s)

/-- Memory as a read sees it while the transfers `ws` are writing: each byte is the old one or the one a transfer writes. -/
def racedMem (d : Nat) (m : Mem) (ws : List (Nat × Bytes)) : Mem :=
  ws.zipIdx.foldl (fun m ((lo, bs), j) => bs.zipIdx.foldl (fun m (b, i) =>
    if Config.raceBit d (2 ^ 48 * j + lo + i) then wrByte m (lo + i) b else m) m) m

/-! ### Ranges of bytes -/

/-- Ranges without the bytes `lo .. lo + n - 1`. -/
def cutRanges (l : List (Nat × Nat)) (lo n : Nat) : List (Nat × Nat) :=
  l.flatMap fun (a, m) =>
    if n == 0 || a + m ≤ lo || lo + n ≤ a then [(a, m)]
    else (if a < lo then [(a, lo - a)] else []) ++ (if lo + n < a + m then [(lo + n, a + m - (lo + n))] else [])

/-- The parts of ranges that lie in `lo .. lo + n - 1`, moved so that `lo` falls on `at_`. -/
def moveRanges (l : List (Nat × Nat)) (lo n at_ : Nat) : List (Nat × Nat) :=
  l.filterMap fun (a, m) =>
    let x := max a lo
    let y := min (a + m) (lo + n)
    if x < y then some (at_ + (x - lo), y - x) else none

/-! ### Tallies (R445-R452) -/

/-- The programmable counters `0 .. n - 1` of a block with selection `sel`, each that names `code` raised by `k`. -/
def bumpProg (sel : Word) (n code k : Nat) (m : Sparse (BitVec 48)) : Sparse (BitVec 48) :=
  (List.range n).foldl (fun m i => if bitsOf sel.toNat (8 * i) 8 == code && code != 0
    then mmod 0 m i (· + BitVec.ofNat 48 k) else m) m

/-- A gate-die event of R452. -/
def State.gateEvent (s : State) (code k : Nat) : State :=
  let p := bumpProg s.tally.selGate0 8 code k s.tally.gate.prog
  let p := (List.range 8).foldl (fun m i => if bitsOf s.tally.selGate1.toNat (8 * i) 8 == code && code != 0
    then mmod 0 m (8 + i) (· + BitVec.ofNat 48 k) else m) p
  { s with tally := { s.tally with gate := { s.tally.gate with prog := p } } }

/-- A station event of R451. -/
def Stn.event (t : Stn) (code k : Nat) : Stn :=
  { t with tally := { t.tally with prog := bumpProg t.sel 8 code k t.tally.prog } }

/-- A slice event of R452, on the station above the slice. -/
def Stn.sliceEvent (t : Stn) (code k : Nat) : Stn :=
  { t with slice := { t.slice with prog := bumpProg t.sliceSel 4 code k t.slice.prog } }

/-- Bytes read or written in a slice: SLICE_BYTES and the class event (1 weave, 2 compiled, 3 autonomous); R446, R452. -/
def Stn.sliceBytes (t : Stn) (cls n : Nat) : Stn :=
  let t := t.sliceEvent cls n
  { t with slice := { t.slice with fixed := t.slice.fixed + BitVec.ofNat 48 n } }

/-- An HBM event of R452. -/
def Stk.event_ (k : Stk) (code n : Nat) : Stk :=
  { k with tally := { k.tally with prog := bumpProg k.sel 8 code n k.tally.prog } }

/-- Bytes moved in a stack: HBM_BYTES and the class event (1 compiled reads, 2 autonomous). -/
def Stk.move (k : Stk) (cls n : Nat) : Stk :=
  let k := k.event_ cls n
  { k with tally := { k.tally with fixed := k.tally.fixed + BitVec.ofNat 48 n }, bytes := k.bytes + n }

/-- A drover event of R452. -/
def Drover.event (d : Drover) (code n : Nat) : Drover :=
  { d with tally := { d.tally with prog := bumpProg d.sel 8 code n d.tally.prog } }

/-! ### What the package sends -/

/-- An IPv4 address as the IPv4-mapped IPv6 address (R345). -/
def v4Mapped (a : BitVec 128) : Bool := a.toNat / 2 ^ 32 == 0xFFFF

/-- Bytes of the Ethernet frame of a UDP payload of `n` bytes, from the destination address to the FCS (R318). -/
def State.frameBytes (s : State) (v4 : Bool) (n : Nat) : Nat :=
  max 64 (14 + 4 * b2n s.nv.net.vlanEn + (if v4 then 20 else 40) + 8 + n + 4)

/-- Bytes of the frames of a RoCEv2 message of `n` payload bytes, whose first packet has `first` header bytes beside BTH and
ICRC, and whose last one of several has `last`: a read response carries an AETH in both. The path MTU is 4,096, and a packet's payload
is padded to 4 bytes (R321). -/
def State.roceBytes (s : State) (gid : BitVec 128) (first n : Nat) (last : Nat := 0) : Nat :=
  let k := max 1 (ceilDiv n 4096)
  let pad (x : Nat) : Nat := 4 * ceilDiv x 4
  s.frameBytes (v4Mapped gid) (16 + first + pad (min n 4096)) +
    (if k ≤ 1 then 0 else (k - 2) * s.frameBytes (v4Mapped gid) (16 + 4096) +
      s.frameBytes (v4Mapped gid) (16 + last + pad (n - 4096 * (k - 1))))

/-- The far GID of a queue pair. -/
def State.gidOf (s : State) (qpn : Nat) : BitVec 128 :=
  match s.host.qps.find? fun q => q.qpn == qpn with
  | some q => q.remoteGid
  | none => 0

/-- Frame bytes that something sent takes on the host port. -/
def State.sentBytes (s : State) : Out → Nat
  | .reply p _ _ _ body tr => s.frameBytes (v4Mapped p.srcAddr) (40 + body.length + tr.length)
  | .event k e tr =>
    s.frameBytes (v4Mapped (match k with | .a => s.cmd.a | .b => s.cmd.b).lastAddr) (48 + e.body.length + tr.length)
  | .roce q _ (.data bs) => s.roceBytes (s.gidOf q) 4 bs.length 4
  | .roce q .. => s.roceBytes (s.gidOf q) 4 0
  | .cnp q => s.roceBytes (s.gidOf q) 16 0
  | .rdmaRead q .. => s.roceBytes (s.gidOf q) 16 0
  | .rdmaWrite q _ _ bs => s.roceBytes (s.gidOf q) 16 bs.length
  | .arpReply .. => 64 + 4 * b2n s.nv.net.vlanEn
  | .ndAdvert .. | .dadProbe _ => s.frameBytes false 24
  | .echoReply v6 _ _ body => s.frameBytes (!v6) body.length
  | _ => 0

/-- Record something sent, and count its frame bytes (R349). -/
def State.emit (s : State) (o : Out) : State :=
  { s with out := o :: s.out, host := { s.host with txBytes := satAdd 48 s.host.txBytes (s.sentBytes o) } }

/-- Count frame bytes received (R349). -/
def State.heardBytes (s : State) (n : Nat) : State :=
  { s with host := { s.host with rxBytes := satAdd 48 s.host.rxBytes n } }

/-- The 32-byte Plouth header (R328). -/
def plouthHeader (slot : BitVec 8) (flags opcode ctx : BitVec 16) (seq : BitVec 32) (len : Nat) (session : BitVec 32) :
    Bytes :=
  toBe 4 0x504C5448 ++ toBe 1 1 ++ toBe 1 slot.toNat ++ toBe 2 flags.toNat ++ toBe 2 opcode.toNat ++ toBe 2 ctx.toNat ++
    toBe 4 seq.toNat ++ toBe 4 len ++ toBe 4 session.toNat ++ toBe 8 0

/-- A command's header and parameters as bytes, over which its tag or signature runs (R329). -/
def pktBytes (p : Pkt) : Bytes :=
  toBe 4 0x504C5448 ++ toBe 1 p.version.toNat ++ toBe 1 p.slot.toNat ++ toBe 2 p.flags.toNat ++ toBe 2 p.opcode.toNat ++
    toBe 2 p.context.toNat ++ toBe 4 p.sequence.toNat ++ toBe 4 p.length.toNat ++ toBe 4 p.session.toNat ++
    toBe 8 p.rsv.toNat ++ p.params

/-- A slot's session. -/
def State.session (s : State) : Slot → Session
  | .a => s.cmd.a
  | .b => s.cmd.b

/-- Change a slot's session. -/
def State.modSession (s : State) (k : Slot) (f : Session → Session) : State :=
  match k with
  | .a => { s with cmd := { s.cmd with a := f s.cmd.a } }
  | .b => { s with cmd := { s.cmd with b := f s.cmd.b } }

/-- A slot's binding in MRAM. -/
def State.binding (s : State) : Slot → Binding
  | .a => s.nv.slotA
  | .b => s.nv.slotB

/-- Change a slot's binding. -/
def State.modBinding (s : State) (k : Slot) (f : Binding → Binding) : State :=
  match k with
  | .a => { s with nv := { s.nv with slotA := f s.nv.slotA } }
  | .b => { s with nv := { s.nv with slotB := f s.nv.slotB } }

/-- The other slot. -/
def slotOther : Slot → Slot
  | .a => .b
  | .b => .a

/-- SLOT of the header (R328). -/
def slotCode : Slot → BitVec 8
  | .a => 1
  | .b => 2

/-- The slot that a header names. -/
def slotOf (b : BitVec 8) : Option Slot := if b == 1 then some .a else if b == 2 then some .b else none

/-- FLAGS OPEN (R328). -/
def pktOpen (p : Pkt) : Bool := p.flags.getLsbD 2
/-- FLAGS SIGNED. -/
def pktSigned (p : Pkt) : Bool := p.flags.getLsbD 3
/-- The session form: neither OPEN nor SIGNED. -/
def pktSession (p : Pkt) : Bool := !pktOpen p && !pktSigned p

/-- Set a bit of CM_EVENT. -/
def State.cmEvent (s : State) (i : Nat) : State := { s with cmd := { s.cmd with
    event := setBit s.cmd.event i, fresh := s.cmd.fresh.add s.now (2 ^ i) } }

/-- The parameters of an event packet (R336). -/
def QueuedEvent.params (e : QueuedEvent) : Bytes :=
  toBe 8 e.time ++ toBe 4 (b2n e.overflow) ++ toBe 4 0 ++ e.body

/-- Send an event of a slot, or send it again (R336). -/
def State.sendEvent (s : State) (k : Slot) (e : QueuedEvent) : State :=
  let ss := s.session k
  let p := e.params
  let h := plouthHeader (slotCode k) 2 e.opcode e.ctx e.num p.length ss.number
  s.emit (.event k e (plouthTag ss.replyKey (h ++ p)))

/-- Queue an event for one slot and send it; a full queue drops its oldest event (R336). -/
def State.queueEvent (s : State) (k : Slot) (opcode ctx : BitVec 16) (body : Bytes) : State :=
  let ss := s.session k
  if !ss.open_ then s
  else
    let full := 1024 ≤ ss.events.length
    let e : QueuedEvent := ⟨BitVec.ofNat 32 (ss.lastEvent + 1), opcode, ctx, s.uptimeUs, full, body⟩
    let kept := if full then ss.events.drop 1 else ss.events
    let s := if full then s.cmEvent 4 else s
    let s := s.modSession k fun ss => { ss with 
      events := kept ++ [e], lastEvent := ss.lastEvent + 1
      sentAt := if ss.events.isEmpty then s.now else ss.sentAt }
    (s.gateEvent 3 1).sendEvent k e

/-- The package generates every event for both slots (R336). -/
def State.postEvent (s : State) (opcode ctx : BitVec 16) (body : Bytes) : State :=
  (s.queueEvent .a opcode ctx body).queueEvent .b opcode ctx body

/-- A status whose reply carries no trailer and is rate limited (R329). -/
def authStatus (st : BitVec 16) : Bool := st == 0x0201 || st == 0x0202 || st == 0x0204 || st == 0x0206

/-- The trailer of a reply (R329). -/
def State.replyTrailer (s : State) (p : Pkt) (status : BitVec 16) (bytes : Bytes) : Bytes :=
  if authStatus status || pktOpen p then []
  else
    match slotOf p.slot with
    | none => []
    | some k => if (s.session k).open_ then plouthTag (s.session k).replyKey bytes else []

/-- Replies still owed of a slot's accepted commands (R332). -/
def Session.outstanding (ss : Session) : Nat := (ss.cache.filter fun e => e.reply.isNone).length

/-- A reply's bytes: the header and the parameters (R331). -/
def replyBytes (p : Pkt) (status : BitVec 16) (detail : BitVec 32) (body : Bytes) : Bytes :=
  let ps := toBe 2 status.toNat ++ toBe 2 0 ++ toBe 4 detail.toNat ++ (if status == 0 then body else [])
  plouthHeader p.slot (p.flags ||| 1) p.opcode p.context p.sequence ps.length p.session ++ ps

/-- Put a reply in the cache entry of its command (R330). -/
def Session.remember (ss : Session) (p : Pkt) (r : BitVec 16 × BitVec 32 × Bytes) : Session :=
  { ss with cache := ss.cache.map fun e => if e.pkt == p && e.reply.isNone then { e with reply := some r, again := [] } else e }

/-- The packets that this reply answers beside the command: its retransmissions that came before it (R327, R330). -/
def Session.copies (ss : Session) (p : Pkt) : List Pkt :=
  match ss.cache.find? fun e => e.pkt == p && e.reply.isNone with
  | some e => e.again.map fun (a, n) => { p with srcAddr := a, srcPort := n }
  | none => []

/-- Send a reply's packet (R329, R331). -/
def State.emitReply (s : State) (p : Pkt) (status : BitVec 16) (detail : BitVec 32) (body : Bytes) : State :=
  s.emit (.reply p (p.flags ||| 1) status detail (if status == 0 then body else [])
    (s.replyTrailer p status (replyBytes p status detail body)))

/-- An authentication failure is counted, in the window of R427 it falls in: windows of AUTH_WINDOW_S whole seconds of
GATE_UPTIME (log entry 22). -/
def State.authFail (s : State) : State :=
  let w := s.second / max 1 s.nv.policy.authWindowS
  let fresh := s.sec.authSince != w
  { s with
    sec := { s.sec with
      authSince := w
      authBase := if fresh then s.cmd.authFails else s.sec.authBase
      authFired := if fresh then false else s.sec.authFired }
    cmd := { s.cmd with authFails := satAdd 32 s.cmd.authFails 1 } }

/-- Send a refusal whose reply carries no trailer: at most 1,000 a second leave, and the excess is counted (R329). -/
def State.emitRefusal (s : State) (p : Pkt) (status : BitVec 16) (detail : BitVec 32) (body : Bytes) : State :=
  let sent := if s.cmd.refusalSec == s.second then s.cmd.refusals else 0
  if 1000 ≤ sent then { s with cmd := { s.cmd with suppressed := satAdd 32 s.cmd.suppressed 1 } }
  else { s with cmd := { s.cmd with refusals := sent + 1, refusalSec := s.second } }.emitReply p status detail body

/-- Send a reply: one that R329 limits within its limit. -/
def State.sendReply (s : State) (p : Pkt) (status : BitVec 16) (detail : BitVec 32) (body : Bytes) : State :=
  if authStatus status then s.emitRefusal p status detail body else s.emitReply p status detail body

/-- The cache entry of a session-form command takes its reply (R330). -/
def State.cacheReply (s : State) (p : Pkt) (status : BitVec 16) (detail : BitVec 32) (body : Bytes) : State :=
  match slotOf p.slot with
  | some k => if pktSession p then s.modSession k (·.remember p (status, detail, body)) else s
  | none => s

/-- The retransmissions that a reply answers too. -/
def State.copiesOf (s : State) (p : Pkt) : List Pkt :=
  match slotOf p.slot with
  | some k => if pktSession p then (s.session k).copies p else []
  | none => []

/-- Count an answer: CM_EVENT, CM_COUNT and the gate die's tallies (R329, R347, R453). -/
def State.countReply (s : State) (status : BitVec 16) : State :=
  if authStatus status then (s.cmEvent 3).authFail
  else
    let s := if status == 0
      then { s with cmd := { s.cmd with accepted := satAdd 32 s.cmd.accepted 1 } }
      else { s with cmd := { s.cmd with refused := satAdd 32 s.cmd.refused 1 } }
    let s := s.gateEvent (if status == 0 then 1 else 2) 1
    if status == 0x0401 then s.cmEvent 0 else s

/-- A refusal under the limit of R329 that leaves counts as refused. -/
def State.countRefusal (s : State) (status : BitVec 16) : State :=
  if authStatus status && !(s.cmd.refusalSec == s.second && 1000 ≤ s.cmd.refusals) then
    { s with cmd := { s.cmd with refused := satAdd 32 s.cmd.refused 1 } }.gateEvent 2 1
  else s

/-- Answer a command: counts, cache and the packet (R329-R331, R347). -/
def State.reply (s : State) (p : Pkt) (status : BitVec 16) (detail : BitVec 32 := 0) (body : Bytes := []) : State :=
  let l := s.copiesOf p
  let s := ((s.countReply status).countRefusal status).cacheReply p status detail body
  l.foldl (fun s q => s.sendReply q status detail body) (s.sendReply p status detail body)

/-- Answer a command that replies late (R332): only while the session that sent it is still open. -/
def State.replyOwed (s : State) (o : Owed) (status : BitVec 16) (detail : BitVec 32 := 0) (body : Bytes := []) : State :=
  let ss := s.session o.slot
  if ss.open_ && ss.number == o.pkt.session then s.reply o.pkt status detail body else s

/-! ### The fault log (R477-R480) -/

/-- A fault-log entry in big-endian bytes (R477). -/
def FaultEntry.toBytes (e : FaultEntry) : Bytes :=
  toBe 8 e.uptimeUs ++ toBe 4 e.boot ++ toBe 4 e.seq ++ toBe 1 e.kind ++ toBe 1 e.reason ++ toBe 1 e.detail ++
    toBe 1 e.flags ++ toBe 2 e.ctx.toNat ++ toBe 2 e.station ++ toBe 4 e.bundle ++ toBe 4 e.job.toNat ++ toBe 8 e.step ++
    toBe 4 e.unit ++ toBe 4 0 ++ toBe 8 e.info.toNat ++ toBe 8 0

/-- An entry stored in the ring with its time, boot count and SEQ. -/
def State.storeFault (s : State) (e : FaultEntry) : FaultEntry × State :=
  let e := { e with uptimeUs := s.uptimeUs, boot := s.nv.bootCount, seq := s.nv.faultSeq }
  (e, { s with nv := { s.nv with faults := (e :: s.nv.faults).take 4096, faultSeq := s.nv.faultSeq + 1 } })

/-- Write an entry: at most 256 in an aligned second, and a FAULT event for each one written (R477, R479). -/
def State.logFault (s : State) (e : FaultEntry) : State :=
  let n := if s.faultSec == s.second then s.faultRate else 0
  if 256 ≤ n then
    { s with faultSec := s.second, faultRate := n, faultSuppressed := satAdd 32 s.faultSuppressed 1 }
  else
    let (e, s) := { s with faultSec := s.second, faultRate := n + 1 }.storeFault e
    s.postEvent 0x8030 e.ctx e.toBytes

/-- Write an entry of self-test or of a save, which is not limited and gives no event (R477, R479). -/
def State.logFaultQuiet (s : State) (e : FaultEntry) : State := (s.storeFault e).2

/-! ### Register events -/

/-- Set a bit of GV_EVENT. -/
def State.gvEvent (s : State) (i : Nat) : State := { s with gov := { s.gov with
    event := setBit s.gov.event i, fresh := s.gov.fresh.add s.now (2 ^ i) } }
/-- Set a bit of SE_EVENT. -/
def State.seEvent (s : State) (i : Nat) : State := { s with sec := { s.sec with
    event := setBit s.sec.event i, fresh := s.sec.fresh.add s.now (2 ^ i) } }
/-- Set a bit of SC_EVENT. -/
def State.scEvent (s : State) (i : Nat) : State := { s with sched := { s.sched with
    event := setBit s.sched.event i, fresh := s.sched.fresh.add s.now (2 ^ i) } }
/-- Set a bit of CS_EVENT. -/
def State.csEvent (s : State) (i : Nat) : State := { s with cst := { s.cst with
    event := setBit s.cst.event i, fresh := s.cst.fresh.add s.now (2 ^ i) } }
/-- Set a bit of FB_EVENT. -/
def State.fbEvent (s : State) (i : Nat) : State := { s with fab := { s.fab with
    event := setBit s.fab.event i, fresh := s.fab.fresh.add s.now (2 ^ i) } }
/-- Set a bit of HP_EVENT. -/
def State.hpEvent (s : State) (i : Nat) : State := { s with host := { s.host with
    event := setBit s.host.event i, fresh := s.host.fresh.add s.now (2 ^ i) } }
/-- Set a bit of KW_EVENT. -/
def State.kwEvent (s : State) (i : Nat) : State := { s with kvw := { s.kvw with
    event := setBit s.kvw.event i, fresh := s.kvw.fresh.add s.now (2 ^ i) } }
/-- Set a bit of PX_EVENT. -/
def State.pxEvent (s : State) (i : Nat) : State := { s with pfx := { s.pfx with
    event := setBit s.pfx.event i, fresh := s.pfx.fresh.add s.now (2 ^ i) } }
/-- Set a bit of MO_EVENT. -/
def State.moEvent (s : State) (i : Nat) : State := { s with moe := { s.moe with
    event := setBit s.moe.event i, fresh := s.moe.fresh.add s.now (2 ^ i) } }
/-- Set a bit of TL_EVENT. -/
def State.tlEvent (s : State) (i : Nat) : State := { s with tally := { s.tally with
    event := setBit s.tally.event i, fresh := s.tally.fresh.add s.now (2 ^ i) } }
/-- Set a bit of a stack's HB_EVENT. -/
def State.hbEvent (s : State) (n i : Nat) : State := s.modStk n fun k => { k with
  event := setBit k.event i, fresh := k.fresh.add s.now (2 ^ i) }

/-- The POWER event (R402); a field that a kind does not name is 0. -/
def State.powerEvent (s : State) (kind : Nat) (cause : Nat := 0) (part : Nat := 0) (value : Nat := 0)
    (count : Nat := 0) (window : Nat := 0) : State :=
  s.postEvent 0x8010 0xFFFF
    (toBe 1 kind ++ toBe 1 cause ++ toBe 1 part ++ toBe 1 0 ++ toBe 4 value ++ toBe 4 count ++ toBe 4 window)

/-- A last-gasp or removal save is under way (R399, R471). -/
def State.saving (s : State) : Bool := decide (s.now < s.bring.saveEnd)

/-- ALERT_N is asserted (R404, R485, R486): a save leaves it as it was, and an unpowered package drives nothing. -/
def State.alert (s : State) : Bool :=
  if s.saving then s.bring.alertHeld else s.bring.powered && (s.gov.event.toNat % 256 &&& s.gov.alertMask.toNat != 0)

/-- THERMTRIP_N is asserted (R395, R396, R485, R486). -/
def State.tripped (s : State) : Bool := s.gov.thermtrip && (s.bring.powered || s.saving)

/-- PGOOD is driven high (R486): from the end of step 1 of R434, but not during a save. -/
def State.good (s : State) : Bool := s.bring.pgood && !s.saving

/-- The answer of a step that comes about. -/
abbrev Res := Host.Outcome State Fault Refusal

end Sys2Proof.Machine
end

