-- ==== Sys2Proof/Machine/Plouth.lean ====
section
/-!
DEFINITION. How a Plouth command packet is received (11_host_port.md R327-R343): its form, source, tag or signature,
sequence window, outstanding limit, reserved fields and opcode, before its own rules apply.
-/

namespace Sys2Proof.Machine

/-! ### Frames and addresses (R318, R319) -/

/-- The port admits a frame: a good FCS, at most 9,216 bytes, and the VLAN tag that the configuration asks for. -/
def State.admits (s : State) (f : Frame) : Bool :=
  f.fcsOk && f.bytes ≤ 9216 && f.vlan == (if s.nv.net.vlanEn then some s.nv.net.vlanId else none)

/-- A frame or datagram is discarded and counted (R318, R327). -/
def State.dropFrame (s : State) : State := { s with host := { s.host with dropped := satAdd 32 s.host.dropped 1 } }

/-- A frame that the port does not admit is discarded, and a bad FCS is counted (R318, R349). -/
def State.missed (s : State) (fcsOk : Bool) : State :=
  (if fcsOk then s else { s with host := { s.host with fcsErrors := satAdd 32 s.host.fcsErrors 1 } }).dropFrame

/-- The package's MAC address (R319, R349). -/
def macAddress : BitVec 48 := BitVec.ofNat 48 (fld 2 40 8 + Config.serial.toNat % 2 ^ 40)

/-- The link-local address: the MAC address as an EUI-64 interface identifier (R319). -/
def linkLocal : BitVec 128 :=
  let m := macAddress.toNat
  BitVec.ofNat 128 (0xFE80 * 2 ^ 112 + (m / 2 ^ 24 ^^^ 0x020000) * 2 ^ 40 + 0xFFFE * 2 ^ 24 + m % 2 ^ 24)

/-- An IPv6 address that the port answers for (R319). -/
def State.own6 (s : State) (a : BitVec 128) : Bool :=
  a == linkLocal || (s.nv.net.v6en && !s.host.dadFailed && a == s.nv.net.addr6)

/-- An IPv4 address that the port answers for. -/
def State.own4 (s : State) (a : BitVec 32) : Bool := s.nv.net.v4en && a == s.nv.net.addr4

/-- An address of the port, as the IPv4-mapped address where it is IPv4; `none` is the link-local one. -/
def State.ownAddr (s : State) : Option (BitVec 128) → Bool
  | none => true
  | some a => s.own6 a || (v4Mapped a && s.own4 (a.setWidth 32))

/-- The frame that brought a Plouth packet is admitted, and its datagram is for PLOUTH_PORT at an address of the port (R318,
R327). -/
def State.reaches (s : State) (p : Pkt) : Bool :=
  s.admits ⟨0, p.fcsOk, p.vlan⟩ && s.ownAddr p.dstAddr && p.dstPort == s.nv.net.port

/-! ### Opcodes and forms (R329, R341, R344) -/

/-- The opcodes of R344. -/
def opcodes : List Nat :=
  [0x01, 0x02, 0x03, 0x04, 0x05, 0x06, 0x10, 0x11, 0x12, 0x13, 0x14, 0x15, 0x20, 0x21, 0x30, 0x31, 0x40, 0x41, 0x42, 0x43,
   0x44, 0x45, 0x46, 0x47, 0x50, 0x51, 0x60, 0x61, 0x70, 0x71, 0x80, 0x81, 0x90, 0xA0, 0xB0, 0xC0, 0xD0]

/-- The six guaranteed opcodes (R341). -/
def guaranteed (op : Nat) : Bool := 1 ≤ op && op ≤ 6

/-- The opcodes that need the baton (R339). -/
def batonOp (op : Nat) : Bool := [0x50, 0x51, 0x60, 0x70, 0x80, 0x90, 0xB0].contains op

/-- Trailer bytes of the packet's form (R329). -/
def trailerLen (p : Pkt) : Nat := if pktOpen p then 0 else if pktSigned p then 64 else 32

/-- The payload is 32 + LENGTH + trailer bytes long (R327, R333). -/
def lengthOk (p : Pkt) : Bool := p.length.toNat + trailerLen p == p.params.length + p.trailer.length

/-- The packet with its bytes after the header split at LENGTH. -/
def splitAtLength (p : Pkt) : Pkt :=
  let raw := p.params ++ p.trailer
  { p with params := raw.take p.length.toNat, trailer := raw.drop p.length.toNat }

/-- A form that R329 admits for the opcode. -/
def formOk (p : Pkt) (op : Nat) : Bool :=
  if pktOpen p then op == 1
  else if pktSigned p then guaranteed op || op == 0x10
  else opcodes.contains op && op != 0x10

/-- The header offset of a nonzero reserved field, if any (R328, R329). -/
def reservedHeader (p : Pkt) : Option Nat :=
  if pktOpen p && p.slot != 0 then some 5
  else if p.flags.toNat / 16 != 0 then some 6
  else if (pktOpen p || pktSigned p) && p.session != 0 then some 20
  else if p.rsv != 0 then some 24
  else none

/-! ### Challenges (R342) -/

/-- A valid challenge with this value. -/
def State.challengeOk (s : State) (v : Nat) : Bool :=
  s.cmd.challenges.any fun c => c.value.toNat == v && !c.spent && s.now ≤ c.at_ + ms 10000

/-- A presented challenge is spent. -/
def State.spend (s : State) (v : Nat) : State :=
  { s with cmd := { s.cmd with
    challenges := s.cmd.challenges.map fun c => if c.value.toNat == v then { c with spent := true } else c } }

/-- A new challenge; the 8 most recent are kept. -/
def State.newChallenge (s : State) : BitVec 64 × State :=
  let (d, s) := s.draw
  let v := Config.freshWord d
  (v, { s with cmd := { s.cmd with challenges := (⟨v, s.now, false⟩ :: s.cmd.challenges).take 8 } })

/-! ### Slots, sessions, the window (R330, R332, R335) -/

/-- The packet's source is the slot's (R335). -/
def State.fromSlot (s : State) (k : Slot) (p : Pkt) : Bool :=
  let b := s.binding k
  b.enrolled && b.addr == p.srcAddr

/-- Remember the source of an authenticated command (R336). -/
def State.heard (s : State) (k : Slot) (p : Pkt) : State :=
  s.modSession k fun ss => { ss with lastAddr := p.srcAddr, lastPort := p.srcPort }

/-- Accept a sequence: it stands in the cache without a reply, and H rises (R330). -/
def Session.accept (ss : Session) (p : Pkt) : Session :=
  let h := max ss.high p.sequence.toNat
  { ss with high := h, cache := { pkt := p, reply := none } :: ss.cache.filter fun e => h ≤ e.pkt.sequence.toNat + 63 || e.reply.isNone }

/-- Commands of a slot between arrival and reply: session-form ones, and signed ones that wait for the firmware (R332, R343). -/
def State.outstanding (s : State) (k : Slot) : Nat :=
  (s.session k).outstanding + (s.cmd.waiting.filter fun x => pktSigned x.2 && slotOf x.2.slot == some k).length

/-- A retransmission of a command whose reply is not ready is answered with it (R327, R330). -/
def Session.await (ss : Session) (p : Pkt) : Session :=
  { ss with cache := ss.cache.map fun e =>
    if e.pkt.sequence == p.sequence && e.reply.isNone then { e with again := e.again ++ [(p.srcAddr, p.srcPort)] } else e }

/-- A command waits for the firmware (R343). -/
def State.waitFw (s : State) (p : Pkt) : State := { s with cmd := { s.cmd with waiting := s.cmd.waiting ++ [(s.now, p)] } }

/-- A FW_UPDATE reads or writes its image, or commands wait behind it: commands that need the baton run one at a time in order of arrival
(R332, R413). -/
def State.batonBusy (s : State) : Bool := s.sec.fwRead.isSome || s.sec.fwWrite.isSome || !s.cmd.serial.isEmpty

/-- A command that needs the baton waits for the one before it (R332). -/
def State.waitBaton (s : State) (p : Pkt) (k : Slot) : State := { s with cmd := { s.cmd with serial := s.cmd.serial ++ [(k, p)] } }

/-- The firmware has begun a command or given a heartbeat in the last 100 ms (R343). -/
def State.fwResponsive (s : State) : Bool := s.cmd.beatAt.any fun t => s.now < t + ms 100

/-- The slot holds a live baton lease (R338). -/
def State.hasLease (s : State) (k : Slot) : Bool := s.cmd.baton == some k && s.now < s.cmd.batonEnd

/-! ### Parameters (R333) -/

/-- Answer 0x0104 unless the parameters have this length. -/
def State.withLength (s : State) (p : Pkt) (n : Nat) (f : State → State) : State :=
  if p.params.length == n then f s else s.reply p 0x0104

/-- Answer 0x0102 when a reserved parameter field (offset, bytes) is nonzero; DETAIL is its offset. -/
def State.withZeros (s : State) (p : Pkt) (l : List (Nat × Nat)) (f : State → State) : State :=
  match l.find? fun (o, n) => !zeroAt p.params o n with
  | some (o, _) => s.reply p 0x0102 (BitVec.ofNat 32 o)
  | none => f s

/-- The parameters' length, then their reserved fields. -/
def State.withParams (s : State) (p : Pkt) (n : Nat) (l : List (Nat × Nat)) (f : State → State) : State :=
  s.withLength p n fun s => s.withZeros p l f

/-! ### A firmware image being written (R413) -/

/-- The image is in the bank that is not running and was read back: the bank is selected for the next boot, FW_UPDATED, and the
command replies (R413). -/
def State.endFw (s : State) : State :=
  match s.sec.fwWrite with
  | none => s
  | some w =>
    let b := !s.sec.bootBank
    let s := { s with
      sec := { s.sec with fwWrite := none }
      nv := { s.nv with
        nextBank := b
        bankA := if b then s.nv.bankA else ⟨w.image, 1⟩
        bankB := if b then ⟨w.image, 1⟩ else s.nv.bankB } }.seEvent 7
    match w.owed with
    | some o => s.replyOwed o 0 0 (toBe 8 (leAt w.image 16 8) ++ toBe 1 (leAt w.image 26 1) ++ toBe 1 (b2n b) ++ toBe 6 0 ++
        sha512 w.image)
    | none => s

/-! ### Receiving -/

/-- The last checks, alike for every form: reserved header fields, then the opcode and its form (R329, R333). -/
def State.admitted (s : State) (p : Pkt) (f : State → State) : State :=
  match reservedHeader p with
  | some o => s.reply p 0x0102 (BitVec.ofNat 32 (0x80000000 + o))
  | none => if formOk p p.opcode.toNat then f s else s.reply p 0x0103

/-- A session-form packet: source, session, tag, window, outstanding limit; a command for a firmware that does not answer waits; a
command that needs the baton waits for a FW_UPDATE before it (R329-R335, R343). -/
def State.receiveSession (s : State) (p : Pkt) (f : State → Pkt → Slot → State) : State :=
  match slotOf p.slot with
  | none => s.reply p 0x0202
  | some k =>
    let ss := s.session k
    if !ss.open_ || !s.fromSlot k p || p.session != ss.number then s.reply p 0x0202
    else if plouthTag ss.cmdKey (pktBytes p) != p.trailer then s.reply p 0x0201
    else
      let s := s.heard k p
      if p.sequence.toNat + 63 < ss.high then s.reply p 0x0205
      else
        match ss.cache.find? fun e => e.pkt.sequence == p.sequence with
        | some ⟨q, some (st, d, b), _⟩ => s.sendReply { q with srcAddr := p.srcAddr, srcPort := p.srcPort } st d b
        | some ⟨_, none, _⟩ => s.modSession k (·.await p)
        | none =>
          if 16 ≤ s.outstanding k then s.reply p 0x0401
          else
            let s := s.modSession k (·.accept p)
            s.admitted p fun s =>
              if !guaranteed p.opcode.toNat && !s.cmd.responsive then s.waitFw p
              else if !batonOp p.opcode.toNat then f s p k
              else if s.batonBusy then s.waitBaton p k
              else if s.hasLease k then f s p k
              else s.reply p 0x0203

/-- A signed-form packet other than SESSION_OPEN: challenge, slot, signature, source (R329, R342). -/
def State.receiveSigned (s : State) (p : Pkt) (f : State → Pkt → Slot → State) : State :=
  let n := p.params.length
  if n < 8 then s.reply p 0x0104
  else
    let ch := beAt p.params (n - 8) 8
    if !s.challengeOk ch then s.reply p 0x0206
    else
      let s := s.spend ch
      match slotOf p.slot with
      | none => s.reply p 0x0202
      | some k =>
        let b := s.binding k
        if !b.enrolled || !edVerify (toBe 32 b.key.toNat) (pktBytes p) p.trailer then s.reply p 0x0204
        else if !s.fromSlot k p then s.reply p 0x0202
        else if 16 ≤ s.outstanding k then s.reply p 0x0401
        else
          let s := s.heard k p
          s.admitted p fun s => f s { p with params := p.params.take (n - 8) } k

/-- A mode in which the hardware path answers only some packets refuses this one with 0x0301 (R341). -/
def State.modeRefuses (s : State) (p : Pkt) : Bool :=
  if s.mode == 4 then !(pktOpen p && p.opcode == 1)
  else s.mode == 0 && !s.cmd.responsive && guaranteed p.opcode.toNat && pktSession p

/-- A packet's frame bytes are counted. -/
def State.hearPkt (s : State) (p : Pkt) : State :=
  s.heardBytes (s.frameBytes (v4Mapped p.srcAddr) (32 + p.params.length + p.trailer.length))

/-- What a packet of the command's own opcode meets (R327-R343). -/
def State.receiveOwn (s : State) (p : Pkt) (f : State → Pkt → Slot → State) : State :=
  if s.modeRefuses p then s.reply p 0x0301
  else if pktOpen p && pktSigned p then s.reply p 0x0103
  else if p.version != 1 || !lengthOk p then s.reply p 0x0101
  else
    let p := splitAtLength p
    if pktOpen p then s.admitted p fun s => f s p .a
    else if pktSigned p then s.receiveSigned p f
    else s.receiveSession p f

/-- Receive a packet for the command with opcode `op`. A packet that is a reply or an event, or one of another command, is not
this command's (R327); a packet with a reserved opcode is refused here whichever command carries it (R344). -/
def State.receive (s : State) (op : Nat) (p : Pkt) (f : State → Pkt → Slot → State) : State :=
  if !s.alive || p.flags.getLsbD 0 || p.flags.getLsbD 1 then s
  else if p.opcode.toNat != op && opcodes.contains p.opcode.toNat then s
  else if !s.reaches p then (s.hearPkt p).missed p.fcsOk
  else (s.hearPkt p).receiveOwn p f

/-- The context that CONTEXT names, or 0x0302 (R333, R352). -/
def State.withCtx (s : State) (p : Pkt) (f : State → Nat → State) : State :=
  match s.ctxOfHandle p.context with
  | none => s.reply p 0x0302
  | some c => f s c

/-- A command of a context whose end another command awaits runs after that one, and finds the context ended (R332). -/
def State.serial (s : State) (p : Pkt) (k : Slot) (c : Nat) (f : State → State) : State :=
  if (s.ctx c).owed.isEmpty then f s
  else s.modCtx c fun x => { x with owed := x.owed ++ [⟨k, p⟩] }

end Sys2Proof.Machine
end

