-- ==== Sys2Proof/Machine/BundleCode.lean ====
section
/-!
DEFINITION. Bundles from their 256-bit words (04_station_instructions.md R92-R94, R101-R104, R112, R113;
05_weave_and_vector.md R135, R147, R148): a reserved opcode or a nonzero unused field is refused.
-/

namespace Sys2Proof.Machine

/-- A field of a slot word. -/
abbrev fieldAt (w : Nat) (v lo : Nat) : BitVec w := BitVec.ofNat w (v / 2 ^ lo)

/-- `x` when every listed (low bit, width) field of the slot word is zero. -/
def unused {α : Type} (v : Nat) (l : List (Nat × Nat)) (x : α) : Option α :=
  if l.all fun (lo, w) => bitsOf v lo w == 0 then some x else none

/-! ### The S slot (R101, R102) -/

/-- SR operations by opcode less 1. -/
def srOps : List SrOp :=
  [.add, .sub, .and, .or, .xor, .shl, .shr, .sra, .mul, .mulhu, .min, .max, .minu, .maxu, .slt, .sltu]
/-- SI operations that write D, by opcode less 0x20. -/
def siOps : List SiOp := [.addi, .andi, .ori, .xori, .shli, .shri, .srai, .li, .lim, .lit]
/-- Saddlebag accesses, by opcode less 0x2A. -/
def smOps : List SmOp := [.ld, .ldw, .st, .stw]
/-- Conditional branches, by opcode less 0x30. -/
def sbOps : List SbOp := [.beq, .bne, .blt, .bge, .bltu, .bgeu]

/-- The parts of SI's fields that an operation does not use (R93, R102). -/
def siUnused : SiOp → List (Nat × Nat)
  | .shli | .shri | .srai => [(6, 24)]
  | .li => [(30, 5)]
  | .lit => [(4, 26)]
  | _ => []

/-- The S slot of a 48-bit word. -/
def sSlot (v : Nat) : Option SOp :=
  let op := bitsOf v 40 8
  let d : Reg := fieldAt 5 v 35
  let a : Reg := fieldAt 5 v 30
  let b : Reg := fieldAt 5 v 25
  let t : Tok := fieldAt 6 v 29
  let imm : BitVec 30 := fieldAt 30 v 0
  if op == 0 then unused v [(0, 40)] .nop
  else if op ≤ 0x10 then (srOps[op - 1]?).bind fun f => unused v [(0, 25)] (.sr f d a b)
  else if op == 0x11 then unused v [(0, 25), (35, 5)] (.chk a b)
  else if 0x20 ≤ op && op ≤ 0x29 then (siOps[op - 0x20]?).bind fun f => unused v (siUnused f) (.si f d a imm)
  else if 0x2A ≤ op && op ≤ 0x2D then (smOps[op - 0x2A]?).map fun f => .mem f d a imm
  else if 0x30 ≤ op && op ≤ 0x35 then (sbOps[op - 0x30]?).map fun f => .br f d a imm
  else match op with
    | 0x36 => unused v [(30, 10)] (.jmp imm)
    | 0x37 => unused v [(30, 10)] (.call imm)
    | 0x38 => unused v [(0, 40)] .ret
    | 0x40 => unused v [(0, 13), (35, 5)] (.tinc t (fieldAt 16 v 13))
    | 0x41 => unused v [(0, 29)] (.twait d t)
    | 0x42 => unused v [(0, 29)] (.tread d t)
    | 0x48 => unused v [(0, 21)] (.ldshp d t (fieldAt 8 v 21))
    | 0x49 => unused v [(30, 5)] (.rdspec d imm)
    | 0x50 => unused v [(0, 28)] (.step (fieldAt 12 v 28))
    | 0x51 => unused v [(0, 40)] .finish
    | 0x52 => unused v [(0, 25), (35, 5)] (.bar t (fieldAt 4 v 25))
    | _ => none

/-! ### The X slot (R112, R113) -/

/-- The X slot of a 64-bit word. -/
def xSlot (v : Nat) : Option XOp :=
  let xt : XtOp := ⟨fieldAt 5 v 51, fieldAt 5 v 46, fieldAt 5 v 41, fieldAt 6 v 35, fieldAt 15 v 20, fieldAt 20 v 0⟩
  let vr : VReg := fieldAt 6 v 50
  let va : Reg := fieldAt 5 v 45
  let off : BitVec 12 := fieldAt 12 v 33
  let lane : BitVec 6 := fieldAt 6 v 27
  let ha : Reg := fieldAt 5 v 51
  let hoff : BitVec 13 := fieldAt 13 v 38
  match bitsOf v 56 8 with
  | 0x00 => unused v [(0, 56)] .nop
  | 0x01 => some (.xld xt)
  | 0x02 => some (.xst xt)
  | 0x03 => unused v [(0, 33)] (.vld vr va off)
  | 0x04 => unused v [(0, 33)] (.vst vr va off)
  | 0x05 => unused v [(0, 27), (33, 12)] (.xvs vr va lane)
  | 0x06 => unused v [(0, 27), (33, 12)] (.xsv vr va lane)
  | 0x08 => unused v [(0, 27)]
      (.xsend (fieldAt 2 v 54) (fieldAt 5 v 49) (fieldAt 5 v 44) (fieldAt 5 v 39) (fieldAt 6 v 33) (fieldAt 6 v 27))
  | 0x09 => unused v [(0, 38)] (.desc .halo ha hoff)
  | 0x0A => unused v [(0, 29)] (.xnote ha (fieldAt 6 v 45) (fieldAt 16 v 29))
  | 0x10 => unused v [(0, 38)] (.desc .fab ha hoff)
  | 0x11 => unused v [(0, 38)] (.desc .walk ha hoff)
  | 0x12 => unused v [(0, 38)] (.desc .disp ha hoff)
  | _ => none

/-! ### The V slot (R147, R148) -/

/-- VR operations by opcode. -/
def vrOp : Nat → Option VrOp
  | 0x01 => some .vadd | 0x02 => some .vsub | 0x03 => some .vmul | 0x04 => some .vfma | 0x05 => some .vmax
  | 0x06 => some .vmin | 0x07 => some .vabs | 0x08 => some .vneg | 0x09 => some .vsel | 0x0A => some .vbcast
  | 0x0B => some .viota | 0x0C => some .vcvt | 0x10 => some .vexp | 0x11 => some .vlog | 0x12 => some .vrsqrt
  | 0x13 => some .vtanh | 0x14 => some .vrcp | 0x18 => some .vrsum | 0x19 => some .vrmax | 0x1A => some .vrmaxi
  | _ => none

/-- Vector sources of a VR operation (R148). -/
def vrSources : VrOp → Nat
  | .viota => 0
  | .vfma | .vsel => 3
  | .vadd | .vsub | .vmul | .vmax | .vmin => 2
  | _ => 1

/-- Fields of VR that an operation does not use (R93). -/
def vrUnused (f : VrOp) : List (Nat × Nat) :=
  (if vrSources f < 1 then [(44, 6)] else []) ++ (if vrSources f < 2 then [(38, 6)] else []) ++
    (if vrSources f < 3 then [(32, 6)] else []) ++ (if f = .vcvt then [] else [(24, 4), (14, 2)]) ++
    (if f = .vbcast then [] else [(16, 8)]) ++ [(0, 14)]

/-- The V slot of a 64-bit word. -/
def vSlot (v : Nat) : Option VOp :=
  let r (lo : Nat) : VReg := fieldAt 6 v lo
  let s (lo : Nat) : Reg := fieldAt 5 v lo
  match bitsOf v 56 8 with
  | 0x00 => unused v [(0, 56)] .nop
  | 0x20 => unused v [(0, 37)] (.vrdacc (r 50) (fieldAt 2 v 48) (fieldAt 6 v 42) (s 37))
  | 0x21 => unused v [(0, 37)] (.vwracc (r 50) (fieldAt 2 v 48) (fieldAt 6 v 42) (s 37))
  | 0x28 => unused v [(0, 20)] (.vq ⟨r 50, s 45, s 40, s 35, r 29, fieldAt 4 v 25, bitOf v 24, fieldAt 2 v 22, bitOf v 21, bitOf v 20⟩)
  | 0x29 => unused v [(0, 40)] (.vdq (r 50) (s 45) (fieldAt 4 v 41) (bitOf v 40))
  | op => (vrOp op).bind fun f => unused v (vrUnused f)
      (.vr f ⟨r 50, r 44, r 38, r 32, fieldAt 4 v 28, fieldAt 4 v 24, fieldAt 8 v 16, fieldAt 2 v 14⟩)

/-! ### The M slot (R135) -/

/-- The M slot of a 64-bit word. -/
def mSlot (v : Nat) : Option MOp :=
  match bitsOf v 56 8 with
  | 0x00 => unused v [(0, 56)] .nop
  | 0x01 => unused v [(0, 5)] (.wv {
      shape := fieldAt 3 v 53, acc := fieldAt 2 v 51, start := bitOf v 50, tags := bitOf v 49, asrc := bitOf v 48
      wsrc := bitOf v 47, afmt := fieldAt 4 v 43, wfmt := fieldAt 4 v 39, ar := fieldAt 5 v 34, wr := fieldAt 5 v 29
      kch := fieldAt 12 v 17, kr := fieldAt 5 v 12, ten := bitOf v 11, t := fieldAt 6 v 5 })
  | _ => none

/-! ### The bundle (R92, R94) -/

/-- The bundle of a 256-bit word, or nothing when it holds a reserved encoding. -/
def decodeBundle (w : BitVec 256) : Option Bundle :=
  let v := w.toNat
  let wt := bitsOf v 10 6
  let wn := bitsOf v 4 6
  if bitsOf v 0 4 != 0 || (wn == 0 && wt != 0) then none
  else
    match mSlot (bitsOf v 16 64), vSlot (bitsOf v 80 64), sSlot (bitsOf v 144 48), xSlot (bitsOf v 192 64) with
    | some m, some x, some s, some y => some ⟨BitVec.ofNat 6 wt, BitVec.ofNat 6 wn, m, x, s, y⟩
    | _, _, _, _ => none

/-! ### The word of a bundle (R92-R94, R101, R112, R135, R147) -/

/-- A slot word from its fields, each with its low bit. -/
def fields (l : List (Nat × Nat)) : Nat := (l.map fun (v, lo) => v * 2 ^ lo).sum

/-- OP of an SR operation (R102). -/
def srCode (f : SrOp) : Nat := srOps.idxOf f + 1
/-- OP of an SI operation. -/
def siCode (f : SiOp) : Nat := siOps.idxOf f + 0x20
/-- OP of a saddlebag access. -/
def smCode (f : SmOp) : Nat := smOps.idxOf f + 0x2A
/-- OP of a conditional branch. -/
def sbCode (f : SbOp) : Nat := sbOps.idxOf f + 0x30

/-- The 48-bit word of an S slot. -/
def sWord : SOp → Nat
  | .nop => 0
  | .sr f d a b => fields [(srCode f, 40), (d.toNat, 35), (a.toNat, 30), (b.toNat, 25)]
  | .chk a b => fields [(0x11, 40), (a.toNat, 30), (b.toNat, 25)]
  | .si f d a imm => fields [(siCode f, 40), (d.toNat, 35), (a.toNat, 30), (imm.toNat, 0)]
  | .mem f d a imm => fields [(smCode f, 40), (d.toNat, 35), (a.toNat, 30), (imm.toNat, 0)]
  | .br f a b off => fields [(sbCode f, 40), (a.toNat, 35), (b.toNat, 30), (off.toNat, 0)]
  | .jmp off => fields [(0x36, 40), (off.toNat, 0)]
  | .call off => fields [(0x37, 40), (off.toNat, 0)]
  | .ret => fields [(0x38, 40)]
  | .tinc t n => fields [(0x40, 40), (t.toNat, 29), (n.toNat, 13)]
  | .twait a t => fields [(0x41, 40), (a.toNat, 35), (t.toNat, 29)]
  | .tread d t => fields [(0x42, 40), (d.toNat, 35), (t.toNat, 29)]
  | .ldshp d t k => fields [(0x48, 40), (d.toNat, 35), (t.toNat, 29), (k.toNat, 21)]
  | .rdspec d sel => fields [(0x49, 40), (d.toNat, 35), (sel.toNat, 0)]
  | .step n => fields [(0x50, 40), (n.toNat, 28)]
  | .finish => fields [(0x51, 40)]
  | .bar t g => fields [(0x52, 40), (t.toNat, 29), (g.toNat, 25)]

/-- OP of an operation by descriptor (R113). -/
def xhCode : XhOp → Nat
  | .halo => 0x09
  | .fab => 0x10
  | .walk => 0x11
  | .disp => 0x12

/-- The word of format XT. -/
def xtWord (op : Nat) (x : XtOp) : Nat :=
  fields [(op, 56), (x.sa.toNat, 51), (x.ca.toNat, 46), (x.tw.toNat, 41), (x.t.toNat, 35), (x.soff.toNat, 20), (x.coff.toNat, 0)]

/-- The 64-bit word of an X slot. -/
def xWord : XOp → Nat
  | .nop => 0
  | .xld x => xtWord 1 x
  | .xst x => xtWord 2 x
  | .vld v a off => fields [(3, 56), (v.toNat, 50), (a.toNat, 45), (off.toNat, 33)]
  | .vst v a off => fields [(4, 56), (v.toNat, 50), (a.toNat, 45), (off.toNat, 33)]
  | .xvs v a lane => fields [(5, 56), (v.toNat, 50), (a.toNat, 45), (lane.toNat, 27)]
  | .xsv v a lane => fields [(6, 56), (v.toNat, 50), (a.toNat, 45), (lane.toNat, 27)]
  | .xsend l rs rd rl tl tr =>
    fields [(8, 56), (l.toNat, 54), (rs.toNat, 49), (rd.toNat, 44), (rl.toNat, 39), (tl.toNat, 33), (tr.toNat, 27)]
  | .desc f a off => fields [(xhCode f, 56), (a.toNat, 51), (off.toNat, 38)]
  | .xnote a t n => fields [(0x0A, 56), (a.toNat, 51), (t.toNat, 45), (n.toNat, 29)]

/-- OP of a VR operation (R148). -/
def vrCode : VrOp → Nat
  | .vadd => 0x01 | .vsub => 0x02 | .vmul => 0x03 | .vfma => 0x04 | .vmax => 0x05 | .vmin => 0x06 | .vabs => 0x07
  | .vneg => 0x08 | .vsel => 0x09 | .vbcast => 0x0A | .viota => 0x0B | .vcvt => 0x0C | .vexp => 0x10 | .vlog => 0x11
  | .vrsqrt => 0x12 | .vtanh => 0x13 | .vrcp => 0x14 | .vrsum => 0x18 | .vrmax => 0x19 | .vrmaxi => 0x1A

/-- The 64-bit word of a V slot. -/
def vWord : VOp → Nat
  | .nop => 0
  | .vr f x =>
    fields [(vrCode f, 56), (x.d.toNat, 50), (x.a.toNat, 44), (x.b.toNat, 38), (x.c.toNat, 32), (x.ty.toNat, 28),
      (x.sty.toNat, 24), (x.lane.toNat, 16), (x.part.toNat, 14)]
  | .vrdacc v acc seg sr => fields [(0x20, 56), (v.toNat, 50), (acc.toNat, 48), (seg.toNat, 42), (sr.toNat, 37)]
  | .vwracc v acc seg sr => fields [(0x21, 56), (v.toNat, 50), (acc.toNat, 48), (seg.toNat, 42), (sr.toNat, 37)]
  | .vq q =>
    fields [(0x28, 56), (q.a.toNat, 50), (q.dr.toNat, 45), (q.tr.toNat, 40), (q.hr.toNat, 35), (q.mv.toNat, 29),
      (q.fmt.toNat, 25), (b2n q.half, 24), (q.mode.toNat, 22), (b2n q.shadow, 21), (b2n q.xscale, 20)]
  | .vdq d ar fmt half => fields [(0x29, 56), (d.toNat, 50), (ar.toNat, 45), (fmt.toNat, 41), (b2n half, 40)]

/-- The 64-bit word of an M slot. -/
def mWord : MOp → Nat
  | .nop => 0
  | .wv o =>
    fields [(1, 56), (o.shape.toNat, 53), (o.acc.toNat, 51), (b2n o.start, 50), (b2n o.tags, 49), (b2n o.asrc, 48),
      (b2n o.wsrc, 47), (o.afmt.toNat, 43), (o.wfmt.toNat, 39), (o.ar.toNat, 34), (o.wr.toNat, 29), (o.kch.toNat, 17),
      (o.kr.toNat, 12), (b2n o.ten, 11), (o.t.toNat, 5)]

/-- The 256-bit word of a bundle. -/
def encodeBundle (b : Bundle) : BitVec 256 :=
  BitVec.ofNat 256 (fields [(b.waitN.toNat, 4), (b.waitT.toNat, 10), (mWord b.m, 16), (vWord b.v, 80), (sWord b.s, 144),
    (xWord b.x, 192)])

/-- The S slot's unused fields are zero (R93, R102). -/
def SOp.plain : SOp → Bool
  | .si .li _ a _ => a == 0
  | .si .lit _ _ imm => imm.toNat < 16
  | .si f _ _ imm => !(f == .shli || f == .shri || f == .srai) || imm.toNat < 64
  | _ => true

/-- The V slot's unused fields are zero (R93, R148). -/
def VOp.plain : VOp → Bool
  | .vr f x =>
    (1 ≤ vrSources f || x.a == 0) && (2 ≤ vrSources f || x.b == 0) && (3 ≤ vrSources f || x.c == 0) &&
      (f == .vcvt || (x.sty == 0 && x.part == 0)) && (f == .vbcast || x.lane == 0)
  | _ => true

/-- A bundle that has a word: no wait on a counter without a count, and zeros in the fields that its operations do not use. -/
def bundlePlain (b : Bundle) : Bool := (b.waitN != 0 || b.waitT == 0) && SOp.plain b.s && VOp.plain b.v

/-! ### What the loader checks of a bundle (R114, R131 check 7, R156) -/

/-- The V slot uses the saddlebag's vector read port, or its write port (R156). -/
def vPorts : VOp → Bool × Bool
  | .vdq .. => (true, false)
  | .vq _ => (false, true)
  | _ => (false, false)

/-- The X slot uses the vector read port, or the write port (R114). -/
def xPorts : XOp → Bool × Bool
  | .vld .. => (true, false)
  | .vst .. => (false, true)
  | _ => (false, false)

/-- No port conflict (R114). -/
def portsOk (b : Bundle) : Bool :=
  let (r, w) := vPorts b.v
  let (r', w') := xPorts b.x
  !(r && r') && !(w && w')

end Sys2Proof.Machine
end

