-- ==== Sys2Proof/Machine/Fetch.lean ====
section
/-!
DEFINITION. The next bundle of a station and what it waits for (02_stations.md R36, R41, R44; 04_station_instructions.md R94, R95,
R100; 16_tallies.md R448-R451): the line it lies in, its token waits, and the causes of starving.
-/

namespace Sys2Proof.Machine

/-- A scalar register as it reads: s0 reads 0 (R100). -/
def Arch.sreg (a : Arch) (r : Reg) : Word := if r = 0 then 0 else mget 0 a.sregs r.toNat

/-- A pending-write mark is set (R38). -/
def Arch.pending (a : Arch) (m : Mark) : Bool := a.marks.contains m

/-! ### Fetch (R41) -/

/-- The word of bundle `i` when its line is in the instruction store. -/
def Arch.wordAt (a : Arch) (i : Nat) : Option (BitVec 256) :=
  match a.istore.find? fun l => l.line == i / 64 with
  | some l => l.words[i % 64]?
  | none => none

/-- The next bundle, when its line is in the instruction store. -/
def Arch.nextBundle (a : Arch) : Option Bundle := (a.wordAt a.next).bind decodeBundle

/-! ### Waits (R94, R95) -/

/-- The counter and count of a TWAIT: none when its register cannot be read or holds more than a counter can (R99). -/
def Arch.twait (a : Arch) (b : Bundle) : Option (Nat × Nat) :=
  match b.s with
  | .twait r t =>
    let v := (a.sreg r).toNat
    if a.pending (.s r) || 65535 < v || v == 0 then none else some (t.toNat, v)
  | _ => none

/-- The counters that a bundle waits on with their counts, the header's first; one counter named twice needs the sum (R95). -/
def Arch.needs (a : Arch) (b : Bundle) : List (Nat × Nat) :=
  let h := (b.waitT.toNat, b.waitN.toNat)
  match a.twait b with
  | none => if b.waitN == 0 then [] else [h]
  | some w =>
    if b.waitN == 0 then [w]
    else if h.1 == w.1 then [(h.1, h.2 + w.2)]
    else [h, w]

/-- Counter `t` of a station. -/
def Arch.token (a : Arch) (t : Nat) : Nat := (mget 0 a.tokens t).toNat

/-- The first counter of a bundle whose wait is not met, the header's first (R450). -/
def Arch.unmet (a : Arch) (b : Bundle) : Option Nat := ((a.needs b).find? fun (t, n) => a.token t < n).map (·.1)

/-- Every counter of a bundle whose wait is not met. -/
def Arch.unmetAll (a : Arch) (b : Bundle) : List Nat := ((a.needs b).filter fun (t, n) => a.token t < n).map (·.1)

/-- The counts of a bundle's waits subtracted (R95). -/
def Arch.subtract (a : Arch) (b : Bundle) : Arch :=
  { a with tokens := (a.needs b).foldl (fun m (t, n) => mmod 0 m t (· - BitVec.ofNat 16 n)) a.tokens }

/-! ### Causes of waiting (R448-R451) -/

/-- The event code of a wait on a counter with this producer tag (R449-R451). -/
def Producer.code : Producer → Nat
  | .transfer => 0x10
  | .neighbour => 0x11
  | .notification => 0x12
  | .caravan => 0x13
  | .walker => 0x14
  | .dispatch => 0x15
  | .brisor => 0x16
  | .hostSend => 0x17
  | .weave => 0x18
  | .shape => 0x19
  | .barrier => 0x1A
  | .unattributed => 0x1F

/-- Why a station issues nothing, as far as its own state says it, the first that applies (R448, R450): every bundle is past its
FINISH; 8, the next bundle is not resident; it stands at a STEP; a counter whose wait is not met, by its tag. -/
def Arch.heldBy (a : Arch) : Option Nat :=
  match a.run, a.nextBundle with
  | .finished, _ => some 0x20
  | _, none => some 8
  | .atStep _, _ => some 0x1B
  | _, some b => (a.unmet b).map fun t => (mget Producer.unattributed a.producers t).code

/-- The station waits on counter `t` (R450). -/
def Arch.waitsOn (a : Arch) (t : Nat) : Bool :=
  a.run == .issuing && (match a.nextBundle with | some b => a.unmet b == some t | none => false)

/-- The station has waited for these causes in the present window. -/
def Stn.noteWaits (t : Stn) (codes : List Nat) : Stn :=
  { t with island := { t.island with
    waited := codes.foldl (fun l c => if l.contains c then l else l ++ [c]) t.island.waited } }

/-- The wait that the station's own state shows ends here. -/
def Stn.noteHeld (t : Stn) : Stn := if t.state == 1 then t.noteWaits t.arch.heldBy.toList else t

end Sys2Proof.Machine
end

