-- ==== Sys2Proof/Machine/Store.lean ====
section
/-!
DEFINITION. Addresses and space (07_central_store.md R170-R198, 04_station_instructions.md R116, 08_kv_pages.md R211-R242):
regions and their kinds, placement and the spread hash, slice and HBM room, images, sealed pages, block tables and the
prefix ledger.
-/

namespace Sys2Proof.Machine

/-! ### Regions (R116, R127) -/

/-- The region holds the `n` bytes at `a`. -/
def Region.holds (r : Region) (a n : Nat) : Bool := r.base ≤ a && a + n ≤ r.base + r.bytes

/-- The region of a context that holds the `n` bytes at `a`. -/
def Ctx.region (k : Ctx) (a n : Nat) : Option Region := k.itin.regions.find? (·.holds a n)

/-- The kinds a station may read (R116). -/
def kindReads (k : BitVec 8) : Bool := 2 ≤ k.toNat && k.toNat ≤ 8

/-- The kinds a station may write, KV under its writable marks (R116). -/
def kindWrites (k : BitVec 8) : Bool := k == 3 || k == 4 || k == 7

/-- Every 64 KiB page that the `n` bytes at `a` touch carries a writable mark (R212). -/
def Ctx.writablePages (k : Ctx) (a n : Nat) : Bool :=
  n == 0 || (List.range ((a + n - 1) / 65536 - a / 65536 + 1)).all fun i => k.walk.writable.contains (a / 65536 + i)

/-- The access touches the control and status range (R23, R174). -/
def inControl (a n : Nat) : Bool := a < 0x00F005000000 && 0x00F000000000 < a + n && 0 < n

/-- The fault of a station access to `n` bytes at `a`: the control range first, then a range that is not wholly inside one
region, then what the region's kind forbids (R99, R116, R174, R212). -/
def Ctx.stationFault (k : Ctx) (write : Bool) (a n : Nat) : Option Nat :=
  if inControl a n then some 0x16
  else
    match k.region a n with
    | none => some 0x14
    | some r =>
      if write then (if kindWrites r.kind && (r.kind != 4 || k.writablePages a n) then none else some 0x15)
      else if kindReads r.kind then none else some 0x15

/-! ### The spread hash (R177) -/

/-- fold32 of R177. -/
def fold32 (x : Nat) : Nat := (x ^^^ x / 2 ^ 32) % 2 ^ 32

/-- Home and target of a granule (R177). -/
def spread (offset seed shift homes targets : Nat) (live : Nat → Bool) : Nat × Nat :=
  let h := fold32 ((offset / 2 ^ shift) ^^^ seed)
  let home := h % homes
  let h := h / homes
  let t := h % targets
  if live t then (home, t)
  else
    let l := (List.range targets).filter live
    (home, l.getD (h / targets % l.length) 0)

/-- The seed of store region `i` (R178). -/
def Itin.storeSeed (it : Itin) (i : Nat) : Nat :=
  match it.caravan with
  | some c => (c.storeSeeds.getD i 0).toNat
  | none => 0

/-- The context-relative station whose slice holds byte `a` of region `r`, the `i`-th of the layout (R175). -/
def Itin.homeOf (it : Itin) (i : Nat) (r : Region) (a : Nat) : Nat :=
  let n := it.streams.length
  let shift := if r.kind == 4 then 16 else 12
  let o := a - r.base
  let p := r.placement.toNat
  if p == 0 then (spread o (it.storeSeed i) shift 1 n fun _ => true).2
  else if p == 1 then o / (r.bytes / n)
  else p - 0x8000

/-- The context-relative station whose slice holds context address `a`. -/
def Itin.stationOf (it : Itin) (a : Nat) : Option Nat :=
  match it.regions.findIdx? (·.holds a 1) with
  | some i => it.regions[i]?.map fun r => it.homeOf i r a
  | none => none

/-- The bytes that a layout's region places in the slice of context-relative station `j` (R175, R176). -/
def Itin.regionBytesAt (it : Itin) (i : Nat) (r : Region) (j : Nat) : Nat :=
  let n := it.streams.length
  let g := if r.kind == 4 then 65536 else 4096
  let p := r.placement.toNat
  if p == 0 then g * ((List.range (r.bytes / g)).filter fun k => it.homeOf i r (r.base + k * g) == j).length
  else if p == 1 then r.bytes / n
  else if p - 0x8000 == j then r.bytes else 0

/-- The bytes a layout and its token shelf place in the slice of context-relative station `j` (R176, R360). -/
def Itin.sliceBytes (it : Itin) (j : Nat) : Nat :=
  128 + ((List.range it.regions.length).map fun i =>
    match it.regions[i]? with | some r => it.regionBytesAt i r j | none => 0).sum

/-- The bytes of context `c` in package slice `st`. -/
def State.ctxSliceBytes (s : State) (c st : Nat) : Nat :=
  let j := s.relStn c st
  if j < s.stnCount c then (s.ctx c).itin.sliceBytes j else 0

/-- Context bytes a slice offers: 8,128 KiB (R173). -/
def sliceRoom : Nat := 8128 * 1024

/-- The free bytes of a slice beside the contexts that `p` selects. -/
def State.sliceFree (s : State) (p : Nat → Bool) (st : Nat) : Nat :=
  if (s.stn st).failed then 0
  else sliceRoom - (((List.range 128).filter p).map fun c => s.ctxSliceBytes c st).sum

/-- The footprint of a context: its regions and its token shelf (R355, R360). -/
def Itin.footprint (it : Itin) : Nat := (it.regions.map (·.bytes)).sum + 128 * it.streams.length

/-- F of R365, the footprint that a hamper holds: every region that is not a weights window, and the shelf. -/
def Itin.savedBytes (it : Itin) : Nat :=
  ((it.regions.filter fun r => r.kind != 2).map (·.bytes)).sum + 128 * it.streams.length

/-- H of R365. -/
def Itin.hamperBytes (it : Itin) : Nat :=
  4096 + 65536 + 589824 * it.streams.length + it.savedBytes +
    (if it.job == 0 then 0 else 0x2000000 * it.eighths)

/-- G of R365: room of the arrival log. -/
def Itin.logBytes (it : Itin) : Nat := if it.job == 0 then 0 else 0x2000000 * it.eighths

/-! ### HBM room, images (R180, R365, R469) -/

/-- Live pseudo-channels of a stack (R205). -/
def Stk.livePcs (k : Stk) : Nat := ((List.range 64).filter fun i => k.live.getLsbD i).length

/-- The bytes a stack offers: 48 GiB x LIVE_PCS / 64 (R469). -/
def Stk.capacity (k : Stk) : Nat := 48 * 2 ^ 30 * k.livePcs / 64

/-- The reservations of contexts that have ended while seals of theirs are in flight (R214, R229): handle and pages. -/
def State.lingering (s : State) (p : Nat) : List (BitVec 16 × Nat) :=
  ((s.seals.filter fun l => l.part == p && l.ctx.isNone && !s.loadedCtxs.any fun c => (s.ctx c).handle == l.handle).map fun l =>
    (l.handle, l.pool)).dedup

/-- Sealed page numbers that contexts' reservations hold (R246). -/
def State.reservedSpns (s : State) (p : Nat) : Nat :=
  ((s.loadedCtxs.filter fun c => partOfCtx c == p).map fun c =>
    match (s.ctx c).itin.kv with | some k => k.poolPages | none => 0).sum + ((s.lingering p).map (·.2)).sum

/-- The HBM bytes of partition `p` that are taken: images, hamper reservations, page reservations, ledger reserve. -/
def State.hbmUsed (s : State) (p : Nat) : Nat :=
  ((s.images.filter fun g => g.part == p).map (·.size)).sum +
    ((s.loadedCtxs.filter fun c => partOfCtx c == p).map fun c => (s.ctx c).hamperBytes).sum +
    65536 * s.reservedSpns p + 65536 * (s.part p).pages

/-- The HBM bytes that partition `p` offers. -/
def State.hbmCapacity (s : State) (p : Nat) : Nat := ((s.stksOfPart p).map fun n => (s.stk n).capacity).sum

/-- The free HBM bytes of partition `p`. -/
def State.hbmFree (s : State) (p : Nat) : Nat := s.hbmCapacity p - s.hbmUsed p

/-- A partition-relative HBM target of R177 is live. -/
def State.pcLive (s : State) (p t : Nat) : Bool :=
  let n := 4 * s.eighths
  ((s.stk (4 * p * s.eighths + t % n)).live).getLsbD (t / n)

/-- Home, package stack and pseudo-channel of a granule in partition `p`'s HBM (R177). -/
def State.hbmPlace (s : State) (p offset seed homes : Nat) : Nat × Nat × Nat :=
  let n := 4 * s.eighths
  let (home, t) := spread offset seed 12 homes (64 * n) (s.pcLive p)
  (home, 4 * p * s.eighths + t % n, t / n)

/-- The image region that holds an image offset. -/
def regionOfImage (rs : List ImageRegion) (o : Nat) : Option ImageRegion :=
  rs.find? fun r => r.offset ≤ o && o < r.offset + r.bytes

/-- Home, stack and pseudo-channel of image offset `o` (R186). -/
def State.imagePlace (s : State) (p : Nat) (rs : List ImageRegion) (o : Nat) : Nat × Nat × Nat :=
  match regionOfImage rs o with
  | some r => s.hbmPlace p o r.seed.toNat r.homes
  | none => (0, 4 * p * s.eighths, 0)

/-- This package's place among the homes of an image of context `k`: SELF of PEERS; a region of homes 1 is held here. -/
def Ctx.holdsHome (k : Ctx) (homes home : Nat) : Bool :=
  homes ≤ 1 || (match k.itin.peers with | some p => p.self == home | none => home == 0)

/-- The image of partition `p` with this name. -/
def State.image (s : State) (p id : Nat) : Option Image := s.images.find? fun g => g.part == p && g.id == id

/-- The image that a context names. -/
def State.imageOf (s : State) (c : Nat) : Option Image :=
  match (s.ctx c).itin.caravan with
  | some k => s.image (partOfCtx c) k.imageId
  | none => none

/-- Change the image of partition `p` with this name. -/
def State.modImage (s : State) (p id : Nat) (f : Image → Image) : State :=
  { s with images := s.images.map fun g => if g.part == p && g.id == id then f g else g }

/-- The slice in whose piece of its transit buffer a write lies (R173). -/
def Transit.slice : Transit → Nat
  | .split _ _ sl => sl
  | .image _ _ _ _ sl => sl

/-- The contexts that name an image. -/
def State.imageUsers (s : State) (p id : Nat) : List Nat :=
  s.loadedCtxs.filter fun c => partOfCtx c == p &&
    (match (s.ctx c).itin.caravan with | some k => k.imageId == id | none => false)

/-- Every 4 KiB granule that `n` bytes at `o` touch. -/
def granules (o n : Nat) : List Nat :=
  if n == 0 then [] else (List.range ((o + n - 1) / 4096 - o / 4096 + 1)).map fun i => o / 4096 + i

/-- The bytes of image `o .. o + n - 1` are poisoned (R196). -/
def Image.poisoned (g : Image) (o n : Nat) : Bool := (granules o n).any g.poison.contains

/-! ### Energy (R390, R391) -/

/-- Charge a dynamic event of `pj` hundredths of pJ at frequency `f` MHz to a partition and a context. -/
def State.charge (s : State) (p : Nat) (c : Option Nat) (pj f : Nat) : State :=
  let e := pj * (1050 + f) ^ 2
  let s := s.modPart p fun q => { q with gov := { q.gov with energy := q.gov.energy + e, dyn := q.gov.dyn + e } }
  match c with
  | some c => s.modCtx c fun k => { k with energy := k.energy + e }
  | none => s

/-- Charge `n` HBM bytes of a stack to a partition and a context (R390, R391), and count them (R446, R452). -/
def State.hbmBytes (s : State) (n : Nat) (cls bytes : Nat) (c : Option Nat) : State :=
  let s := s.modStk n fun k => k.move cls bytes
  let p := n / (4 * s.eighths)
  let e := bytes * 800 * 3750 ^ 2
  let s := s.modPart p fun q => { q with gov := { q.gov with energy := q.gov.energy + e, hbm := q.gov.hbm + e } }
  match c with
  | some c => s.modCtx c fun k => { k with energy := k.energy + e }
  | none => s

/-- Count `n` bytes of image `o` read for a context, granule by granule (R446). -/
def State.imageTraffic (s : State) (p : Nat) (rs : List ImageRegion) (cls o n : Nat) (c : Option Nat) : State :=
  s.foldNat (granules o n) fun s g =>
    let lo := max o (g * 4096)
    let hi := min (o + n) (g * 4096 + 4096)
    s.hbmBytes (s.imagePlace p rs lo).2.1 cls (hi - lo) c

/-- Count `n` bytes at context address `a` in the slices that hold them, with class `cls`, and charge them (R390, R446). -/
def State.storeTraffic (s : State) (c cls a n : Nat) : State :=
  s.foldNat (granules a n) fun s g =>
    let lo := max a (g * 4096)
    let hi := min (a + n) (g * 4096 + 4096)
    match (s.ctx c).itin.stationOf lo with
    | none => s
    | some j =>
      let st := s.stnOfCtx c j
      (s.modStn st fun t => t.sliceBytes cls (hi - lo)).charge (partOfCtx c) (some c) (12 * (hi - lo)) (s.stn st).island.target

/-- `n` bytes leave station `st` on a link, ring, mesh or bridge (R390, R446). -/
def State.chan (s : State) (c st n : Nat) : State :=
  if 1024 ≤ st then s
  else
    (s.modStn st fun t => { t with tally := { t.tally with chanBytes := t.tally.chanBytes + BitVec.ofNat 48 n } }).charge
      (partOfCtx c) (some c) (2 * n) (s.stn st).island.target

/-- Channel bytes of a transfer between station `st` and the slices of `n` bytes at `a`: the sender's, where the slice is not
its own. -/
def State.ringBytes (s : State) (c st a n : Nat) (out : Bool) : State :=
  s.foldNat (granules a n) fun s g =>
    let lo := max a (g * 4096)
    let m := min (a + n) (g * 4096 + 4096) - lo
    match (s.ctx c).itin.stationOf lo with
    | none => s
    | some j =>
      let home := s.stnOfCtx c j
      if home == st then s else s.chan c (if out then st else home) m

/-- Stations of context `c` have incomplete operations that read memory as they go (R46). -/
def State.reading (s : State) (c : Nat) : Bool :=
  (s.stnsOfCtx c).any fun st =>
    let a := (s.stn st).arch
    !a.inflight.isEmpty || !a.weaveRun.isEmpty || a.weaveWait.isSome

/-- Bytes of a context's store change; while an operation may still read them the write is noted (R46), and they are no longer
a substituted tensor's (R128). -/
def Ctx.putBytes (k : Ctx) (reading : Bool) (a : Nat) (bs : Bytes) : Ctx :=
  { k with store := wrBytes k.store a bs, wide := cutRanges k.wide a bs.length
           writes := if reading then k.writes ++ [(a, bs)] else [], atomics := if reading then k.atomics else [] }

/-- An atomic has written the word at `a` (R300): its place among the noted writes. -/
def Ctx.noteAtomic (k : Ctx) : Ctx :=
  { k with atomics := if k.writes.isEmpty then [] else (k.atomics.filter (· < k.writes.length - 1)) ++ [k.writes.length - 1] }

/-- Every noted write from the `n`-th on that touches the aligned word of byte `a` is an atomic's, so that a read gives the word wholly
old or wholly new (R300). -/
def Ctx.wholeWord (k : Ctx) (n a : Nat) : Bool :=
  k.writes.zipIdx.all fun ((lo, bs), i) =>
    i < n || a / 8 * 8 + 8 ≤ lo || lo + bs.length ≤ a / 8 * 8 || (k.atomics.contains i && lo % 8 == 0)

/-- Write bytes of a context's store for an engine of the package, and count them in the compiled class (R168, R446). -/
def State.put (s : State) (c a : Nat) (bs : Bytes) : State :=
  (s.modCtx c fun k => k.putBytes (s.reading c) a bs).storeTraffic c 2 a bs.length

/-! ### Where a hamper lies (R177, R178, R181, R365, R366) -/

/-- Bytes of one station record. -/
def stationRecord : Nat := 589824
/-- Where the record of context-relative station `i` begins. -/
def recordAt (i : Nat) : Nat := 69632 + stationRecord * i
/-- FOOTPRINT_OFFSET. -/
def Itin.footprintAt (it : Itin) : Nat := recordAt it.streams.length
/-- LOG_OFFSET: the arrival log follows the footprint (DESIGN CHOICE, log entry 46: R366 gives the field no value). -/
def Itin.logAt (it : Itin) : Nat := it.footprintAt + it.savedBytes

/-- Bytes `o .. o + n - 1` of a hamper of partition `p` that lie on stack `k`: its granules spread under the partition's seed
(R177, R178, R181). -/
def State.hamperOn (s : State) (p k o n : Nat) : Nat :=
  ((granules o n).map fun g =>
    if (s.hbmPlace p (4096 * g) (s.part p).seed.toNat 1).2.1 == k
    then min (o + n) (4096 * g + 4096) - max o (4096 * g) else 0).sum

/-- Bytes `o .. o + n - 1` of the hamper of context `c` move, in the autonomous class (R193, R446). A granule is spread by its byte
offset within this context's hamper (DESIGN CHOICE, log entry 49: R178 does not say where the hampers lie). -/
def State.hamperTraffic (s : State) (c o n : Nat) : State :=
  let p := partOfCtx c
  s.foldNat (s.stksOfPart p) fun s k => s.hbmBytes k 2 (s.hamperOn p k o n) (some c)

/-! ### Block tables and sequences (R215, R216) -/

/-- Token slots of a page (R210). -/
def KvConf.slots (k : KvConf) : Nat := 65536 / k.tokenBytes
/-- Block-table entries of a sequence (R215). -/
def KvConf.blocks (k : KvConf) : Nat := k.tokensMax / k.slots
/-- Where a sequence's record begins. -/
def KvConf.rec_ (k : KvConf) (q : Nat) : Nat := k.btBase + q * (64 + 8 * k.blocks)
/-- Where a block-table entry lies. -/
def KvConf.entryAddr (k : KvConf) (q b : Nat) : Nat := k.rec_ q + 64 + 8 * b
/-- The context address of a frame (R211). -/
def KvConf.frame (k : KvConf) (g l : Nat) : Nat := k.frameBase + (g * k.layers + l) * 65536

/-- A block-table entry's fields (R216). -/
structure Entry where
  state : Nat := 0
  ledger : Bool := false
  sealedLayers : Nat := 0
  spn : Nat := 0
  link : Nat := 0
deriving DecidableEq, Repr

/-- A block-table entry from its word. -/
def Entry.ofNat (v : Nat) : Entry :=
  ⟨bitsOf v 62 2, bitOf v 61, bitsOf v 48 8, bitsOf v 20 28, bitsOf v 0 20⟩

/-- The word of a block-table entry. -/
def Entry.toNat (e : Entry) : Nat :=
  fld e.state 62 2 + fld (b2n e.ledger) 61 1 + fld e.sealedLayers 48 8 + fld e.spn 20 28 + fld e.link 0 20

/-- A sequence record's header fields (R215). -/
structure SeqHead where
  live : Bool := false
  chain : Word := 0
  keyed : Nat := 0
  blocks : Nat := 0
deriving DecidableEq, Repr

/-- Read a sequence's header. -/
def Ctx.seqHead (k : Ctx) (v : KvConf) (q : Nat) : SeqHead :=
  let b := rdBytes k.store (v.rec_ q) 24
  ⟨leAt b 0 1 == 1, BitVec.ofNat 64 (leAt b 8 8), leAt b 16 4, leAt b 20 4⟩

/-- Write a sequence's header. -/
def Ctx.setSeqHead (k : Ctx) (v : KvConf) (q : Nat) (h : SeqHead) : Ctx :=
  let bs := toLe 8 (b2n h.live) ++ toLe 8 h.chain.toNat ++ toLe 4 h.keyed ++ toLe 4 h.blocks
  { k with store := wrBytes k.store (v.rec_ q) bs }

/-- Read a block-table entry. -/
def Ctx.entry (k : Ctx) (v : KvConf) (q b : Nat) : Entry := .ofNat (leNat (rdBytes k.store (v.entryAddr q b) 8))

/-- Write a block-table entry. -/
def Ctx.setEntry (k : Ctx) (v : KvConf) (q b : Nat) (e : Entry) : Ctx :=
  { k with store := wrBytes k.store (v.entryAddr q b) (toLe 8 e.toNat) }

/-- The blocks of a sequence that are not empty, ascending. -/
def Ctx.liveBlocks (k : Ctx) (v : KvConf) (q : Nat) : List Nat :=
  (List.range v.blocks).filter fun b => (k.entry v q b).state != 0

/-! ### Sealed page numbers (R211, R246) -/

/-- Seals in flight whose bundle has been released, of those that `f` selects: each still holds the page number it writes (R229). -/
def State.looseSeals (s : State) (f : Seal → Bool) : List Seal :=
  s.seals.filter fun l => f l && (match l.ctx with
    | some c => !(s.ctx c).walk.spns.contains l.base
    | none => true)

/-- The runs of sealed page numbers in use in partition `p`: first number and length. -/
def State.spnRuns (s : State) (p : Nat) : List (Nat × Nat) :=
  ((s.loadedCtxs.filter fun c => partOfCtx c == p).flatMap fun c =>
      match (s.ctx c).itin.kv with | some v => (s.ctx c).walk.spns.map fun b => (b, v.layers) | none => []) ++
    ((s.seals.filter fun l => l.part == p).map fun l => (l.base + l.layer, 1)) ++
    (s.pfx.ledger.filterMap fun (_, e) => match e with
      | some e => if e.part == p then some (e.spn, e.layers) else none
      | none => none)

/-- The `n` page numbers from `b` lie in the 28-bit range and none is in use. -/
def spnFree (runs : List (Nat × Nat)) (b n : Nat) : Bool :=
  b + n ≤ 2 ^ 28 && runs.all fun (x, m) => x + m ≤ b || b + n ≤ x

/-- A free run of `n` page numbers: the package's choice (R211), free in the model among the free runs. -/
def State.pickSpn (s : State) (p n : Nat) : Nat × State :=
  let runs := s.spnRuns p
  let (d, s) := s.draw
  let want := Config.spnChoice d n % 2 ^ 28
  if spnFree runs want n then (want, s)
  else (((0 :: runs.map fun (x, m) => x + m).find? fun b => spnFree runs b n).getD 0, s)

/-- Page numbers that the reservation of context `c` has free (R225, R229). -/
def State.freeSpns (s : State) (c : Nat) : Nat :=
  match (s.ctx c).itin.kv with
  | some v => v.poolPages - v.layers * (s.ctx c).walk.spns.length - (s.looseSeals fun l => l.ctx == some c).length
  | none => 0

/-- Forget the sealed pages of a run. -/
def State.dropPages (s : State) (p b n : Nat) : State :=
  { s with pages := s.pages.filter fun g => !(g.part == p && b ≤ g.spn && g.spn < b + n) }

/-! ### The prefix ledger (R234-R242) -/

/-- Ledger entry `i`. -/
def State.ledgerAt (s : State) (i : Nat) : Option LedgerEntry := mget none s.pfx.ledger i

/-- Set ledger entry `i`. -/
def State.setLedger (s : State) (i : Nat) (e : Option LedgerEntry) : State :=
  { s with pfx := { s.pfx with ledger := mset none s.pfx.ledger i e } }

/-- The next use stamp. -/
def State.nextStamp (s : State) : State := { s with pfx := { s.pfx with stamp := s.pfx.stamp + 1 } }

/-- Sealed page numbers of the ledger reserve in use by partition `p`. -/
def State.reserveUsed (s : State) (p : Nat) : Nat :=
  (s.pfx.ledger.map fun (_, e) => match e with
    | some e => if e.part == p then e.layers else 0
    | none => 0).sum

/-- An entry gains a reference, and its stamp is renewed (R237, R239). -/
def State.addRef (s : State) (i : Nat) : State :=
  match s.ledgerAt i with
  | none => s
  | some e => (s.setLedger i (some { e with ref := e.ref + 1, stamp := s.pfx.stamp })).nextStamp

/-- A parent loses a child (R239): REF falls by 1 and the stamp is renewed. -/
def State.unrefOnly (s : State) (i : Nat) : State :=
  match s.ledgerAt i with
  | none => s
  | some e => (s.setLedger i (some { e with ref := e.ref - 1, stamp := s.pfx.stamp })).nextStamp

/-- Take an entry out: its pages go, its reserve returns, its parent loses a reference (R239). -/
def State.removeEntry (s : State) (i : Nat) : State :=
  match s.ledgerAt i with
  | none => s
  | some e =>
    let s := (s.setLedger i none).dropPages e.part e.spn e.layers
    match e.parent with
    | some j => s.unrefOnly j
    | none => s

/-- Remove POISON entries that nothing references, following parents (R241). -/
def State.sweepPoison : Nat → Nat → State → State
  | 0, _, s => s
  | fuel + 1, i, s =>
    match s.ledgerAt i with
    | none => s
    | some e =>
      if e.poison && e.ref == 0 then
        let s := s.removeEntry i
        match e.parent with
        | some j => State.sweepPoison fuel j s
        | none => s
      else s

/-- Remove an entry, and with it the POISON entries above it that nothing else references (R239, R241). -/
def State.removeLedger (s : State) (i : Nat) : State :=
  match s.ledgerAt i with
  | none => s
  | some e =>
    let s := s.removeEntry i
    match e.parent with
    | some j => State.sweepPoison 131072 j s
    | none => s

/-- An entry loses a reference (R229, R239, R241). -/
def State.dropRef (s : State) (i : Nat) : State := State.sweepPoison 131072 i (s.unrefOnly i)

/-- The oldest of some ledger entries, the first on a tie. -/
def oldest (l : List (Nat × LedgerEntry)) : Option Nat :=
  (l.foldl (fun (acc : Option (Nat × Nat)) (i, e) =>
    match acc with
    | none => some (i, e.stamp)
    | some (j, t) => if e.stamp < t then some (i, e.stamp) else some (j, t)) none).map (·.1)

/-- Valid entries of partition `p` whose key satisfies `f`. -/
def State.ledgerOf (s : State) (p : Nat) (f : Nat → Bool) : List (Nat × LedgerEntry) :=
  s.pfx.ledger.filterMap fun (i, e) => match e with
    | some e => if e.part == p && f i then some (i, e) else none
    | none => none

/-- The entry of partition `p` that eviction takes among those whose key satisfies `f` (R239). -/
def State.victim (s : State) (p : Nat) (f : Nat → Bool) : Option Nat :=
  oldest ((s.ledgerOf p f).filter fun (_, e) => e.ref == 0)

/-- Evict an entry (R239). -/
def State.evict (s : State) (p i : Nat) : State :=
  (s.removeLedger i).modPart p fun q => { q with evicts := satAdd 32 q.evicts 1 }

/-- Evict among the entries that `f` selects until at most `limit` page numbers of the reserve are in use. -/
def State.evictTo : Nat → Nat → Nat → (Nat → Bool) → State → State
  | 0, _, _, _, s => s
  | fuel + 1, p, limit, f, s =>
    if s.reserveUsed p ≤ limit then s
    else
      match s.victim p f with
      | none => s
      | some i => State.evictTo fuel p limit f (s.evict p i)

/-- Invalidate every entry of partition `p` (R242). -/
def State.clearLedger (s : State) (p : Nat) : State :=
  let gone := s.ledgerOf p fun _ => true
  let s := gone.foldl (fun s (_, e) => s.dropPages e.part e.spn e.layers) s
  { s with pfx := { s.pfx with ledger := s.pfx.ledger.filter fun (_, e) => match e with
      | some e => e.part != p
      | none => true } }

/-- Mark the entry that holds a page POISON (R241). -/
def State.poisonPage (s : State) (p spn : Nat) : State :=
  match s.ledgerOf p (fun _ => true) |>.find? fun (_, e) => e.spn ≤ spn && spn < e.spn + e.layers with
  | none => s
  | some (i, e) => State.sweepPoison 131072 i ((s.setLedger i (some { e with poison := true })).pxEvent 1)

/-- A granule's prefix key (R234). -/
def granuleKey (key : BitVec 128) (parent : Word) (tokens : List Nat) : Word :=
  siphash key (toLe 8 parent.toNat ++ tokens.flatMap fun t => toLe 4 t)

/-- Token ids `16 g .. 16 g + 15` of a sequence from its token array (R213, R234). -/
def Ctx.granuleTokens (k : Ctx) (v : KvConf) (q g : Nat) : List Nat :=
  (List.range 16).map fun i => leNat (rdBytes k.store (v.tokenBase + (q * v.tokensMax + 16 * g + i) * 4) 4)

/-- The walker has read the token ids of granules `g .. g + n - 1` of a sequence (R168, R234). -/
def State.tokenTraffic (s : State) (c : Nat) (v : KvConf) (q g n : Nat) : State :=
  s.storeTraffic c 2 (v.tokenBase + (q * v.tokensMax + 16 * g) * 4) (64 * n)

/-- Keys of granules `0 .. n - 1` (R234). -/
def Ctx.chainKeys (k : Ctx) (v : KvConf) (key : BitVec 128) (q : Nat) : Nat → Nat → Word → List Word
  | 0, _, _ => []
  | n + 1, g, parent =>
    let x := granuleKey key parent (k.granuleTokens v q g)
    x :: k.chainKeys v key q n (g + 1) x

/-! ### Releasing sequences (R229) -/

/-- Give up one block of a sequence: its page numbers return at once, but for those that seals in flight still write. -/
def State.releaseBlock (s : State) (c q b : Nat) (v : KvConf) : State :=
  let e := (s.ctx c).entry v q b
  let p := partOfCtx c
  if e.state == 0 then s
  else
    let s :=
      if e.state == 2 && e.ledger then s.dropRef (e.link % 2 ^ 17)
      else (s.modCtx c fun k => { k with walk := { k.walk with
        spns := k.walk.spns.erase e.spn
        freeAtStep := if e.state == 2 then k.walk.freeAtStep else (e.link, none) :: k.walk.freeAtStep } }).dropPages p e.spn v.layers
    (s.modCtx c fun k => k.setEntry v q b {}).storeTraffic c 2 (v.entryAddr q b) 8

/-- RELEASE: free a sequence (R229). -/
def State.releaseSeq (s : State) (c q : Nat) (v : KvConf) : State :=
  let s := s.foldNat ((s.ctx c).liveBlocks v q) fun s b => s.releaseBlock c q b v
  (s.modCtx c fun k => k.setSeqHead v q { chain := v.modelTag }).storeTraffic c 2 (v.rec_ q) 24

/-- The live sequences of a context. -/
def Ctx.liveSeqs (k : Ctx) : List Nat :=
  match k.itin.kv with
  | none => []
  | some v => (List.range v.seqMax).filter fun q => (k.seqHead v q).live

/-- The look-aside buffers drop every entry of a context that is swapped out or ends (R231). -/
def State.dropLab (s : State) (c : Nat) : State :=
  { s with kvw := { s.kvw with lab := s.kvw.lab.filterMap fun (i, l) =>
      let l := l.filter fun (x, _) => x != c
      if l.isEmpty then none else some (i, l) } }

/-- Release every live sequence of a context that ends, and leave its seals in flight to themselves (R229, R231). -/
def State.releaseAll (s : State) (c : Nat) : State :=
  let s := match (s.ctx c).itin.kv with
    | none => s
    | some v => s.foldNat ((s.ctx c).liveSeqs) fun s q => s.releaseSeq c q v
  ({ s with seals := s.seals.map fun l => if l.ctx == some c then { l with ctx := none } else l } : State).dropLab c

end Sys2Proof.Machine
end

