-- ==== Sys2Proof/Machine/Teardown.lean ====
section
/-!
DEFINITION. How a context loses its stations and ends (12_partitions_contexts.md R358-R373), how it becomes fabric-held
(10_brisor_fabric.md R309-R310), program faults (04_station_instructions.md R97-R98), and how an increment reaches a token
counter (02_stations.md R44, R360, R449).
-/

namespace Sys2Proof.Machine

/-- A station runs nothing: idle, with its state written to zero (R372 step 6). -/
def Stn.clear (t : Stn) : Stn :=
  let t := t.noteHeld
  { t with arch := {}, ctx := none, state := if t.failed then 4 else 0
           island := { t.island with wholeWin := false } }

/-- Bring a context's running times up to the present (R368). -/
def Ctx.account (k : Ctx) (now : Nat) : Ctx :=
  match k.heldSince with
  | none => k
  | some t => { k with stepRun := k.stepRun + (now - t), lifeRun := k.lifeRun + (now - t), heldSince := some now }

/-- A context gives up its stations at once (R358). -/
def State.leaveStations (s : State) (c : Nat) : State :=
  if s.holds c then
    let s := s.foldNat (s.stnsOfCtx c) fun s st => s.modStn st Stn.clear
    let s := s.modPart (partOfCtx c) fun p => { p with holder := none, preSince := none }
    s.modCtx c fun k => { k.account s.now with
      heldSince := none, window := none, waitSince := s.now, blockSince := none, evict := false }
  else s

/-- The drovers abandon a context's descriptors and units (R310, R372). -/
def State.abandonUnits (s : State) (c : Nat) : State :=
  s.foldNat (List.range 16) fun s d => s.modDrover d fun v =>
    { v with queue := v.queue.filter (·.ctx != c), active := v.active.filter (·.ctx != c)
             units := v.units.filter (·.ctx != c) }

/-- The reason of a teardown when another arises: the first by gate time stands; of two at one time the lower code, and of two
program faults the one of the lower station number (R98, R372). -/
def Teardown.merge (t u : Teardown) : Teardown :=
  if u.since == t.since && (decide (u.reason.toNat < t.reason.toNat) ||
      (u.reason == t.reason && t.reason == 1 && decide (u.station.toNat < t.station.toNat))) then u else t

/-- What the stations of context `c` hold for it, by context-relative index. -/
def State.archsOf (s : State) (c : Nat) : Sparse Arch :=
  (List.range (s.stnCount c)).foldl (fun m rel => mset {} m rel (s.stn (s.stnOfCtx c rel)).arch) []

/-- TEARDOWN_BEGIN (R372): the stations stop, work is abandoned and sequences are released. -/
def State.beginTeardown (s : State) (c : Nat) (reason : BitVec 8) (detail : BitVec 8 := 0) (station : BitVec 16 := 0xFFFF)
    (bundle : Nat := 0) : State :=
  let k := s.ctx c
  let t : Teardown := ⟨reason, detail, station, bundle, s.now⟩
  if k.state == .free then s
  else if k.state == .tearingDown then s.modCtx c fun k => { k with teardown := k.teardown.map (·.merge t) }
  else
    let fallen := if reason == 1 && s.holds c && k.state == .running then s.archsOf c else []
    let s := (s.leaveStations c).abandonUnits c
    let s := s.releaseAll c
    let s := s.gateEvent 0x0B 1
    s.modCtx c fun k => { k with
      state := .tearingDown, teardown := some t, fallen := fallen
      moe := { k.moe with queue := [], serving := [] }
      blocked := none, parkPending := false, resv := none, hold := none }

/-- Queue pairs enter the error state, with QP_ERROR (R322, R349). -/
def State.errorQps (s : State) (f : Qp → Bool) : State :=
  let new := s.host.qps.any fun q => f q && !q.error
  let s := { s with host := { s.host with qps := s.host.qps.map fun q => if f q then { q with error := true } else q } }
  if new then s.hpEvent 3 else s

/-- The context's number becomes FREE: queue pairs, image, footprint, hamper reservation (R180, R322, R372 steps 4-6). -/
def State.endContext (s : State) (c : Nat) : State :=
  let k := s.ctx c
  let s := s.errorQps fun q => q.kind == 1 && q.ctx == c
  let s := s.modCtx c fun k => ({ use_ := k.use_, energy := k.energy } : Ctx)
  match k.itin.caravan with
  | none => s
  | some v =>
    if (s.imageUsers (partOfCtx c) v.imageId).isEmpty
    then { s with images := s.images.filter fun g => !(g.part == partOfCtx c && g.id == v.imageId) }
    else s

/-- TEARDOWN event body (R373). -/
def teardownBody (h : BitVec 16) (t : Teardown) (job : BitVec 32) (step : Nat) : Bytes :=
  toBe 2 h.toNat ++ toBe 1 t.reason.toNat ++ toBe 1 t.detail.toNat ++ toBe 2 t.station.toNat ++ toBe 2 0 ++
    toBe 4 t.bundle ++ toBe 4 job.toNat ++ toBe 4 0 ++ toBe 8 step

/-- The fault-log entry of a teardown (R477). -/
def teardownEntry (k : Ctx) (t : Teardown) (saved : Bool) : FaultEntry :=
  { kind := 1, reason := t.reason.toNat, detail := t.detail.toNat, flags := if saved then 2 else 0, ctx := k.handle
    station := t.station.toNat, bundle := t.bundle, job := k.itin.job, step := k.step }

/-- SC_P_TEARDOWN and SC_EVENT of a teardown (R375). -/
def State.noteTeardown (s : State) (c : Nat) (h : BitVec 16) (t : Teardown) : State :=
  let s := s.modPart (partOfCtx c) fun p =>
    { p with tdHandle := h, tdReason := t.reason, tdDetail := t.detail, tdStation := t.station }
  let s := s.scEvent 0
  let s := if t.reason == 2 then s.scEvent 1 else s
  if t.reason == 0x10 then s.scEvent 3 else s

/-- A command that waited for the end of a context replies: the first CTX_END with STEP, a job teardown with the handle, and
every other command as R332 says; a second CTX_END finds the context gone (R311, R312, R332, R356). -/
def State.settle (s : State) (h : BitVec 16) (step : Nat) (job : BitVec 32) (first : Bool) (o : Owed) : State :=
  if o.pkt.opcode == 0x0042 then (if first then s.replyOwed o 0 0 (toBe 8 step) else s.replyOwed o 0x0302)
  else if o.pkt.opcode == 0x0061 then
    let s := { s with fab := { s.fab with dead := s.fab.dead.filter (· != job)
                                          quarantine := (job, s.now + ms 10) :: s.fab.quarantine } }
    s.replyOwed o 0 0 (toBe 2 h.toNat ++ toBe 6 0)
  else s.replyOwed o 0x0501

/-- Every command that waited for the end of a context replies, in order of arrival. -/
def State.settleAll (s : State) (h : BitVec 16) (step : Nat) (job : BitVec 32) (l : List Owed) : State :=
  (l.foldl (fun (acc : State × Bool) o =>
    (acc.1.settle h step job acc.2 o, acc.2 && o.pkt.opcode != 0x0042)) (s, true)).1

/-- A context's teardown ends (R372 steps 4-7, R373). -/
def State.finishTeardown (s : State) (c : Nat) : State :=
  let k := s.ctx c
  match k.teardown with
  | none => s.endContext c
  | some t =>
    let s := s.endContext c
    let s := s.noteTeardown c k.handle t
    let s := s.logFault (teardownEntry k t false)
    let s := s.postEvent 0x8002 k.handle (teardownBody k.handle t k.itin.job k.step)
    s.settleAll k.handle k.step k.itin.job k.owed

/-- A context torn down and ended in one action, as a package-wide event does within its own bound. -/
def State.tearDown (s : State) (c : Nat) (reason : BitVec 8) : State := (s.beginTeardown c reason).finishTeardown c

/-- Every loaded context torn down. -/
def State.tearDownAll (s : State) (reason : BitVec 8) : State :=
  s.foldNat s.loadedCtxs fun s c => s.tearDown c reason

/-- PROGRAM_FAULT (R97, R98): the fault log (its REASON field 0: the entry is no teardown, DEDUCED), and the teardown with
reason 0x01. The station is context-relative. -/
def State.programFault (s : State) (c rel bundle code : Nat) : State :=
  let k := s.ctx c
  let st := s.stnOfCtx c rel
  let num : Nat := if rel < s.stnCount c then st else 0xFFFF
  let s := s.logFault { kind := 2, reason := 0, detail := code, ctx := k.handle, station := num, bundle := bundle
                        job := k.itin.job, step := k.step }
  (s.beginTeardown c 1 (BitVec.ofNat 8 code) (BitVec.ofNat 16 num) bundle).modCtx c fun k =>
    { k with fallen := mdel k.fallen rel }

/-- Slot `k` (0 M, 1 V, 2 S, 3 X) of an issued bundle turns out to have faulted: its operation counts as wasted (R448). -/
def Stn.wasteOp (t : Stn) (k : Nat) : Stn :=
  let t := { t with tally := { t.tally with retired := t.tally.retired - 1, wasted := t.tally.wasted + 1 } }
  t.event (k + 1) (2 ^ 48 - 1)

/-- A program fault after issue, by the operation of slot `k` of bundle `idx` at context-relative station `rel` (R97). -/
def State.lateFault (s : State) (c rel idx k code : Nat) : State :=
  let st := s.stnOfCtx c rel
  (if st < 1024 then s.modStn st (·.wasteOp k) else s).programFault c rel idx code

/-! ### Arrival logs (R266, R365) -/

/-- Bytes that an arrival-log entry takes in the model. -/
def LogEntry.size : LogEntry → Nat
  | .token .. => 16
  | .bytes _ bs => 16 + bs.length
  | .message _ m .. => 64 + m.data.length

/-- Bytes of a context's arrival log. -/
def Ctx.logUsed (k : Ctx) : Nat := (k.log.map (·.size)).sum

/-- Append to a context's arrival log in HBM, in the autonomous class (R193); a log beyond G tears the context down with reason
0x10 (R365). -/
def State.logArrival (s : State) (c : Nat) (e : LogEntry) : State :=
  let k := s.ctx c
  if k.itin.logBytes < k.logUsed + e.size then s.beginTeardown c 0x10
  else (s.hamperTraffic c (k.itin.logAt + k.logUsed) e.size).modCtx c fun k => { k with log := k.log ++ [e] }

/-! ### Token counters (R44, R360, R449) -/

/-- A producer outside the context's package work (R359). -/
def Producer.external : Producer → Bool
  | .brisor | .dispatch | .hostSend => true
  | _ => false

/-- The context's stations hold its counters: it is the holder and its counters have not been captured (R360). -/
def State.counting (s : State) (c : Nat) : Bool :=
  s.holds c && ((s.ctx c).state == .running || (s.ctx c).state == .saving)

/-- Counter `t` of context-relative station `rel`. -/
def State.token (s : State) (c rel t : Nat) : Nat := (mget 0 (s.stn (s.stnOfCtx c rel)).arch.tokens t).toNat

/-- An increment of counter `t` at context-relative station `rel` by `n`, from a producer of kind `k`; `tag` when the
station did not itself name the counter. `blame` is the issuing station, bundle and slot of R44, or none. R44's lists do not
name the local counter of a station's own operation (T of XLD, XST, LDSHP and WV, TL of XSEND, LOCAL_TOKEN of XHALO): such an
overflow is charged to the station with the index of its next bundle (DESIGN CHOICE, log entry 46). -/
def State.incToken (s : State) (c rel t n : Nat) (k : Producer) (tag : Bool) (blame : Option (Nat × Nat × Nat)) : State :=
  let x := s.ctx c
  let st := s.stnOfCtx c rel
  if s.stnCount c ≤ rel then s
  else if s.counting c then
    if 65535 < s.token c rel t + n then
      match blame with
      | some (r, b, slot) => s.lateFault c r b slot 0x18
      | none => s.programFault c rel (s.stn st).arch.next 0x18
    else
      let s := if (s.stn st).arch.waitsOn t then s.modStn st Stn.noteHeld else s
      let s := s.modArch st fun a => { a with
        tokens := mmod 0 a.tokens t (· + BitVec.ofNat 16 n)
        producers := if tag then mset .unattributed a.producers t k else a.producers }
      if k.external && x.state == .saving then s.modCtx c fun x => { x with blocked := none } else s
  else
    if x.state == .free || x.state == .tearingDown || x.isHeld then s
    else if !x.resident then s.logArrival c (.token rel t n k)
    else
      s.modCtx c fun x => { x with
        shelf := mmod 0 x.shelf (64 * rel + t) (· + n)
        saved := if tag then mmod {} x.saved rel fun a => { a with producers := mset .unattributed a.producers t k }
                 else x.saved
        blocked := if k.external then none else x.blocked }

/-- Counter `t` of every station in a list raised by one. -/
def State.incEach (s : State) (c : Nat) (rels : List Nat) (t : Nat) (k : Producer) : State :=
  s.foldNat rels fun s r => s.incToken c r t 1 k true none

/-! ### Fabric holds (R309, R310) -/

/-- A context becomes fabric-held: its stations stop, its units are abandoned and the event is sent. -/
def State.fabricHold (s : State) (c cause peer : Nat) : State :=
  let k := s.ctx c
  if k.state == .free || k.state == .tearingDown || k.isHeld then s
  else
    let s := (s.leaveStations c).abandonUnits c
    let s := s.modCtx c fun k => { k with
      state := .held, hold := some (cause, peer, s.now + ms s.fab.holdMs), blocked := none, parkPending := false }
    let w := BitVec.ofNat 64 (fld k.itin.job.toNat 32 32 + fld k.handle.toNat 16 16 + fld peer 8 8 + fld cause 0 8)
    let s := s.modPart (partOfCtx c) fun p => { p with heldReg := w, holds := satAdd 32 p.holds 1 }
    (s.fbEvent 3).postEvent 0x8006 k.handle
      (toBe 4 k.itin.job.toNat ++ toBe 2 k.handle.toNat ++ toBe 1 cause ++ toBe 1 peer)

/-! ### Uncorrectable HBM errors (R184, R196, R206) -/

/-- The stack's registers and the fault log of an uncorrectable error at byte offset `o` of stack `n`. -/
def State.hbmUncorr (s : State) (n o : Nat) : State :=
  let addr := BitVec.ofNat 64 (2 ^ 63 + o % 2 ^ 36 / 64 * 64)
  let s := s.modStk n fun k => { k with uncorr := satAdd 64 k.uncorr 1, errAddr := addr }
  (s.hbEvent n 0).logFault { kind := 6, unit := n * 256 + o / 4096 % 64 / 2, info := addr }

/-- A sealed page of partition `p` is poisoned, and with it the ledger entry that holds it (R196, R241). -/
def State.poisonSealed (s : State) (p spn : Nat) : State :=
  let s := { s with pages := s.pages.map fun (g : Page) => if g.part == p && g.spn == spn then { g with poison := true } else g }
  s.poisonPage p spn

/-- The sealed page of partition `p` with this number. -/
def State.page (s : State) (p spn : Nat) : Option Page := s.pages.find? fun g => g.part == p && g.spn == spn

/-- Where the failing 64-byte access of a sealed page lies (R206), of the granule `g` if it is known: its stack, and its split-mode
offset, of which the pseudo-channel is the granule's (R177); the row and the place within the granule are not stated, and which
granule failed is not where none is given: free values. -/
def State.pageError (s : State) (p spn : Nat) (g : Option Nat) : Nat × Nat × State :=
  let (d, s) := s.draw
  let (e, s) := s.draw
  let (f, s) := s.draw
  let i := g.getD ((Config.openValue d).toNat % 16)
  let (_, n, pc) := s.hbmPlace p (spn * 65536 + 4096 * i) (s.part p).seed.toNat 1
  (n, (Config.openValue e).toNat % 196608 * 262144 + pc * 4096 + (Config.openValue f).toNat % 64 * 64, s)

/-- A fetch of a sealed page, of granule `g` if it is known, fails its check or meets an error, and its reader is torn down (R184,
R196). -/
def State.pageFails (s : State) (p spn : Nat) (crc : Bool) (readers : List Nat) (g : Option Nat := none) : State :=
  let (n, o, s) := s.pageError p spn g
  let s := if crc then s.csEvent 3 else s
  let s := (s.hbmUncorr n o).poisonSealed p spn
  s.foldNat readers fun s c => s.beginTeardown c 5

/-- Every granule of a sealed page that a fetch of `n` bytes at `o` touches passes its CRC-32C (R184). -/
def Page.checks (g : Page) (o n : Nat) : Bool :=
  (granules o n).all fun i => some (crc32c (slice g.data (4096 * i) 4096)) == g.crcs[i]?

/-- Count a sealed page's 16 granules written down (R193, R446). -/
def State.pageTraffic (s : State) (p spn cls : Nat) (c : Option Nat) : State :=
  s.foldNat (List.range 16) fun s i =>
    s.hbmBytes (s.hbmPlace p (spn * 65536 + i * 4096) (s.part p).seed.toNat 1).2.1 cls 4096 c

/-- Count `n` bytes of a sealed granule fetched from the stack that holds page byte `o` (R193, R446, R452). -/
def State.granuleFetch (s : State) (p o n : Nat) (c : Option Nat) : State :=
  let k := (s.hbmPlace p o (s.part p).seed.toNat 1).2.1
  (s.hbmBytes k 1 n c).modStk k fun x => x.event_ 7 1

/-- Count the fetch of a sealed page's 16 granules. -/
def State.pageFetch (s : State) (p spn : Nat) (c : Option Nat) : State :=
  s.foldNat (List.range 16) fun s i => s.granuleFetch p (spn * 65536 + i * 4096) 4096 c

/-! ### Shape words (R106, R107) -/

/-- Read a shape slot of a context: its value, or the fault of its word. -/
def Ctx.shape (k : Ctx) (slot : Nat) : Except Nat Nat :=
  match k.itin.shapes.find? (·.slot == slot) with
  | none => .error 0x1A
  | some d =>
    let w := leNat (rdBytes k.store d.addr 8)
    if d.max < w % 2 ^ 32 then .error 0x1A
    else if w / 2 ^ 32 != 0 then .error 0x1B
    else .ok w

/-- An engine of the package has read a shape slot's word (R106, R168). -/
def State.shapeTraffic (s : State) (c slot : Nat) : State :=
  match (s.ctx c).itin.shapes.find? (·.slot == slot) with
  | some d => s.storeTraffic c 2 d.addr 8
  | none => s

/-- The itinerary declares a shape slot. -/
def Ctx.hasShape (k : Ctx) (slot : Nat) : Bool := k.itin.shapes.any (·.slot == slot)

/-- The maximum of a shape slot. -/
def Ctx.shapeMax (k : Ctx) (slot : Nat) : Nat :=
  match k.itin.shapes.find? (·.slot == slot) with
  | some d => d.max
  | none => 0

/-- Write a shape word for an engine of the package (R106, R168). -/
def State.putShape (s : State) (c slot v : Nat) : State :=
  match (s.ctx c).itin.shapes.find? (·.slot == slot) with
  | some d => s.put c d.addr (toLe 8 v)
  | none => s

end Sys2Proof.Machine
end

