-- ==== Sys2Proof/Machine/Failures.lean ====
section
/-!
DEFINITION. Unit failures (17_failures_service.md R463-R467, 07_central_store.md R195-R198, 02_stations.md R61-R63): failed
stations, links, slices and HBM words, the patrol scrub, and the removal of an HBM channel.
-/

namespace Sys2Proof.Machine

/-- Image granules are poisoned: every context that names the image is torn down, and IMAGE_POISON is set (R196). -/
def State.poisonImage (s : State) (p id : Nat) (gs : List Nat) : State :=
  let users := s.imageUsers p id
  let s := (s.modImage p id fun g => { g with poison := (g.poison ++ gs).dedup }).csEvent 1
  s.foldNat users fun s c => s.beginTeardown c 5

/-- What a failed slice's piece of the transit buffer held is lost; granules of images that the bytes were bound for are poisoned
(R465). -/
def State.loseTransit (s : State) (st : Nat) : State :=
  let k := st / 128
  let l := mget [] s.cst.transit k
  let s := { s with cst := { s.cst with transit := mset [] s.cst.transit k (l.filter (·.slice != st)) } }
  (l.filter (·.slice == st)).foldl (fun s t => match t with
    | .split .. => s
    | .image p id o bs _ => if (s.image p id).isSome then s.poisonImage p id (granules o bs.length) else s) s

/-- The contexts whose STATIONS section names package station `st`, whatever their state (R463). -/
def State.holdersOf (s : State) (st : Nat) : List Nat := s.loadedCtxs.filter fun c => (s.stnsOfCtx c).contains st

/-- A station fails: marked, logged with its STN_FAULT bits, its slice out of use, its holders torn down with reason 0x04
(R463-R465, R467). A further check of a station that has failed already sets its bit alone (R62). -/
def State.failStation (s : State) (st : Nat) (bits : BitVec 7) : State :=
  if 1024 ≤ st || !s.bring.diesOn then s
  else if (s.stn st).failed then s.modStn st (·.faults s.now bits)
  else
    let hs := s.holdersOf st
    let s := s.modStn st fun t => { t.faults s.now bits with failed := true, state := 4 }
    let s := s.logFault { kind := 3, station := st, unit := st, info := bits.setWidth 64 }
    let s := s.loseTransit st
    s.foldNat hs fun s c => s.beginTeardown c 4 0 (BitVec.ofNat 16 st)

/-- A neighbour link fails at both ends (R61, R463). -/
def State.failLink (s : State) (st l : Nat) : State :=
  match linkFar st l with
  | none => s
  | some far =>
    if (s.stn st).linkFailed.getLsbD l || !s.bring.diesOn then s
    else
      let mark (m : Nat) (t : Stn) : Stn := { t.faults s.now 0x40 with
        linkUp := putBit t.linkUp m false, linkFailed := putBit t.linkFailed m true }
      let s := (s.modStn st (mark l)).modStn far (mark (linkBack l))
      let s := s.logFault { kind := 4, unit := st * 4 + l }
      let cs := (s.holdersOf st).filter fun c => (s.stnsOfCtx c).contains far
      s.foldNat cs fun s c => s.beginTeardown c 4

/-- An uncorrectable error in a slice: CS_ERR_ADDR, the count, and the station above fails (R196, R202). -/
def State.failSlice (s : State) (sl o : Nat) : State :=
  if 1024 ≤ sl || (s.stn sl).failed || !s.bring.diesOn then s
  else
    let a := BitVec.ofNat 64 (2 ^ 63 + fld sl 23 10 + o / 8 * 8 % 2 ^ 23)
    let s := { s with cst := { s.cst with uncorr := satAdd 64 s.cst.uncorr 1, errAddr := a } }
    let s := (s.csEvent 0).logFault { kind := 5, unit := sl, info := a }
    s.failStation sl 0

/-! ### Removing a channel (R198, R469) -/

/-- A stack and channel hold a granule of an image that this package holds. -/
def State.imageIn (s : State) (g : Image) (n ch : Nat) : Bool :=
  let users := s.imageUsers g.part g.id
  let k := s.ctx (users.headD 128)
  (granules 0 g.size).any fun i =>
    let (home, m, pc) := s.imagePlace g.part g.regions (i * 4096)
    let homes := match regionOfImage g.regions (i * 4096) with | some r => r.homes | none => 1
    m == n && pc / 2 == ch && k.holdsHome homes home

/-- A sealed page has a granule in a stack's channel. -/
def State.pageIn (s : State) (g : Page) (n ch : Nat) : Bool :=
  (List.range 16).any fun i =>
    let (_, m, pc) := s.hbmPlace g.part (g.spn * 65536 + i * 4096) (s.part g.part).seed.toNat 1
    m == n && pc / 2 == ch

/-- The sealed page numbers that a context's block tables reference. -/
def Ctx.sealedSpns (k : Ctx) : List Nat :=
  match k.itin.kv with
  | none => []
  | some v => k.liveSeqs.flatMap fun q => (k.liveBlocks v q).flatMap fun b =>
      let e := k.entry v q b
      if e.state == 2 then (List.range v.layers).map (e.spn + ·)
      else (List.range e.sealedLayers).map (e.spn + ·)

/-- A context has hamper data that has not been read back, or an arrival log (R198): station records, and while it is not resident
its streams or its footprint. -/
def Ctx.hasHamper (k : Ctx) : Bool :=
  match k.state with
  | .loaded | .saving | .restoring | .swapped | .swappingOut | .swappingIn => true
  | .ready | .parked | .held => k.hamper || !k.resident || !k.log.isEmpty
  | _ => false

/-- REMOVE takes a channel out of live (R198). -/
def State.removeChannel (s : State) (n ch : Nat) : State :=
  let k := s.stk n
  if !(k.live.getLsbD (2 * ch) || k.live.getLsbD (2 * ch + 1)) then s
  else
    let p := n / (4 * s.eighths)
    let imgs := s.images.filter fun g => g.part == p && s.imageIn g n ch
    let pgs := s.pages.filter fun g => g.part == p && s.pageIn g n ch
    let users := s.loadedCtxs.filter fun c => partOfCtx c == p &&
      ((s.ctx c).hasHamper || (imgs.any fun g => (s.imageUsers p g.id).contains c) ||
        pgs.any fun g => (s.ctx c).sealedSpns.contains g.spn)
    let s := s.foldNat users fun s c => s.beginTeardown c 5
    let s := pgs.foldl (fun s g => s.poisonSealed p g.spn) s
    let s := { s with images := s.images.filter fun g => !imgs.any fun i => i.part == g.part && i.id == g.id }
    let s := s.modStk n fun k =>
      let live := putBit (putBit k.live (2 * ch) false) (2 * ch + 1) false
      { k with live := live, removed := putBit (putBit k.removed (2 * ch) true) (2 * ch + 1) true
               state := if live == 0 then 4 else k.state }
    let s := s.foldNat (s.loadedCtxs.filter fun c => partOfCtx c == p) fun s c => s.modCtx c fun k => { k with rateCut := true }
    (s.hbEvent n 4).logFault { kind := 7, unit := n * 256 + ch, info := 2 }

/-! ### The commands -/

/-- STATION_CHECK_FAIL (R464): the failed checks but LINK_ERR. -/
def execStationCheckFail (st : Nat) (checks : BitVec 7) (s : State) : Res :=
  .next (if checks &&& 0x3F == 0 then s else s.failStation st (checks &&& 0x3F))

/-- RING_STOP_FAIL (R463): a ring stop serves its station, a mesh router the 16 stations of its string. -/
def execRingStopFail (router : Bool) (st : Nat) (s : State) : Res :=
  .next (s.foldNat (if router then (List.range 16).map fun i => st / 16 * 16 + i else [st]) fun s t => s.failStation t 0)

/-- LINK_FAIL (R463). -/
def execLinkFail (st : Nat) (link : BitVec 2) (s : State) : Res := .next (s.failLink st link.toNat)

/-- SLICE_UNCORRECTABLE (R196). -/
def execSliceUncorrectable (sl offset : Nat) (s : State) : Res := .next (s.failSlice sl offset)

/-- An uncorrectable error at byte offset `o` of stack `n`: the registers and the log, and the outcome that R196 gives the data it
hit. An open image, whose granules are still being written, is none of R196's rows: its granule is poisoned until a write covers it,
so that its data is not delivered as if it were valid (DESIGN CHOICE, log entry 16). -/
def State.hbmError (s : State) (n o : Nat) (hit : HbmHit) : State :=
  let s := s.hbmUncorr n o
  match hit with
  | .image p id g =>
    match s.image p id with
    | none => s
    | some i => if i.open_ then s.modImage p id fun i => { i with poison := (g :: i.poison).dedup } else s.poisonImage p id [g]
  | .page p spn readers crc =>
    let s := if crc then s.csEvent 3 else s
    let rs := readers.filter fun c => partOfCtx c == p
    (s.poisonSealed p spn).foldNat rs fun s c => s.beginTeardown c 5
  | .hamper c => (s.csEvent 2).beginTeardown c 5
  | .free => s

/-- HBM_UNCORRECTABLE (R196): the outcome depends on what the data was. -/
def execHbmUncorrectable (stack offset : Nat) (hit : HbmHit) (s : State) : Res :=
  .next (if 32 ≤ stack || !s.bring.diesOn then s else s.hbmError stack offset hit)

/-- `m` corrected lanes of a word of slice `i`, at most 8 (R195). -/
def State.correctSlice (s : State) (i m : Nat) : State :=
  if (s.stn i).failed then s
  else { s.modStn i (·.sliceEvent 5 (min m 8)) with cst := { s.cst with corr := satAdd 64 s.cst.corr (min m 8) } }

/-- `m` corrected symbols of a word of stack `n`, one in each half at most (R195). -/
def State.correctStack (s : State) (n m : Nat) : State :=
  s.modStk n fun k => { k.event_ 6 (min m 2) with corr := satAdd 64 k.corr (min m 2) }

/-- The scrub goes on at word `pos` of a pass that began at `since`: one pass in each period of `t` ns (R197). -/
def scrubDue (pos : Nat) (since : Option Nat) (t now : Nat) : Bool :=
  pos != 0 || (match since with | some a => decide (a + t ≤ now) | none => true)

/-- The patrol scrub's next slice word (R197): 64 bytes of 1,024 slices of 8 MiB, read in the autonomous class (R168). -/
def State.scrubSlice (s : State) (found : ScrubFound) : State :=
  let w := s.cst.scrubPos
  let i := w / 131072
  let s := { s.modStn i (·.sliceBytes 3 64) with cst := { s.cst with
    scrubFrom := if w == 0 then some s.now else s.cst.scrubFrom } }
  let s := match found with
    | .clean => s
    | .corrected m => s.correctSlice i m
    | .uncorrectable _ => s.failSlice i (w % 131072 * 64)
  if w + 1 < 1024 * 131072 then { s with cst := { s.cst with scrubPos := w + 1 } }
  else { s with cst := { s.cst with scrubPos := 0 } }.csEvent 4

/-- The patrol scrub's next word of a stack (R197): 64 bytes of 48 GiB, in the autonomous class (R193). -/
def State.scrubStack (s : State) (n : Nat) (found : ScrubFound) : State :=
  let w := (s.stk n).scrubPos
  let s := (s.hbmBytes n 2 64 none).modStk n fun k => { k with scrubFrom := if w == 0 then some s.now else k.scrubFrom }
  let s := match found with
    | .clean => s
    | .corrected m => s.correctStack n m
    | .uncorrectable hit => s.hbmError n (w * 64) hit
  s.modStk n fun k => { k with scrubPos := if w + 1 < 48 * 2 ^ 24 then w + 1 else 0 }

/-- PATROL_SCRUB_STEP (R195, R197): a word of the scrub, or a word that an ordinary read has corrected. -/
def execPatrolScrubStep (target : ScrubTarget) (found : ScrubFound) (s : State) : Res :=
  if !s.bring.diesOn then .next s
  else
    match target with
    | .slices => .next (if s.cst.scrubOn && scrubDue s.cst.scrubPos s.cst.scrubFrom (ms (1000 * s.cst.scrubS)) s.now
        then s.scrubSlice found else s)
    | .stack n =>
      let k := s.stk n
      .next (if n < 32 && k.scrubOn && k.state == 2 && scrubDue k.scrubPos k.scrubFrom (ms (3600000 * k.scrubH)) s.now
        then s.scrubStack n found else s)
    | .sliceRead i => .next (match found with | .corrected m => if i < 1024 then s.correctSlice i m else s | _ => s)
    | .stackRead n => .next (match found with
        | .corrected m => if n < 32 && (s.stk n).state == 2 then s.correctStack n m else s
        | _ => s)

end Sys2Proof.Machine
end

