-- ==== Sys2Proof/Machine/Wire.lean ====
section
/-!
DEFINITION. What Brisor carries, as bytes (10_brisor_fabric.md R286, R289, R293, R294): message headers, flits and identity
records, big-endian (R6), and how they are read back.
-/

namespace Sys2Proof

open Machine

/-! ### Messages (R293, R294) -/

/-- The 32-byte header, big-endian (R293). LENGTH holds the count of data bytes modulo 2^16. -/
def Msg.header (t : BitVec 8) (m : Msg) (crc : BitVec 32) : Bytes :=
  toBe 1 t.toNat ++ toBe 1 m.flags.toNat ++ toBe 1 m.srcPkg.toNat ++ toBe 1 m.dstPkg.toNat ++ toBe 4 m.job.toNat ++
    toBe 4 m.tag.toNat ++ toBe 2 m.status.toNat ++ toBe 2 m.data.length ++ toBe 8 m.remote ++ toBe 4 m.aux.toNat ++
    toBe 4 crc.toNat

/-- E2E_CRC: over the header, taken with E2E_CRC as 0, and over the data (R293). -/
def Msg.crc (t : BitVec 8) (m : Msg) : BitVec 32 := crc32c (m.header t 0 ++ m.data)

/-- A message as it leaves: its header and its data (R293). -/
def Msg.bytes (t : BitVec 8) (m : Msg) : Bytes := m.header t (m.crc t) ++ m.data

/-- The data has the length that its type fixes (R294). -/
def Msg.fits (t : BitVec 8) (m : Msg) : Bool :=
  match t.toNat with
  | 1 | 3 | 6 => m.data.length == 0
  | 2 => m.data.length == 256
  | 4 => m.data.length == 4096
  | 5 | 0x30 => m.data.length == 16
  | _ => true

/-- A message passes its end-to-end check (R293) and has the form of its type (R294). -/
def Msg.intact (t : BitVec 8) (m : Msg) : Bool := m.fits t && m.e2e == m.crc t

/-- Data bytes that a header announces; a relay block's 65,536 do not fit LENGTH and are added (R293, R294; log entry 46). -/
def dataBytes (b : Bytes) : Nat := beAt b 14 2 + (if beAt b 0 1 == 0x28 then 65536 else 0)

/-- The message that begins a byte stream, as port `r` receives it. -/
def readMsg (r : Nat) (b : Bytes) : BitVec 8 × Msg :=
  (BitVec.ofNat 8 (beAt b 0 1),
    ⟨BitVec.ofNat 8 (beAt b 1 1), BitVec.ofNat 8 (beAt b 2 1), BitVec.ofNat 8 (beAt b 3 1), BitVec.ofNat 32 (beAt b 4 4),
      BitVec.ofNat 32 (beAt b 8 4), BitVec.ofNat 16 (beAt b 12 2), beAt b 16 8, BitVec.ofNat 32 (beAt b 24 4),
      slice b 32 (dataBytes b), BitVec.ofNat 32 (beAt b 28 4), r⟩)

/-- The messages that a class's stream completes, and what is left of it. A zero where a message would begin fills the rest of a
flit (log entry 46). -/
def takeMsgs (r : Nat) : Nat → Bytes → List (BitVec 8 × Msg) × Bytes
  | 0, b => ([], b)
  | fuel + 1, b =>
    if beAt b 0 1 == 0 then ([], [])
    else if b.length < 32 + dataBytes b then ([], b)
    else
      let (l, rest) := takeMsgs r fuel (b.drop (32 + dataBytes b))
      (readMsg r b :: l, rest)

/-! ### Flits (R289, R292) -/

/-- A flit: LINK_HEADER, 244 message bytes, CRC-32C over both (R289). -/
def flitOf (head body : Bytes) : Bytes :=
  let b := head ++ slice body 0 244
  b ++ toBe 4 (crc32c b).toNat

/-- A field of a received flit's LINK_HEADER (R289). -/
def Flit.field (f : Flit) (lo w : Nat) : Nat := bitsOf (beAt f.bytes 0 8) lo w
/-- FTYPE -/
def Flit.ftype (f : Flit) : Nat := f.field 60 4
/-- CLASS -/
def Flit.cls (f : Flit) : Nat := f.field 58 2
/-- SEQ -/
def Flit.seq (f : Flit) : BitVec 12 := BitVec.ofNat 12 (f.field 46 12)
/-- ACK -/
def Flit.ack (f : Flit) : BitVec 12 := BitVec.ofNat 12 (f.field 34 12)
/-- NAK -/
def Flit.nak (f : Flit) : Bool := f.field 33 1 == 1
/-- CREDIT_CLASS -/
def Flit.creditClass (f : Flit) : Nat := f.field 31 2
/-- CREDITS -/
def Flit.credits (f : Flit) : Nat := f.field 23 8
/-- MESSAGE_BYTES -/
def Flit.body (f : Flit) : Bytes := slice f.bytes 8 244
/-- CRC and FEC are good (R289, R292). -/
def Flit.good (f : Flit) : Bool :=
  f.bytes.length == 256 && f.uncorrected == 0 && beAt f.bytes 252 4 == (crc32c (f.bytes.take 252)).toNat

/-! ### Identity records (R286) -/

/-- An identity record, big-endian (R286). -/
def Ident.record (i : Ident) : Bytes :=
  toBe 8 i.serial.toNat ++ toBe 2 i.rack.toNat ++ toBe 1 i.tray.toNat ++ toBe 1 i.slot.toNat ++ toBe 1 i.port.toNat ++
    toBe 1 i.role.toNat ++ toBe 18 0

/-- Read an identity record (R286, R287). -/
def Ident.ofBytes (b : Bytes) (o : Nat := 0) : Ident :=
  ⟨BitVec.ofNat 64 (beAt b o 8), BitVec.ofNat 16 (beAt b (o + 8) 2), BitVec.ofNat 8 (beAt b (o + 10) 1),
    BitVec.ofNat 8 (beAt b (o + 11) 1), BitVec.ofNat 8 (beAt b (o + 12) 1), BitVec.ofNat 8 (beAt b (o + 13) 1)⟩

end Sys2Proof
end

