-- ==== Sys2Proof/Machine/Ports.lean ====
section
/-!
DEFINITION. The Brisor ports (10_brisor_fabric.md R283-R292, R303-R308): training, identities, flits, credits, retry, lanes
lost and ports down, and how a message leaves on a rail.
-/

namespace Sys2Proof.Machine

/-! ### Classes (R290) -/

/-- The class of a message type (R290, R294). -/
def msgClass (t : BitVec 8) : Nat :=
  if t == 0x10 || t == 0x24 then 1 else if t == 0x28 then 2 else if t == 0x30 then 3 else 0

/-! ### Flits (R286, R289) -/

/-- The 64-bit LINK_HEADER of what a port sends: ACK is the last SEQ it received in order, NAK is set while it owes one (R289). -/
def FabPort.linkHeader (p : FabPort) (ftype cls : Nat) (seq : BitVec 12) (creditClass credits : Nat) : Bytes :=
  toBe 8 (fld ftype 60 4 + fld cls 58 2 + fld seq.toNat 46 12 + fld (p.rxNext - 1).toNat 34 12 + fld (b2n p.nakOwed) 33 1 +
    fld creditClass 31 2 + fld credits 23 8)

/-- A control-only flit that returns credits of a class (R289, R291). -/
def FabPort.control (p : FabPort) (creditClass credits : Nat) : Bytes :=
  flitOf (p.linkHeader 3 0 p.txLast creditClass credits) []

/-- A message flit (R289). -/
def FabPort.frame (p : FabPort) (f : SentFlit) : Bytes := flitOf (p.linkHeader 1 f.cls f.seq 0 0) f.body

/-- An identity flit (R286, R289). -/
def FabPort.identityFlit (p : FabPort) (i : Ident) : Bytes := flitOf (p.linkHeader 2 0 p.txLast 0 0) i.record

/-! ### Sending (R289-R292, R301, R303, R304) -/

/-- The package's receive buffer of each class at a port, in flits (R290). -/
def rxBuffers : List Nat := [512, 512, 256, 32]

/-- Credits of a class. -/
def FabPort.credit (p : FabPort) (c : Nat) : Nat := p.credits.getD c 0

/-- The bytes of a class's stream that no flit has taken. -/
def FabPort.stream (p : FabPort) (c : Nat) : Bytes := p.txStream.getD c []

/-- A flit of class `c` may leave: the port does not drain, there are bytes for it, a credit, and
room in the retry buffer of 1,024 flits (R291, R292, R475). -/
def FabPort.maySend (p : FabPort) (c : Nat) : Bool :=
  p.draining.isNone && (!(p.stream c).isEmpty || p.egress.any fun w => w.cls == c) && 0 < p.credit c && p.unacked.length < 1024

/-- The message of class `c` that enters next: the oldest one of the next eighth in rotation (R301). -/
def FabPort.nextWaiting (p : FabPort) (c : Nat) : Option Waiting :=
  (List.range 8).findSome? fun i => p.egress.find? fun w => w.cls == c && w.eighth == (p.turn + 1 + i) % 8

/-- Messages of class `c` enter its stream until a flit's bytes are there; the ones that entered, newest first. -/
def FabPort.fill (c : Nat) : Nat → FabPort → FabPort × List Waiting
  | 0, p => (p, [])
  | fuel + 1, p =>
    if 244 ≤ (p.stream c).length then (p, [])
    else match p.nextWaiting c with
      | none => (p, [])
      | some w =>
        let (p, l) := FabPort.fill c fuel { p with
          egress := p.egress.erase w, turn := w.eighth, txStream := p.txStream.set c (p.stream c ++ w.msg.bytes w.mtype) }
        (p, l ++ [w])

/-- A flit of class `c` leaves port `r`, and what that sends, newest first (R289, R291, R292). -/
def FabPort.sendFlit (r c : Nat) (p : FabPort) : FabPort × List Out :=
  let (p, l) := p.fill c p.egress.length
  let f : SentFlit := { seq := p.txLast + 1, cls := c, body := (p.stream c).take 244 }
  ({ p with
      txStream := p.txStream.set c ((p.stream c).drop 244), credits := p.credits.set c (p.credit c - 1)
      unacked := p.unacked ++ [f], txLast := f.seq },
    .flit r (p.frame f) :: l.map fun w => .msg w.mtype w.msg)

/-- Flits leave while a class may send, the lowest class first. -/
def FabPort.push (r : Nat) : Nat → FabPort → FabPort × List Out
  | 0, p => (p, [])
  | fuel + 1, p =>
    match (List.range 4).find? p.maySend with
    | none => (p, [])
    | some c =>
      let (p, l) := p.sendFlit r c
      let (p, m) := FabPort.push r fuel p
      (p, m ++ l)

/-- Everything that may leave a port leaves it. -/
def State.pushPort (s : State) (r : Nat) : State :=
  let (p, l) := (s.port r).push r (s.port r).credits.sum
  let s := s.modPort r fun _ => p
  { s with out := l ++ s.out }

/-- The eighth whose outbound traffic a message is: a request's drover's; else the first of the partition of its job's context
(R301; log entry 46). -/
def State.eighthOf (s : State) (t : BitVec 8) (m : Msg) : Nat :=
  if msgClass t == 0 then bitsOf m.tag.toNat 28 4 / 2
  else match s.loadedCtxs.find? fun c => (s.ctx c).itin.job == m.job && m.job != 0 with
    | some c => partOfCtx c * s.eighths % 8
    | none => 0

/-- The port can send and receive flits (R285 step 6): one that drains still hears acknowledgements (R475). -/
def State.portLinked (s : State) (r : Nat) : Bool := (s.port r).state == 5

/-- The port is up and does not drain (R285 step 6, R475). -/
def State.portUp (s : State) (r : Nat) : Bool := s.portLinked r && (s.port r).draining.isNone

/-- Send a message on a rail: it waits its turn and leaves flit by flit as its class has credits (R289-R292). One for a port that
is not up is lost. -/
def State.sendMsg (s : State) (rail : Nat) (t : BitVec 8) (m : Msg) : State :=
  if !s.portUp rail then s
  else
  let w : Waiting := ⟨msgClass t, s.eighthOf t m, t, { m with port := rail }⟩
  (s.modPort rail fun p => { p with egress := p.egress ++ [w] }).pushPort rail

/-- The up ports. -/
def State.upPorts (s : State) : List Nat := (List.range 8).filter s.portUp

/-- FB_REACH of a package (R303). -/
def State.reach (s : State) (pkg : Nat) : BitVec 8 := mget 0xFF s.fab.reach pkg

/-- The live rails toward a package (R303). -/
def State.liveRails (s : State) (pkg : Nat) : List Nat := s.upPorts.filter fun r => (s.reach pkg).getLsbD r

/-- choose_rail of R304. -/
def State.chooseRail (s : State) (pkg remote : Nat) : Option Nat :=
  let l := s.liveRails pkg
  if l.isEmpty then none else some (l.getD (fold32 ((remote / 4096 * 256) ^^^ pkg) % l.length) 0)

/-- This package's fabric id; 0 before a plan. -/
def State.fabricId (s : State) : Nat := match s.fab.plan with | some p => p.id | none => 0

/-- DEPARTURE on every up port (R304, R313): SERIAL, CAUSE, 7 reserved bytes. -/
def State.departure (s : State) (cause : Nat) : State :=
  let m : Msg := ⟨0, BitVec.ofNat 8 s.fabricId, 0, 0, 0, 0, 0, 0,
    toBe 8 Config.serial.toNat ++ toBe 1 cause ++ toBe 7 0, 0, 0⟩
  s.foldNat s.upPorts fun s r => s.sendMsg r 0x30 m

/-- A port's PORT event (R337). -/
def State.portEvent (s : State) (r cause : Nat) : State :=
  let p := s.port r
  s.postEvent 0x8008 0xFFFF (toBe 1 r ++ toBe 1 p.state.toNat ++ toBe 1 p.width ++ toBe 1 cause ++ toBe 4 0)

/-! ### Leaving live, going down, training (R285, R305, R307, R308) -/

/-- Units already sent on rail `r` toward the packages that `f` selects hold back later ones (R305). -/
def State.railLeaves (s : State) (r : Nat) (f : Nat → Bool) : State :=
  s.foldNat (List.range 16) fun s d => s.modDrover d fun v =>
    { v with units := v.units.map fun u => if u.rail == r && f u.peer && !u.held then { u with departed := true } else u }

/-- The traffic state of a port that is not up: nothing in flight, no credits, no streams (R291, R292, R308). -/
def FabPort.quiet (p : FabPort) : FabPort :=
  { p with
    unacked := [], egress := [], txStream := [[], [], [], []], rxStream := [[], [], [], []]
    credits := [0, 0, 0, 0], advertised := [0, 0, 0, 0], nakOwed := false, rxNext := 0, txLast := 0, degradingTo := 0, draining := none }

/-- Training from step 1 (R285): electrical training. -/
def FabPort.train (p : FabPort) (now : Nat) : FabPort :=
  { p.quiet with
    state := 1, step := 1, stepSince := now, width := 0, lanes := 0, locked := 0, identSentAt := none }

/-- Step 3 of R285: identity flits. -/
def FabPort.identify (p : FabPort) (now : Nat) : FabPort :=
  { p with state := 2, step := 3, stepSince := now, identSentAt := none }

/-- A port that DISABLE holds down (R317). -/
def FabPort.rest (p : FabPort) (now : Nat) : FabPort :=
  { p.quiet with state := 7, step := 0, stepSince := now, lanes := 0, width := 0 }

/-- A port's drain has ended: it is disabled, with its report; one that was enabled again meanwhile trains from step 1 (R475,
R476). -/
def State.portDrained (s : State) (r : Nat) : State :=
  let s := (s.modPort r (·.rest s.now)).portEvent r 2
  if (s.port r).disable then s else s.modPort r fun p => p.train s.now

/-- The drains that `f` selects end. -/
def State.endDrains (s : State) (f : FabPort → Bool) (e : State → Nat → State) : State :=
  s.foldNat (List.range 8) fun s r => if (s.port r).draining.isSome && f (s.port r) then e s r else s

/-- A port's drain ends when every flit that it sent is acknowledged, or after 100 us (R475). -/
def FabPort.drainEnds (now : Nat) (p : FabPort) : Bool :=
  match p.draining with
  | none => false
  | some t => p.unacked.isEmpty || decide (t + us 100 ≤ now)

/-- A warm reset, HALT, trip or removal cuts a drain short: its report is not sent (R476). -/
def State.cutDrains (s : State) : State :=
  s.endDrains (fun _ => true) fun s r => s.modPort r fun p => if p.disable then p.rest s.now else p.train s.now

/-- A port goes down (R308): it leaves live, what its retry buffer held is lost, and it retrains from step 1; a drain ends with it
(R476). -/
def State.portDown (s : State) (r cause : Nat) : State :=
  let drains := (s.port r).draining.isSome
  let s := s.railLeaves r fun _ => true
  let s := s.modPort r fun p => { p.train s.now with state := 0 }
  let s := (s.fbEvent 1).logFault { kind := 9, unit := r, info := BitVec.ofNat 64 cause }
  let s := s.portEvent r 2
  if drains then s.portDrained r else s.modPort r fun p => { p with state := 1 }

/-- The lanes that carry a port whose failed lanes are `failed`: all, lanes 0-3, lanes 4-7, or none (R307). -/
def carryLanes (failed : BitVec 8) : BitVec 8 :=
  if failed == 0 then 0xFF else if failed &&& 0x0F == 0 then 0x0F else if failed &&& 0xF0 == 0 then 0xF0 else 0

/-- The width of a set of lanes. -/
def laneWidth (l : BitVec 8) : Nat := if l == 0xFF then 8 else if l == 0 then 0 else 4

/-- Both halves hold a failed lane (R308). -/
def FabPort.bothHalves (p : FabPort) : Bool := p.failed &&& 0x0F != 0 && p.failed &&& 0xF0 != 0

/-- The fabric's engines run: the gate die is powered and its firmware has started the ports (R434 step 3). -/
def State.portsRun (s : State) : Bool := s.bring.powered && s.bring.romDone

/-- The identity that this package sends on a port (R286). -/
def State.identity (s : State) (r : Nat) : Ident :=
  match s.fab.plan with
  | some p => ⟨Config.serial, p.rack, p.tray, p.slot, BitVec.ofNat 8 r, 1⟩
  | none => ⟨Config.serial, 0, 0, 0, BitVec.ofNat 8 r, 1⟩

/-- Step 5 of R285 begins: the port advertises its receive buffers, as credits in control-only flits (R290, R291). -/
def State.toCredits (s : State) (r : Nat) : State :=
  let s := s.modPort r fun p => { p with step := 5, stepSince := s.now, advertised := rxBuffers }
  rxBuffers.zipIdx.foldl (fun s (n, c) =>
    s.foldNat (List.range (ceilDiv n 255)) fun s i => s.emit (.flit r ((s.port r).control c (min 255 (n - 255 * i))))) s

/-- Step 4 of R285: compare the far identity with the plan (R287). -/
def State.judge (s : State) (r : Nat) (far : Ident) : State :=
  match s.fab.plan.bind fun p => p.ports[r]? with
  | none => s.modPort r fun p => { p with state := 3, step := 4, stepSince := s.now }
  | some (want, enable) =>
    if !enable then s.modPort r fun p => { p with state := 3, step := 4, stepSince := s.now }
    else if want == far || (s.port r).forceUp then s.toCredits r
    else ((s.modPort r fun p => { p with state := 4, step := 4, stepSince := s.now }).fbEvent 0).portEvent r 4

/-! ### The commands -/

/-- PORT_LANE_LOCK (R285 steps 1 and 2): lanes that do not lock are failed; the port takes width 8 or 4. -/
def execPortLaneLock (r : Nat) (locked : BitVec 8) (s : State) : Res :=
  let p := s.port r
  if 8 ≤ r || !s.portsRun || p.step != 1 || p.disable then .next s
  else
    let failed := p.failed ||| ~~~ locked
    let l := carryLanes failed
    .next (s.modPort r fun p =>
      let p := { p with locked := locked, failed := failed, lanes := l, width := laneWidth l, step := 2, stepSince := s.now }
      if l == 0 then p else p.identify s.now)

/-- IDENTITY_FLIT_SEND (R285 step 3): every 10 us until the other end's identity arrives. -/
def execIdentityFlitSend (r : Nat) (s : State) : Res :=
  let p := s.port r
  let due := match p.identSentAt with | none => true | some t => t + us 10 ≤ s.now
  if 8 ≤ r || !s.portsRun || p.step != 3 || p.disable || !due then .next s
  else .next ((s.modPort r fun p => { p with identSentAt := some s.now }).emit (.flit r (p.identityFlit (s.identity r))))

/-- IDENTITY_FLIT_RX (R285 steps 3 and 4, R286, R287): the record in the flit's message bytes. -/
def execIdentityFlitRx (r : Nat) (record : Bytes) (s : State) : Res :=
  let p := s.port r
  let ident := Ident.ofBytes record
  if 8 ≤ r || !s.portsRun || p.step != 3 || p.disable then .next s
  else .next ((s.modPort r fun p => { p with far := some ident, lastRx := s.now }).judge r ident)

/-- CREDIT_INIT_DONE (R285 steps 5 and 6): the port is up with the far end's credits. -/
def execCreditInitDone (r : Nat) (credits : List Nat) (s : State) : Res :=
  let p := s.port r
  if 8 ≤ r || !s.portsRun || p.step != 5 || p.disable || credits.length != 4 then .next s
  else .next ((s.modPort r fun p => { p with
      state := 5, step := 6, stepSince := s.now, credits := credits, lastRx := s.now }).portEvent r 3)

/-- The limit of a training step in ns (R285); step 4 has none. -/
def stepLimit : Nat → Option Nat
  | 1 => some (ms 200)
  | 2 => some (ms 1)
  | 3 => some (ms 1)
  | 5 => some (us 10)
  | _ => none

/-- TRAIN_STEP_TIMEOUT (R285): a step exceeds its limit; the port waits 1 s before step 1. -/
def execTrainStepTimeout (r : Nat) (s : State) : Res :=
  let p := s.port r
  match stepLimit p.step with
  | none => .next s
  | some l =>
    if 8 ≤ r || !s.portsRun || p.disable || s.now ≤ p.stepSince + l then .next s
    else .next (s.modPort r fun p => { p.train s.now with state := 0, step := 0 })

/-- TRAINING_RESTART (R285): 1 s after the limit, step 1 begins again. -/
def execTrainingRestart (r : Nat) (s : State) : Res :=
  let p := s.port r
  if 8 ≤ r || !s.portsRun || p.disable || p.step != 0 || s.now < p.stepSince + ms 1000 then .next s
  else .next (s.modPort r fun p => p.train s.now)

/-- Every flit of the retry buffer is sent again (R292, R307). -/
def State.replay (s : State) (r : Nat) : State :=
  let p := s.port r
  let l := p.unacked.map fun f => { f with replays := f.replays + 1 }
  let s := s.modPort r fun p => { p with unacked := l, replays := satAdd 16 p.replays l.length }
  { s with out := (l.map fun f => Out.flit r (p.frame f)).reverse ++ s.out }

/-- LANE_FAIL (R307): the lane is failed; the port degrades to the half without a failed lane, within 20 us (free), and replays.
A port in training goes on at that width; one left without a half must align again (R285 step 2). -/
def execLaneFail (r : Nat) (lane : BitVec 3) (codewords : Bool) (s : State) : Res :=
  let p := s.port r
  if 8 ≤ r || !s.portsRun || p.failed.getLsbD lane.toNat || (p.disable && p.draining.isNone) || p.step < 2 then .next s
  else
    let failed := putBit p.failed lane.toNat true
    let l := carryLanes failed
    let s := s.modPort r fun p => { p with failed := failed, locked := if codewords then p.locked else putBit p.locked lane.toNat false }
    let s := s.logFault { kind := 8, unit := r * 256 + lane.toNat, info := if codewords then 2 else 1 }
    if l == p.lanes then .next s
    else if l == 0 then
      .next (if p.state == 5 then s
        else s.modPort r fun p => { p with lanes := 0, width := 0, state := 1, step := 2, stepSince := s.now })
    else
      let (d, s) := s.draw
      let up := p.state == 5
      let s := s.modPort r fun p => { p with
        lanes := l, width := 4, degradingTo := if up then s.now + (Config.openValue d).toNat % (us 20 + 1) else p.degradingTo }
      .next (((if up then s.replay r else s).fbEvent 2).portEvent r 1)

/-- PORT_DOWN (R308): both halves hold a failed lane, or a flit has been replayed 16 times in a row. -/
def execPortDown (r : Nat) (s : State) : Res :=
  let p := s.port r
  if 8 ≤ r || !s.portsRun || p.state != 5 then .next s
  else if p.bothHalves then .next (s.portDown r 1)
  else if p.unacked.any fun f => 16 ≤ f.replays then .next (s.portDown r 2)
  else .next s

/-- FAR_END_SILENT (R308): the far end has sent nothing for 100 us. -/
def execFarEndSilent (r : Nat) (s : State) : Res :=
  let p := s.port r
  if 8 ≤ r || !s.portsRun || p.state != 5 || s.now < p.lastRx + us 100 then .next s
  else .next (s.portDown r 3)

/-! ### Receiving flits (R289, R291, R292) -/

/-- Flits up to and including `ack` are acknowledged. -/
def dropAcked (l : List SentFlit) (ack : BitVec 12) : List SentFlit :=
  if l.any (fun f => f.seq == ack) then (l.dropWhile fun f => f.seq != ack).drop 1 else l

/-- What a flit's ACK, NAK and credits do at the sender (R289, R291, R292). -/
def State.flitBack (s : State) (r : Nat) (f : Flit) : State :=
  let s := s.modPort r fun p => { p with
    unacked := dropAcked p.unacked f.ack, credits := p.credits.set f.creditClass (p.credit f.creditClass + f.credits) }
  let s := (if f.nak then s.replay r else s).pushPort r
  if (s.port r).drainEnds s.now then s.portDrained r else s

/-- A good message flit in order is accepted: it is acknowledged, its buffer is freed and its credit returned, and the messages
that it completes come out of its class's stream (R289, R291, R292). -/
def State.acceptFlit (s : State) (r : Nat) (f : Flit) : List (BitVec 8 × Msg) × State :=
  let b := (s.port r).rxStream.getD f.cls [] ++ f.body
  let (l, rest) := takeMsgs r (b.length / 32 + 1) b
  let s := s.modPort r fun p => { p with
    rxNext := p.rxNext + 1, nakOwed := false, rxStream := p.rxStream.set f.cls rest }
  (l, s.emit (.flit r ((s.port r).control f.cls 1)))

/-- A flit reaches port `r` (R292): the codewords of its FEC count; a bad one is discarded and a NAK goes back; the messages that a
good one completes. -/
def State.takeFlit (s : State) (r : Nat) (f : Flit) : List (BitVec 8 × Msg) × State :=
  let s := s.modPort r fun p => { p with
    lastRx := s.now, corrected := satAdd 32 p.corrected f.corrected, uncorrected := satAdd 16 p.uncorrected f.uncorrected }
  if !f.good then
    let s := s.modPort r fun p => { p with nakOwed := true }
    ([], s.emit (.flit r ((s.port r).control 0 0)))
  else if f.ftype == 1 then
    if f.seq != (s.port r).rxNext then ([], s) else (s.flitBack r f).acceptFlit r f
  else if f.ftype == 0 || f.ftype == 3 then ([], s.flitBack r f)
  else ([], s)

end Sys2Proof.Machine
end

