-- ==== Sys2Proof/Machine/Power.lean ====
section
/-!
DEFINITION. Power arithmetic (13_power_thermal.md R376-R393): the envelope and its shares, modelled energy, measured energy and
the draw ledger. Energies are exact, in units of 0.01 pJ / 3750^2, so that V(f) / 0.75 V is (1050 + f) / 3750 (R382).
-/

namespace Sys2Proof.Machine

/-- Energy units in one joule. -/
def joule : Nat := 10 ^ 14 * 3750 ^ 2

/-- Energy units in one microjoule. -/
def microjoule : Nat := 10 ^ 8 * 3750 ^ 2

/-! ### The envelope (R376-R380) -/

/-- The envelope in force changes (R378). -/
def State.setEnvelope (s : State) (w source : Nat) (lease : Option Nat) : State :=
  { s with gov := { s.gov with
    envelope := w, source := source, leaseEnd := lease, envLog := (s.now, w) :: s.gov.envLog
    openFallback := s.gov.openFallback || source != 1 } }

/-- Put the package on its fallback envelope (R378). -/
def State.toFallback (s : State) (source : Nat) : State := s.setEnvelope s.nv.fallbackW source none

/-- Milliseconds of lease left. -/
def State.leaseLeft (s : State) : Nat := match s.gov.leaseEnd with | some t => (t - s.now) / ms 1 | none => 0

/-- The share of partition `p` in eighths of a watt (R380). -/
def State.share8 (s : State) (_p : Nat) : Nat := (s.gov.envelope - 320) * s.eighths

/-- The share of `e8` eighths of a watt over a 10 us period, in energy units. -/
def shareTick (e8 : Nat) : Nat := e8 * (joule / 800000)

/-- worst_w over a 10 us period at `f` MHz for `e` eighths (R382). -/
def worstTick (e f : Nat) : Nat :=
  128 * e * (1232000 * f * (1050 + f) ^ 2 + 300000000 * 3750 * (1050 + f)) + e * 65500000000 * 3750 ^ 2

/-- An island's holding energy of one nanosecond at `f` MHz (R391). -/
def holdNs (f : Nat) : Nat := 30000 * 3750 * (1050 + f)

/-- Holding energy of `e` units goes to partition `p`, and to the context held, or to the idle energy (R390). -/
def State.chargeHold (s : State) (p : Nat) (c : Option Nat) (e : Nat) : State :=
  let s := s.modPart p fun q => { q with gov := { q.gov with
    energy := q.gov.energy + e, hold := q.gov.hold + e, idle := if c.isNone then q.gov.idle + e else q.gov.idle } }
  match c with
  | some c => s.modCtx c fun k => { k with energy := k.energy + e }
  | none => s

/-- The islands of partition `p` charge their holding energy of `ns` nanoseconds, each at its present target: to the context that
its station holds, or to the idle energy of a partition without a holder (R390). -/
def State.chargeHolding (s : State) (ns p : Nat) : State :=
  s.foldNat (s.stnsOfPart p) fun s st =>
    let e := ns * holdNs (s.stn st).island.target
    match (s.stn st).ctx with
    | some c => s.chargeHold p (some c) e
    | none => if (s.part p).holder.isSome then s else s.chargeHold p none e

/-- Modelled power of the last whole millisecond in W (R406). -/
def PartGov.watts (g : PartGov) : Nat := g.lastMs * 1000 / joule

/-- An energy as a register shows it: in uJ, saturated (R406). -/
def energyUj (e : Nat) : Nat := min (2 ^ 64 - 1) (e / microjoule)

/-! ### Measured power (R386) -/

/-- The package stands in GATE_MODE 0x03 after a trip or a save throughout `[x, y)` (R489). -/
def State.quietFor (s : State) (x y : Nat) : Bool :=
  s.gov.quiet.any fun (a, b) => decide (a ≤ x) && b.all (decide <| y ≤ ·)

/-- Measured energy of `[x, y)`, which lies in one millisecond, in pJ: none before metering began; at most 90 W in GATE_MODE 0x03 after
a trip or a save (R386, R489). -/
def State.partPj (s : State) (x y : Nat) : Nat :=
  match s.gov.meterSince with
  | none => 0
  | some t =>
    let x := max x t
    if y ≤ x then 0
    else
      let e := if y == x + ms 1 && x % ms 1 == 0 then Config.inputPower s.gov.powerUps (x / ms 1) * ms 1
        else Config.inputPart s.gov.powerUps x y
      if s.quietFor x y then min e (90000 * (y - x)) else e

/-- The average input power of millisecond `m`, in mW. -/
def State.milli (s : State) (m : Nat) : Nat := s.partPj (ms m) (ms (m + 1)) / ms 1

/-- Measured energy of `[x, y)`, in pJ: its milliseconds, whole or in part. -/
def State.measuredPj (s : State) (x y : Nat) : Nat :=
  let a := x / ms 1
  ((List.range (ceilDiv y (ms 1) - a)).map fun i => s.partPj (max x (ms (a + i))) (min y (ms (a + i + 1)))).sum

/-- MEASURED_MJ (R406): energy since metering began, to the last whole millisecond. -/
def State.measuredMj (s : State) : Nat :=
  match s.gov.meterSince with
  | none => 0
  | some t => s.measuredPj t (ms (s.now / ms 1)) / 10 ^ 9

/-! ### The draw ledger (R386, R387) -/

/-- The envelopes in force at some moment of `[a, b)`, from a log newest first. -/
def envsIn (log : List (Nat × Nat)) (a b : Nat) : List Nat :=
  let inside := (log.filter fun (t, _) => a < t && t < b).map (·.2)
  match log.find? fun (t, _) => t ≤ a with
  | some (_, w) => w :: inside
  | none => inside

/-- The highest envelope in force in `[a, b)`. -/
def envMax (log : List (Nat × Nat)) (a b : Nat) : Nat := (envsIn log a b).foldl max 0

/-- The integral of the envelope over `[a, b)`, in W ns: each change in force until the next, from a log newest first. -/
def envIntegral : List (Nat × Nat) → Nat → Nat → Nat
  | [], _, _ => 0
  | (t, w) :: rest, a, b =>
    if b ≤ t then envIntegral rest a b
    else if t ≤ a then w * (b - a)
    else w * (b - t) + envIntegral rest a t

/-- Runs of `true`: how many, and the longest. -/
def overRuns (l : List Bool) : Nat × Nat :=
  let (n, best, cur) := l.foldl (fun (acc : Nat × Nat × Nat) b =>
    let (n, best, cur) := acc
    if b then (if cur == 0 then n + 1 else n, max best (cur + 1), cur + 1) else (n, best, 0)) (0, 0, 0)
  (n, max best cur)

/-- The record of the open window up to `end_` ns (R387): its energy covers what the allowed energy covers; its 1 ms averages are those of
its whole milliseconds. -/
def State.openRecord (s : State) (end_ : Nat) (isOpen gasp : Bool) : LedgerRec :=
  let n := s.gov.openWindow
  let log := s.gov.envLog
  let a := ceilDiv s.gov.openStart (ms 1)
  let b := end_ / ms 1
  let mss := (List.range (b - a)).map (a + ·)
  let over_ := mss.map fun m => decide (envMax log (ms m) (ms (m + 1)) * 1000 < s.milli m)
  let first := s.gov.openStart / ms 1000
  let secs := (List.range (end_ / ms 1000 + 1 - first)).map (first + ·)
  let secPj (k : Nat) : Nat := s.measuredPj (max s.gov.openStart (ms (1000 * k))) (min end_ (ms (1000 * k + 1000)))
  let peak := (secs.map secPj).foldl max 0
  let peakAt := (secs.find? fun k => secPj k == peak).getD n
  let ok := secs.all (fun k => secPj k ≤ envMax log (ms (1000 * k)) (ms (1000 * k + 1000)) * 10 ^ 12) &&
    mss.all (fun m => s.milli m * 20 ≤ envMax log (ms m) (ms (m + 1)) * 1000 * 23) && (overRuns over_).2 ≤ 100
  let len := (end_ - s.gov.openStart) / ms 1
  { window := n
    flags := b2n (s.gov.openStart != ms (60000 * n)) + 2 * b2n ok + 4 * b2n isOpen + 8 * b2n gasp +
      16 * b2n s.gov.openFallback + 32 * b2n s.gov.openBreach
    startUs := s.gov.openStart / 1000
    lengthMs := len
    peak1sW := peak / 10 ^ 12
    energyMj := s.measuredPj s.gov.openStart end_ / 10 ^ 9
    allowedMj := envIntegral log s.gov.openStart end_ / ms 1
    modelMj := s.gov.openModel / (joule / 1000) + 320 * len
    excursions := (overRuns over_).1
    longestMs := (overRuns over_).2
    peak1msW := (mss.map s.milli).foldl max 0 / 1000
    peakAtMs := 1000 * peakAt - 60000 * n }

/-- A ledger record's bytes, big-endian as in a reply (R387). -/
def LedgerRec.toBytes (r : LedgerRec) : Bytes :=
  toBe 4 r.window ++ toBe 4 r.flags ++ toBe 8 r.startUs ++ toBe 4 r.lengthMs ++ toBe 4 r.peak1sW ++ toBe 8 r.energyMj ++
    toBe 8 r.allowedMj ++ toBe 8 r.modelMj ++ toBe 2 r.excursions ++ toBe 2 r.longestMs ++ toBe 4 r.peak1msW ++
    toBe 4 r.peakAtMs ++ toBe 4 0

/-- Metering begins, with the window of this moment (R386). -/
def State.startMetering (s : State) : State :=
  if s.gov.meterSince.isSome then s
  else { s with gov := { s.gov with
    meterSince := some s.now, openWindow := s.now / ms 60000, openStart := s.now, openFallback := s.gov.source != 1
    envLog := [(s.now, s.gov.envelope)], openModel := 0, openBreach := false } }

/-- Two averages of GV_POWER: the last whole millisecond and the last whole aligned second, in W. -/
def State.lastMilliW (s : State) : Nat := let m := s.now / ms 1; if m == 0 then 0 else s.milli (m - 1) / 1000
/-- SECOND_W (R406). -/
def State.lastSecondW (s : State) : Nat :=
  let k := s.second; if k == 0 then 0 else s.measuredPj (ms (1000 * (k - 1))) (ms (1000 * k)) / 10 ^ 12

end Sys2Proof.Machine
end

