-- ==== Sys2Proof/Machine/Itinerary.lean ====
section
/-!
DEFINITION. The itinerary container read from its bytes (04_station_instructions.md R123-R130, 07_central_store.md R185-R188,
08_kv_pages.md R213, 09_experts.md R254, R255, 10_brisor_fabric.md R314, 03_number_formats.md R86). Reading is total; Loader.lean
checks.
-/

namespace Sys2Proof.Machine

/-- A section: its type, file offset and length. -/
structure Section where
  kind : Nat
  flags : Nat
  rsv : Nat
  off : Nat
  len : Nat
deriving DecidableEq, Repr

/-- The section table (R125). -/
def sectionsOf (f : Bytes) : List Section :=
  (List.range (leAt f 16 2)).map fun i =>
    let o := 128 + 24 * i
    ⟨leAt f o 2, leAt f (o + 2) 2, leAt f (o + 4) 4, leAt f (o + 8) 8, leAt f (o + 16) 8⟩

/-- The section of a type. -/
def findSection (l : List Section) (t : Nat) : Option Section := l.find? (·.kind == t)

/-- Bytes of a section; none when it is absent. -/
def sectionBytes (f : Bytes) (l : List Section) (t : Nat) : Bytes :=
  match findSection l t with
  | some s => slice f s.off s.len
  | none => []

/-- File offset of a section. -/
def sectionOff (l : List Section) (t : Nat) : Nat :=
  match findSection l t with
  | some s => s.off
  | none => 0

/-- The entries of `n` bytes of a table. -/
def tableOf {α : Type} (b : Bytes) (n : Nat) (g : Nat → α) : List α := (List.range (b.length / n)).map fun i => g (n * i)

/-- The bundle words of a stream. -/
def wordsOf (b : Bytes) (off n : Nat) : List (BitVec 256) := (List.range n).map fun i => BitVec.ofNat 256 (leAt b (off + 32 * i) 32)

/-- STATIONS with its streams (R126). -/
def readStreams (st stream : Bytes) : List StreamDecl :=
  tableOf st 32 fun o => ⟨leAt st o 2, leAt st (o + 4) 4, leAt st (o + 24) 8, wordsOf stream (leAt st (o + 8) 8) (leAt st (o + 16) 4)⟩

/-- LAYOUT (R127). -/
def readRegions (b : Bytes) : List Region :=
  tableOf b 32 fun o => ⟨leAt b o 8, leAt b (o + 8) 8, BitVec.ofNat 8 (leAt b (o + 16) 1), BitVec.ofNat 16 (leAt b (o + 18) 2)⟩

/-- Members of a barrier mask (R128). -/
def readMembers (b : Bytes) (o : Nat) : List Nat := (List.range 1024).filter fun i => bitOf (leAt b (o + 8 + i / 8) 1) (i % 8)

/-- POLICY (R86). -/
def readPolicy (b : Bytes) : Policy :=
  { satLimit := leAt b 0 2, flushLimit := leAt b 2 2, cap := leAt b 4 2, allow := leAt b 6 2, detourCycles := leAt b 8 4
    boundExt := leAt b 12 4, stormEvent := bitOf (leAt b 16 1) 0 }

/-- TENSORS (R128). -/
def readTensors (b : Bytes) : List Tensor :=
  tableOf b 32 fun o => ⟨leAt b o 4, BitVec.ofNat 8 (leAt b (o + 4) 1), bitOf (leAt b (o + 5) 1) 0, bitOf (leAt b (o + 5) 1) 1,
    leAt b (o + 8) 8, leAt b (o + 16) 8, leAt b (o + 24) 8⟩

/-- Offsets of the tables of a CARAVAN section (R185): image regions, groups, entries, end. -/
def caravanTables (b : Bytes) : Nat × Nat × Nat × Nat :=
  let r := 64 + 8 * leAt b 16 2
  let g := r + 32 * leAt b 18 2
  let e := g + 16 * leAt b 20 2
  (r, g, e, e + 32 * leAt b 24 4)

/-- CARAVAN (R185-R188). -/
def readCaravan (b : Bytes) : Caravan :=
  let (r, g, e, _) := caravanTables b
  { imageId := leAt b 0 8, cyclic := bitOf (leAt b 22 2) 0
    storeSeeds := (List.range (leAt b 16 2)).map fun i => BitVec.ofNat 64 (leAt b (64 + 8 * i) 8)
    regions := (List.range (leAt b 18 2)).map fun i =>
      let o := r + 32 * i
      ⟨leAt b o 8, leAt b (o + 8) 8, BitVec.ofNat 64 (leAt b (o + 16) 8), leAt b (o + 24) 2⟩
    groups := (List.range (leAt b 20 2)).map fun i =>
      let o := g + 16 * i
      ⟨leAt b o 4, leAt b (o + 4) 4, leAt b (o + 8) 4, leAt b (o + 12) 1, leAt b (o + 13) 1, leAt b (o + 14) 1⟩
    entries := (List.range (leAt b 24 4)).map fun i =>
      let o := e + 32 * i
      ⟨leAt b o 4, bitOf (leAt b (o + 4) 1) 0, leAt b (o + 5) 1, leAt b (o + 8) 8, leAt b (o + 16) 8, leAt b (o + 24) 4⟩ }

/-- KVCONF (R213). -/
def readKv (b : Bytes) : KvConf :=
  { tokenBytes := leAt b 0 4, layers := leAt b 4 2, seqMax := leAt b 6 2, tokensMax := leAt b 8 4, ledger := bitOf (leAt b 12 4) 0
    btBase := leAt b 16 8, frameBase := leAt b 24 8, frameGroups := leAt b 32 4, stageFrames := leAt b 36 2
    stageBase := leAt b 40 8, listBase := leAt b 48 8, listItems := leAt b 56 4, poolPages := leAt b 64 8
    modelTag := BitVec.ofNat 64 (leAt b 72 8), tokenBase := leAt b 80 8 }

/-- A plan's entries from offset `o` (R270). -/
def readQuotas (b : Bytes) (o n : Nat) : List Quota :=
  (List.range n).map fun i => ⟨leAt b (o + 8 * i) 2, leAt b (o + 8 * i + 2) 2, leAt b (o + 8 * i + 4) 2⟩

/-- Offsets of the tables of a STEPPLAN section (R254): groups, initial plan, end. -/
def planTables (b : Bytes) : Nat × Nat × Nat :=
  let g := 128 + 8 * leAt b 2 2 * leAt b 0 2
  let p := g + 64 * leAt b 5 1
  (g, p, p + 8 * leAt b 76 4)

/-- STEPPLAN (R254, R255). -/
def readStepPlan (b : Bytes) : StepPlan :=
  let (g, p, _) := planTables b
  { experts := leAt b 0 2, moeLayers := leAt b 2 2, topK := leAt b 4 1, lanes := leAt b 6 1, routeMax := leAt b 8 4
    serveRows := leAt b 12 4, actBytes := leAt b 16 4, resultBytes := leAt b 20 4, shipMax := leAt b 24 4
    threshold := leAt b 28 2, hysteresis := leAt b 30 2, deadlineNs := leAt b 32 4, caravanBase := leAt b 36 4
    arrivalBase := leAt b 40 8, histBase := leAt b 48 8, histSlots := leAt b 56 4, histSlotBytes := leAt b 60 4
    planBase := leAt b 64 8, planBytes := leAt b 72 4
    homes := (List.range (leAt b 0 2 * leAt b 2 2)).map fun i =>
      let o := 128 + 8 * i
      ⟨leAt b o 2, leAt b (o + 2) 2, leAt b (o + 4) 4⟩
    groups := (List.range (leAt b 5 1)).map fun i =>
      let o := g + 64 * i
      ⟨leAt b o 2, leAt b (o + 2) 2, leAt b (o + 4) 1, leAt b (o + 5) 1, leAt b (o + 6) 1, leAt b (o + 8) 8, leAt b (o + 16) 8,
        leAt b (o + 24) 8, leAt b (o + 32) 4⟩
    initPlan := readQuotas b p (leAt b 76 4) }

/-- PEERS (R314). -/
def readPeers (b : Bytes) : Peers := ⟨leAt b 2 2, (List.range (leAt b 0 2)).map fun i => leAt b (16 + 4 * i) 1⟩

/-- The itinerary that a file declares. -/
def readItin (f : Bytes) : Itin :=
  let l := sectionsOf f
  let sec (t : Nat) : Bytes := sectionBytes f l t
  let opt {α : Type} (t : Nat) (g : Bytes → α) : Option α := (findSection l t).map fun s => g (slice f s.off s.len)
  { eighths := leAt f 26 1, stepPlanMode := bitOf (leAt f 18 2) 0, firstBound := leAt f 30 2, stackMask := leAt f 32 4
    job := BitVec.ofNat 32 (leAt f 36 4), storeBytes := leAt f 40 8, hbmBytes := leAt f 48 8
    streams := readStreams (sec 1) (sec 2), regions := readRegions (sec 3)
    bounds := (List.range (leAt (sec 4) 0 2)).map fun i => leAt (sec 4) (8 + 8 * i) 8
    shapes := tableOf (sec 5) 16 fun o => ⟨leAt (sec 5) o 1, leAt (sec 5) (o + 4) 4, leAt (sec 5) (o + 8) 8⟩
    barriers := tableOf (sec 6) 136 fun o => ⟨leAt (sec 6) o 1, readMembers (sec 6) o⟩
    policy := match findSection l 7 with | some _ => readPolicy (sec 7) | none => {}
    summary := opt 8 fun b => (leAt b 0 8, leAt b 8 4)
    tensors := readTensors (sec 9)
    wideRef := tableOf (sec 10) 8 fun o => (leAt (sec 10) o 4, leAt (sec 10) (o + 4) 4)
    caravan := opt 11 readCaravan, stepPlan := opt 12 readStepPlan, kv := opt 13 readKv, peers := opt 14 readPeers }

/-- A tensor of the table. -/
def Itin.tensor (it : Itin) (id : Nat) : Option Tensor := it.tensors.find? (·.id == id)

/-- The wide tensor that WIDEREF puts in place of a tensor (R128). -/
def Itin.wide (it : Itin) (id : Nat) : Option Tensor :=
  match it.wideRef.find? (·.1 == id) with
  | some (_, w) => it.tensor w
  | none => none

/-- The home-map entry of an expert of a layer (R255). -/
def StepPlan.home (p : StepPlan) (layer expert : Nat) : Option HomeDecl :=
  if expert < p.experts then p.homes[layer * p.experts + expert]? else none

end Sys2Proof.Machine
end

