-- ==== Sys2Proof/Machine/Number.lean ====
section
/-!
DEFINITION. Number formats and exact arithmetic (03_number_formats.md R64-R79): exact dyadic values, IEEE encodings with one
rounding, element encodings and their scales, narrow conversions and the exact dot product.
-/

namespace Sys2Proof.Machine

/-! ### Exact values -/

/-- An exact value: NaN, a signed infinity, or `(-1)^neg * m * 2^e`; a zero keeps its sign. -/
inductive Num
  | nan
  | inf (neg : Bool)
  | fin (neg : Bool) (m : Nat) (e : Int)
deriving DecidableEq, Repr

/-- +0. -/
def Num.zero : Num := .fin false 0 0

/-- The value is NaN. -/
def Num.isNan (x : Num) : Bool := x == .nan

/-- The value is neither NaN nor infinite. -/
def Num.isFin : Num → Bool
  | .fin .. => true
  | _ => false

/-- The value is zero. -/
def Num.isZero : Num → Bool
  | .fin _ m _ => m == 0
  | _ => false

/-- The sign bit. -/
def Num.neg? : Num → Bool
  | .nan => false
  | .inf s => s
  | .fin s _ _ => s

/-- The value with its sign set. -/
def Num.withSign (s : Bool) : Num → Num
  | .nan => .nan
  | .inf _ => .inf s
  | .fin _ m e => .fin s m e

/-- The negated value. -/
def Num.negate (x : Num) : Num := x.withSign (!x.neg?)

/-- The value times `2^k`. -/
def Num.scale (k : Int) : Num → Num
  | .fin s m e => .fin s m (e + k)
  | x => x

/-- The signed integer `m` of a finite value brought to exponent `e`, at most its own. -/
def Num.at (e : Int) : Num → Int
  | .fin s m f => (if s then -1 else 1) * (m * 2 ^ (f - e).toNat : Nat)
  | _ => 0

/-- An integer times `2^e`; zero is +0. -/
def Num.ofInt (v : Int) (e : Int) : Num := .fin (decide (v < 0)) v.natAbs e

/-- Exact sum (R146); a zero sum is +0 but of two zeros of sign minus. -/
def Num.add (x y : Num) : Num :=
  match x, y with
  | .nan, _ | _, .nan => .nan
  | .inf a, .inf b => if a == b then .inf a else .nan
  | .inf a, _ | _, .inf a => .inf a
  | .fin a m e, .fin b n f =>
    if m == 0 && n == 0 then .fin (a && b) 0 0
    else let g := min e f; .ofInt ((Num.fin a m e).at g + (Num.fin b n f).at g) g

/-- Exact product. -/
def Num.mul (x y : Num) : Num :=
  match x, y with
  | .nan, _ | _, .nan => .nan
  | .inf a, .inf b => .inf (a != b)
  | .inf a, .fin b m _ | .fin b m _, .inf a => if m == 0 then .nan else .inf (a != b)
  | .fin a m e, .fin b n f => .fin (a != b) (m * n) (e + f)

/-- `x < y` for values that are not NaN; -0 is below +0 (R148). -/
def Num.lt (x y : Num) : Bool :=
  match x, y with
  | .nan, _ | _, .nan => false
  | .inf a, .inf b => a && !b
  | .inf a, .fin .. => a
  | .fin .., .inf b => !b
  | .fin a m e, .fin b n f =>
    if m == 0 && n == 0 then a && !b
    else let g := min e f; decide ((Num.fin a m e).at g < (Num.fin b n f).at g)

/-- Larger of two values; NaN when either is. -/
def Num.max (x y : Num) : Num := if x.isNan || y.isNan then .nan else if x.lt y then y else x
/-- Smaller of two values; NaN when either is. -/
def Num.min (x y : Num) : Num := if x.isNan || y.isNan then .nan else if y.lt x then y else x

/-! ### IEEE encodings (R64, R67, R146) -/

/-- A floating-point encoding: exponent and mantissa bits. -/
structure FpFmt where
  e : Nat
  m : Nat
deriving DecidableEq, Repr

/-- FP32. -/
def FpFmt.f32 : FpFmt := ⟨8, 23⟩
/-- BF16. -/
def FpFmt.bf16 : FpFmt := ⟨8, 7⟩
/-- FP16. -/
def FpFmt.f16 : FpFmt := ⟨5, 10⟩
/-- FP8 E5M2. -/
def FpFmt.e5m2 : FpFmt := ⟨5, 2⟩
/-- FP8 E4M3. -/
def FpFmt.e4m3 : FpFmt := ⟨4, 3⟩
/-- E2M1. -/
def FpFmt.e2m1 : FpFmt := ⟨2, 1⟩
/-- E2M3. -/
def FpFmt.e2m3 : FpFmt := ⟨2, 3⟩
/-- E3M2. -/
def FpFmt.e3m2 : FpFmt := ⟨3, 2⟩

/-- Bits of an encoding. -/
def FpFmt.bits (f : FpFmt) : Nat := 1 + f.e + f.m
/-- Exponent bias (R66). -/
def FpFmt.bias (f : FpFmt) : Int := 2 ^ (f.e - 1) - 1
/-- Exponent of the smallest subnormal. -/
def FpFmt.low (f : FpFmt) : Int := 1 - f.bias - f.m

/-- The value of a code whose every exponent is finite. -/
def FpFmt.finite (f : FpFmt) (v : Nat) : Num :=
  let s := bitOf v (f.e + f.m)
  let x := bitsOf v f.m f.e
  let n := bitsOf v 0 f.m
  if x == 0 then .fin s n f.low else .fin s (2 ^ f.m + n) (f.low + (x - 1 : Nat))

/-- The value of an IEEE code: the top exponent holds infinities and NaNs. -/
def FpFmt.ieee (f : FpFmt) (v : Nat) : Num :=
  if bitsOf v f.m f.e == 2 ^ f.e - 1 then
    if bitsOf v 0 f.m == 0 then .inf (bitOf v (f.e + f.m)) else .nan
  else f.finite v

/-- A quotient by a power of two, rounded to nearest with ties to even. -/
def rne (m d : Nat) : Nat :=
  let q := m / 2 ^ d
  let r := m % 2 ^ d
  let h := 2 ^ d
  if 2 * r < h then q else if h < 2 * r then q + 1 else q + q % 2

/-- The magnitude code of `m * 2^e` on the encoding's grid continued without an upper end (R74), rounded to nearest even. -/
def FpFmt.magnitude (f : FpFmt) (m : Nat) (e : Int) : Nat :=
  if m == 0 then 0
  else
    let q := max ((Nat.log2 m : Int) + e - f.m) f.low
    let n := if q ≤ e then m * 2 ^ (e - q).toNat else rne m (q - e).toNat
    (q - f.low).toNat * 2 ^ f.m + n

/-- A sign bit above the magnitude. -/
def FpFmt.signed (f : FpFmt) (s : Bool) (v : Nat) : Nat := b2n s * 2 ^ (f.e + f.m) + v

/-- The IEEE code of a value, rounded once to nearest even; overflow gives a signed infinity, NaN the canonical pattern (R67,
R146). -/
def FpFmt.encode (f : FpFmt) : Num → Nat
  | .nan => (2 ^ f.e - 1) * 2 ^ f.m + 2 ^ (f.m - 1)
  | .inf s => f.signed s ((2 ^ f.e - 1) * 2 ^ f.m)
  | .fin s m e => f.signed s (min (f.magnitude m e) ((2 ^ f.e - 1) * 2 ^ f.m))

/-- The value of an FP32 pattern. -/
def f32 (b : BitVec 32) : Num := FpFmt.f32.ieee b.toNat
/-- The FP32 pattern of a value. -/
def toF32 (x : Num) : BitVec 32 := BitVec.ofNat 32 (FpFmt.f32.encode x)

/-- E4M3's value: S.1111.111 is NaN and there is no infinity (R66). -/
def e4m3 (v : Nat) : Num := if v % 128 == 127 then .nan else FpFmt.e4m3.finite v

/-! ### Element formats of chunk records (R64, R66-R73) -/

/-- Two's complement of `w` bits. -/
def twos (w v : Nat) : Int := if bitOf v (w - 1) then (v : Int) - 2 ^ w else v

/-- Element bits of a weave or vector format, by its code of R129. -/
def elemBits : Nat → Nat
  | 1 | 7 | 9 => 4
  | 2 | 3 => 6
  | 4 | 5 | 6 | 10 | 13 | 14 => 8
  | 8 => 2
  | 11 | 12 => 16
  | 15 => 32
  | _ => 0

/-- Chunk record bytes (R64). -/
def recordLen : Nat → Nat
  | 1 | 7 => 136
  | 2 | 3 => 200
  | 4 | 5 | 6 => 264
  | 8 => 68
  | 9 => 128
  | 10 | 13 | 14 => 256
  | 11 | 12 => 512
  | 15 => 1024
  | _ => 0

/-- An MX format (R64). -/
def isMx (f : Nat) : Bool := 1 ≤ f && f ≤ 6

/-- Code `i` of the element stream of a record (R68). -/
def elemCode (f : Nat) (rec_ : Bytes) (i : Nat) : Nat :=
  let b := elemBits f
  let lo := b * i
  bitsOf (leAt rec_ (lo / 8) ((lo % 8 + b + 7) / 8)) (lo % 8) b

/-- An element's own value, before its scale. -/
def elemValue (f v : Nat) : Num :=
  match f with
  | 1 | 7 => FpFmt.e2m1.finite v
  | 2 => FpFmt.e2m3.finite v
  | 3 => FpFmt.e3m2.finite v
  | 4 | 13 => e4m3 v
  | 5 | 14 => FpFmt.e5m2.ieee v
  | 6 => .ofInt (twos 8 v) (-6)
  | 8 => if v == 1 then .ofInt 1 0 else if v == 3 then .ofInt (-1) 0 else .zero
  | 9 => .ofInt (twos 4 v) 0
  | 10 => .ofInt (twos 8 v) 0
  | 11 => FpFmt.bf16.ieee v
  | 12 => FpFmt.f16.ieee v
  | 15 => FpFmt.f32.ieee v
  | _ => .nan

/-- Times an E8M0 scale (R67). -/
def byE8m0 (x : Nat) (v : Num) : Num := if x == 255 then .nan else v.scale ((x : Int) - 127)

/-- Times a KT2 scale; a code that stands for 0 is 0 (R67, R72). -/
def byE4m3 (x : Nat) (v : Num) : Num :=
  if (e4m3 x).isNan then .nan else if v.isZero then .zero else v.mul (e4m3 x)

/-- The 2-bit shift of element `i` of a KF4 record (R71). -/
def kf4Shift (rec_ : Bytes) (i : Nat) : Nat := bitsOf (leAt rec_ (128 + i / 64) 1) (2 * (i % 64 / 16)) 2

/-- The exact value of element `i` of a chunk record (R66-R72). -/
def recordElem (f : Nat) (rec_ : Bytes) (i : Nat) : Num :=
  let v := elemValue f (elemCode f rec_ i)
  match f with
  | 1 => byE8m0 (leAt rec_ (128 + i / 32) 1) v
  | 2 | 3 => byE8m0 (leAt rec_ (192 + i / 32) 1) v
  | 4 | 5 | 6 => byE8m0 (leAt rec_ (256 + i / 32) 1) v
  | 7 => byE8m0 (leAt rec_ (132 + i / 64) 1) (v.scale (-(kf4Shift rec_ i : Int)))
  | 8 => byE4m3 (leAt rec_ (64 + i / 64) 1) v
  | _ => v

/-- The topped-up value of element `i` of a KF4 record with its top-up record (R73). -/
def toppedUp (rec_ top : Bytes) (i : Nat) : Num :=
  let c := elemCode 7 rec_ i
  let v := elemValue 7 c
  let t := twos 4 (elemCode 9 top i)
  let u : Int := if c % 8 < 4 then -1 else if c % 8 < 6 then 0 else 1
  byE8m0 (leAt rec_ (132 + i / 64) 1) ((v.add (.ofInt t (u - 4))).scale (-(kf4Shift rec_ i : Int)))

/-! ### The dot product (R78, R79) -/

/-- round_fp32(acc + s) for an exact sum `s` whose zero carries no sign: -0 + 0 stays -0, any other exact zero is +0. -/
def accStep (acc s : Num) : Num :=
  if s.isZero then (if acc.isZero then acc else f32 (toF32 acc))
  else f32 (toF32 (acc.add s))

/-- The exact sum of the products of one chunk. -/
def chunkSum (a w : List Num) : Num := (a.zipWith Num.mul w).foldl Num.add .zero

/-- One chunk of the chain (R79). -/
def dotChunk (acc : BitVec 32) (a w : List Num) : BitVec 32 :=
  if (f32 acc).isNan || a.any Num.isNan || w.any Num.isNan then toF32 .nan
  else toF32 (accStep (f32 acc) (chunkSum a w))

/-! ### Narrow conversions (R74-R77) -/

/-- What a conversion of one element gives: its code, and whether it saturated or was flushed. -/
structure Conv where
  code : Nat
  sat : Bool := false
  flush : Bool := false
deriving DecidableEq, Repr

/-- Largest finite magnitude code of a narrow float format, by its code of R129 (R66). -/
def maxCode : Nat → Nat
  | 1 => 7
  | 2 | 3 => 31
  | 4 | 13 => 0x7E
  | 5 | 14 => 0x7B
  | _ => 0

/-- The encoding of a narrow float format. -/
def narrowFmt : Nat → FpFmt
  | 1 => .e2m1
  | 2 => .e2m3
  | 3 => .e3m2
  | 4 | 13 => .e4m3
  | _ => .e5m2

/-- A value to a narrow float format (R74, R76); NaN only reaches the unscaled FP8 formats. A source of -0 keeps its sign, which R74
states only of flushed nonzero sources and R75 takes away only in an all-zero block (DESIGN CHOICE, log entry 49). -/
def narrowFloat (f : Nat) (x : Num) : Conv :=
  let g := narrowFmt f
  match x with
  | .nan => ⟨if f == 13 then 0x7F else 0x7E, true, false⟩
  | .inf s => ⟨g.signed s (if f == 5 || f == 14 then 0x7C else maxCode f), true, false⟩
  | .fin s m e =>
    let v := g.magnitude m e
    if maxCode f < v then ⟨g.signed s (maxCode f), true, false⟩ else ⟨g.signed s v, false, v == 0 && m != 0⟩

/-- A value to an integer of `w` bits, rounded to nearest even and clamped (R75, R77). -/
def narrowInt (w : Nat) (x : Num) : Conv :=
  let hi := 2 ^ (w - 1) - 1
  match x with
  | .nan => ⟨0, true, false⟩
  | .inf s => ⟨if s then hi + 1 else hi, true, false⟩
  | .fin s m e =>
    let n := if 0 ≤ e then m * 2 ^ e.toNat else rne m (-e).toNat
    let top := if s then hi + 1 else hi
    if top < n then ⟨if s then hi + 1 else hi, true, false⟩
    else ⟨if s && n != 0 then 2 ^ w - n else n, false, n == 0 && m != 0⟩

/-- emax of an MX format (R75). -/
def emax : Nat → Int
  | 1 | 2 => 2
  | 3 => 4
  | 4 => 8
  | 5 => 15
  | _ => 0

/-- floor(log2) of a nonzero finite magnitude. -/
def floorLog2 : Num → Int
  | .fin _ m e => (Nat.log2 m : Int) + e
  | _ => 0

/-- mx_scale of R75: the scale byte that a block takes for itself. -/
def mxScale (f : Nat) (block : List Num) : Nat :=
  if block.any fun x => !x.isFin then 255
  else
    let nz := block.filter fun x => !x.isZero
    match nz with
    | [] => 0
    | x :: rest =>
      let top := rest.foldl (fun m y => max m (floorLog2 y)) (floorLog2 x)
      (min (max (top - emax f) (-127)) 127 + 127).toNat

/-- A 32-element block to an MX format (R75, R76): its scale byte and its conversions. `given` is a supplied scale. -/
def mxBlock (f : Nat) (given : Option Nat) (block : List Num) : Nat × List Conv :=
  let own := mxScale f block
  let dead := match given with | none => own == 255 | some _ => block.any Num.isNan
  if dead then (255, block.map fun x => ⟨0, !x.isFin, false⟩)
  else
    match given with
    | none =>
      if block.all Num.isZero then (0, block.map fun _ => ⟨0, false, false⟩)
      else (own, block.map (mxElem own))
    | some x => (x, block.map (mxElem x))
where
  /-- One element under scale byte `X`. -/
  mxElem (x : Nat) (v : Num) : Conv :=
    let y := v.scale (127 - (x : Int))
    if f == 6 then narrowInt 8 (y.scale 6) else narrowFloat f y

/-- Codes of `b` bits as a little-endian bit stream (R68). -/
def packCodes (b : Nat) (codes : List Nat) : Bytes :=
  toLe (b * codes.length / 8) (codes.foldr (fun c v => v * 2 ^ b + c % 2 ^ b) 0)

end Sys2Proof.Machine
end

