-- ==== Sys2Proof/Machine/Transit.lean ====
section
/-!
DEFINITION. The transit buffers and the split-mode map (07_central_store.md R171-R173): inbound writes bound for HBM wait in
the eighth's transit buffer, and every reader sees them there.
-/

namespace Sys2Proof.Machine

/-! ### The transit buffers (R173, R456, R465) -/

/-- Bytes of a transit entry. -/
def Transit.bytes : Transit → Nat
  | .split _ bs _ => bs.length
  | .image _ _ _ bs _ => bs.length

/-- The transit buffer of eighth `k`: 64 KiB in each slice that has not failed, less the 4 KiB of a piece of the dump ring. -/
def State.transitRoom (s : State) (k : Nat) : Nat :=
  (((List.range 128).filter fun i => !(s.stn (128 * k + i)).failed).map fun i =>
    if 8 * i + k < s.tally.ringKib / 4 then 61440 else 65536).sum

/-- Bytes of a transit buffer are written or read in slice `st`: the autonomous class, charged to the partition of the slice and to no
context, as the HBM bytes that follow are (R168, R390, R446; log entry 17). -/
def State.transitBytes (s : State) (st n : Nat) : State :=
  (s.modStn st (·.sliceBytes 3 n)).charge (s.partOfStn st) none (12 * n) (s.stn st).island.target

/-- A transit entry reaches HBM: its bytes leave the slice and are written, in the autonomous classes (R168, R193, R446). A granule of an
open image that it writes wholly is good again (log entry 16). -/
def State.writeDown (s : State) (t : Transit) : State :=
  let s := s.transitBytes t.slice t.bytes
  match t with
  | .split a bs _ =>
    let o := a - 2 ^ 40
    { s.hbmBytes (o / 2 ^ 36) 2 bs.length none with cst := { s.cst with hbm := wrBytes s.cst.hbm a bs } }
  | .image p id o bs _ =>
    match s.image p id with
    | none => s
    | some g =>
      (s.imageTraffic p g.regions 2 o bs.length none).modImage p id fun g => { g with
        data := wrBytes g.data o bs
        poison := if g.open_ then g.poison.filter fun i => i * 4096 < o || o + bs.length < i * 4096 + 4096 else g.poison }

/-- The oldest entry of eighth `k`'s transit buffer reaches HBM. -/
def State.drainOne (s : State) (k : Nat) : State :=
  match mget [] s.cst.transit k with
  | [] => s
  | t :: rest => ({ s with cst := { s.cst with transit := mset [] s.cst.transit k rest } }).writeDown t

/-- Every entry of eighth `k`'s transit buffer reaches HBM. -/
def State.drainAll (s : State) (k : Nat) : State :=
  s.foldNat (List.range (mget [] s.cst.transit k).length) fun s _ => s.drainOne k

/-- Entries reach HBM, oldest first, until `n` bytes have room. -/
def State.makeRoom (s : State) (k n : Nat) : State :=
  s.foldNat (List.range (mget [] s.cst.transit k).length) fun s _ =>
    if ((mget [] s.cst.transit k).map (·.bytes)).sum + n ≤ s.transitRoom k then s else s.drainOne k

/-- The slices of eighth `k` that hold a piece of its transit buffer: those that have not failed (R465). -/
def State.transitSlices (s : State) (k : Nat) : List Nat :=
  ((List.range 128).map (128 * k + ·)).filter fun st => !(s.stn st).failed

/-- A write of `n` bytes for HBM enters eighth `k`'s transit buffer, in the autonomous class; when the buffer is full it waits
there for room. Which slice's piece it takes is the package's choice, a free value (R168, R173, R452). -/
def State.inbound (s : State) (k n : Nat) (t : Nat → Transit) : State :=
  let (d, s) := s.draw
  let l := s.transitSlices k
  let sl := l.getD ((Config.openValue d).toNat % max 1 l.length) (128 * k)
  let s := ((s.makeRoom k n).transitBytes sl n).modStn sl (·.sliceEvent 6 n)
  { s with cst := { s.cst with transit := mset [] s.cst.transit k (mget [] s.cst.transit k ++ [t sl]) } }

/-- TRANSIT_WRITE_DOWN (R173): the transit buffer's oldest bytes reach HBM. -/
def execTransitWriteDown (eighth : Nat) (s : State) : Res :=
  .next (if 8 ≤ eighth || !s.bring.diesOn then s else s.drainOne eighth)

/-- `bs`, read from `a`, with the bytes that `new` writes at `b`. -/
def overlay (a : Nat) (bs : Bytes) (b : Nat) (new : Bytes) : Bytes :=
  (List.range bs.length).map fun i =>
    if b ≤ a + i && a + i < b + new.length then new.getD (a + i - b) 0 else bs.getD i 0

/-- Bytes of image `id` of partition `p`, those in transit included (R46, R173). -/
def State.imageBytes (s : State) (p id o n : Nat) : Bytes :=
  match s.image p id with
  | none => List.replicate n 0
  | some g =>
    ((List.range 8).flatMap fun k => mget [] s.cst.transit k).foldl (fun bs t =>
      match t with
      | .image q i x new _ => if q == p && i == id then overlay o bs x new else bs
      | .split .. => bs) (rdBytes g.data o n)

/-! ### The split-mode map (R171, R172) -/

/-- The 4 KiB granule at this physical granule number can be read and written by RoCEv2. -/
def State.splitOk (s : State) (g : Nat) : Bool :=
  let a := g * 4096
  if a < 2 ^ 33 then a % 2 ^ 23 < 0x7F0000 && !(s.stn (a / 2 ^ 23)).failed
  else if 2 ^ 40 ≤ a && a < 3 * 2 ^ 40 then
    let o := a - 2 ^ 40
    o % 2 ^ 36 < 48 * 2 ^ 30 && (s.stk (o / 2 ^ 36)).live.getLsbD (o / 4096 % 64)
  else false

/-- Every byte of `n` at `a` can be accessed. -/
def State.splitAccess (s : State) (a n : Nat) : Bool := (granules a n).all s.splitOk

/-- The pieces of `n` bytes at `a` in 4 KiB granules: address, offset into the bytes, length. -/
def pieces (a n : Nat) : List (Nat × Nat × Nat) :=
  (granules a n).map fun g =>
    let lo := max a (g * 4096)
    (lo, lo - a, min (a + n) (g * 4096 + 4096) - lo)

/-- A split-mode write: slices take it at once, HBM through the transit buffer. -/
def State.splitWrite (s : State) (a : Nat) (bs : Bytes) : State :=
  (pieces a bs.length).foldl (fun s (x, o, n) =>
    let b := slice bs o n
    if x < 2 ^ 40 then
      { s.modStn (x / 2 ^ 23) (·.sliceBytes 2 n) with cst := { s.cst with split := wrBytes s.cst.split x b } }
    else s.inbound ((x - 2 ^ 40) / 2 ^ 36 / 4) n (.split x b)) s

/-- The bytes a split-mode read returns. -/
def State.splitBytes (s : State) (a n : Nat) : Bytes :=
  if a < 2 ^ 40 then rdBytes s.cst.split a n
  else ((List.range 8).flatMap fun k => mget [] s.cst.transit k).foldl (fun bs t =>
    match t with
    | .split x new _ => overlay a bs x new
    | .image .. => bs) (rdBytes s.cst.hbm a n)

/-- A split-mode read is counted. -/
def State.splitTraffic (s : State) (a n : Nat) : State :=
  (pieces a n).foldl (fun s (x, _, n) =>
    if x < 2 ^ 40 then s.modStn (x / 2 ^ 23) (·.sliceBytes 2 n) else s.hbmBytes ((x - 2 ^ 40) / 2 ^ 36) 2 n none) s

end Sys2Proof.Machine
end

