-- ==== Sys2Proof/Machine/Racing.lean ====
section
/-!
DEFINITION. What a read of a context's store sees while transfers are writing it (02_stations.md R46): the stores of stations, the
groups that the caravan engine has begun (07_central_store.md R186-R190) and the pages on their way to staging frames (08_kv_pages.md
R222).
-/

namespace Sys2Proof.Machine

/-! ### What a caravan group fetches (R186-R188) -/

/-- Where a caravan entry's bytes come from for a tensor: offset in the source, bytes, and the source (R188). -/
def Itin.entrySource (it : Itin) (e : EntryDecl) (id : Nat) : Option (Nat × Nat × Tensor) :=
  match it.tensor id with
  | none => none
  | some t =>
    match it.wide id with
    | none => some (e.src, e.bytes, t)
    | some w => let b := recordLen t.format.toNat; some (e.src / b * 512, e.bytes / b * 512, w)

/-- The entries of group `g` (R187). -/
def Caravan.entriesOf (c : Caravan) (g : Nat) : List EntryDecl :=
  let a := if g == 0 then 0 else match c.groups[g - 1]? with | some d => d.entryEnd | none => 0
  let b := match c.groups[g]? with | some d => d.entryEnd | none => 0
  (c.entries.take b).drop a

/-- What group `g` fetches with the resolved `vs`: image offset, destination, bytes, whether it is a wide reference. -/
def Itin.fills (it : Itin) (c : Caravan) (g : Nat) (vs : List Nat) : List (Nat × Nat × Nat × Bool) :=
  ((c.entriesOf g).zip vs).filterMap fun (e, v) =>
    if v == 0 then none
    else
      let id := e.tensor + v - 1
      match it.entrySource e id with
      | none => none
      | some (o, n, t) => some (t.offset + o, e.dst, n, (it.wide id).isSome)

/-- The home of image byte `x` when another package holds its granule (R186). -/
def State.awayHome (s : State) (c x : Nat) : Option Nat :=
  match s.imageOf c with
  | none => none
  | some g =>
    let homes := match regionOfImage g.regions x with | some r => r.homes | none => 1
    let h := (s.imagePlace (partOfCtx c) g.regions x).1
    if (s.ctx c).holdsHome homes h then none else some h

/-- Bytes of the image as the caravan engine has them: this package's granules, and those of others as their homes answered (R186,
R297), free values of the draw `d` while no answer has come. -/
def State.imageSeen (s : State) (c d o n : Nat) : Bytes :=
  match s.imageOf c with
  | none => List.replicate n 0
  | some g => (pieces o n).flatMap fun (x, _, m) =>
    if (s.awayHome c x).isNone then s.imageBytes (partOfCtx c) g.id x m
    else match (s.ctx c).caravan.fetched.find? fun y => y.1 == x / 4096 with
      | some (_, b) => slice b (x % 4096) m
      | none => (List.range m).map fun i => Config.openByte d (x + i)

/-! ### Writes on their way (R46) -/

/-- The staged pages on their way to frames of the context: the oldest listed of each station, as many as its frames are free (R222). -/
def State.incomingPages (s : State) (c : Nat) : List (Nat × Bytes) :=
  let k := s.ctx c
  match k.itin.kv with
  | none => []
  | some v => (List.range k.itin.streams.length).flatMap fun rel =>
    ((k.walk.staging.filter fun g => g.station == rel && g.page.isSome).take (v.stageFrames - mget 0 k.walk.filled rel)).filterMap
      fun g => g.page.bind fun (f, n) =>
        (s.page (partOfCtx c) n).map fun x => (v.stageBase + (rel * v.stageFrames + f) * 65536, x.data)

/-- The bytes that begun caravan groups are writing into the store of context `c`. -/
def State.incomingGroups (s : State) (c : Nat) : List (Nat × Bytes) :=
  let k := s.ctx c
  match k.itin.caravan with
  | none => []
  | some v => (k.caravan.live.filter fun r => !r.done).flatMap fun r =>
    (k.itin.fills v r.group r.vs).map fun (o, dst, n, _) => (dst, s.imageSeen c s.free o n)

/-- The bytes that incomplete stores of stations, begun caravan groups and page fetches are writing into the store of context `c`. -/
def State.incomingStore (s : State) (c : Nat) : List (Nat × Bytes) :=
  ((s.stnsOfCtx c).flatMap fun j =>
    let a := (s.stn j).arch
    a.inflight.flatMap fun x => match x.kind with
      | .xst sa ca bs _ _ => [(ca, bs), (ca, rdBytes a.saddle sa bs.length)]
      | _ => []) ++ s.incomingGroups c ++ s.incomingPages c

/-- The store of context `c` as a read sees it now. -/
def State.storeSeen (s : State) (c : Nat) : Mem := racedMem (s.free + 1) (s.ctx c).store (s.incomingStore c)

/-- Context `c` with its store as a read of an engine, a peer or a host sees it now. -/
def State.seenCtx (s : State) (c : Nat) : Ctx := { s.ctx c with store := s.storeSeen c }

/-- The free values of such a read are used up, when it races. -/
def State.seenStore (s : State) (c : Nat) : State := if (s.incomingStore c).isEmpty then s else { s with free := s.free + 2 }

end Sys2Proof.Machine
end

