-- ==== Sys2Proof/Machine/Remote.lean ====
section
/-!
DEFINITION. What a package does as the target of a peer's request (10_brisor_fabric.md R293-R302, R306): which bytes a
remote address names, and how a read, a write, an atomic and a notification are served and answered.
-/

namespace Sys2Proof.Machine

/-! ### Answers (R293, R302) -/

/-- Response statuses (R302). -/
inductive RspStatus | ok | retry | access | absent | poison | unreachable
deriving DecidableEq, Repr

/-- The code of a response status. -/
def RspStatus.code : RspStatus → BitVec 16
  | .ok => 0 | .retry => 1 | .access => 2 | .absent => 3 | .poison => 4 | .unreachable => 5

/-- Answer a request on the rail it came by (R302, R304); data only with OK. -/
def State.respond (s : State) (m : Msg) (st : RspStatus) (data : Bytes := []) : State :=
  s.sendMsg m.port 0x10
    ⟨0, BitVec.ofNat 8 s.fabricId, m.srcPkg, m.job, m.tag, st.code, 0, 0, if st = .ok then data else [], 0, m.port⟩

/-- A message is discarded and counted in FB_DISCARD; `bit` of FB_EVENT says why (R293, R310). -/
def State.discard (s : State) (bit : Nat) : State :=
  { s with fab := { s.fab with discard := satAdd 48 s.fab.discard 1 } }.fbEvent bit

/-- A message can arrive on the port it names (R285, R308). -/
def State.arrives (s : State) (m : Msg) : Bool := m.port < 8 && s.portsRun && s.portLinked m.port

/-- Handle a message of type `t` that arrives: one that fails its end-to-end check is discarded (R293), and so is one whose data
has another length than its type's (R294; log entry 46). -/
def State.onMsg (s : State) (t : BitVec 8) (m : Msg) (f : State → State) : State :=
  if !s.arrives m then s else if !m.intact t then s.discard 7 else f s

/-- The job is dead or quarantined here (R311, R312). -/
def State.jobBarred (s : State) (job : BitVec 32) : Bool :=
  s.fab.dead.contains job || s.fab.quarantine.any fun (j, _) => j == job

/-- The context of a job on this package, live: neither torn down, nor held, nor of a barred job (R302, R310, R311). -/
def State.jobCtx (s : State) (job : BitVec 32) : Option Nat :=
  if job == 0 || s.jobBarred job then none
  else s.loadedCtxs.find? fun c =>
    (s.ctx c).itin.job == job && (s.ctx c).state != .tearingDown && !(s.ctx c).isHeld

/-! ### Inbound queues (R291, R302, R350) -/

/-- Requests that a partition's inbound queue holds: one share, of one request at least, for each of its eighths (R350). -/
def State.inboundRoom (s : State) : Nat := s.eighths * (Config.inboundShare + 1)

/-- The inbound queue of partition `p` is full. -/
def State.inboundFull (s : State) (p : Nat) : Bool := s.inboundRoom ≤ (s.fab.inbound.filter fun x => x.1 == p).length

/-- Handle a request of a job: one without a live context is answered JOB_ABSENT, one that finds the partition's inbound queue full
RETRY (R302). -/
def State.onJob (s : State) (m : Msg) (f : State → Nat → State) : State :=
  match s.jobCtx m.job with
  | none => s.respond m .absent
  | some c => if s.inboundFull (partOfCtx c) then s.respond m .retry else f s c

/-- A request that cannot be served yet waits in the inbound queue of partition `p`; a full queue answers RETRY (R291, R302). -/
def State.queueReq (s : State) (p : Nat) (t : BitVec 8) (m : Msg) : State :=
  if s.inboundFull p then s.respond m .retry
  else { s with fab := { s.fab with inbound := s.fab.inbound ++ [(p, t, m)] } }

/-- An earlier request of the same sender for the same granule waits: this one stays behind it (R299). -/
def State.reqBehind (s : State) (m : Msg) : Bool :=
  s.fab.inbound.any fun (_, _, x) => x.srcPkg == m.srcPkg && x.job == m.job && x.remote / 4096 == m.remote / 4096

/-! ### Remote addresses (R174, R296) -/

/-- The image window and the sealed-page window begin here (R174, R296). -/
def imageWindow : Nat := 0x100000000000
/-- The sealed-page window begins here (R296). -/
def sealedWindow : Nat := 0x200000000000

/-- What a remote read finds. -/
inductive RemoteRead
  | data (bs : Bytes)
  | no (st : RspStatus)
  /-- a page past its seal point whose seal has not ended, or a context that is not resident -/
  | wait
deriving DecidableEq, Repr

/-- The block-table entry of a live sequence that names sealed page number `n`, if any. -/
def Ctx.entryOfSpn (k : Ctx) (v : KvConf) (n : Nat) : Option Entry :=
  (k.liveSeqs.flatMap fun q => (k.liveBlocks v q).map (k.entry v q)).find? fun e => e.spn ≤ n && n < e.spn + v.layers

/-- A read of `n` bytes at `a` of the sealed-page window (R296). -/
def State.sealedRead (s : State) (c a n : Nat) : RemoteRead :=
  let o := a - sealedWindow
  let spn := o / 65536
  match (s.ctx c).itin.kv with
  | none => .no .access
  | some v =>
    match (s.ctx c).entryOfSpn v spn with
    | none => .no .access
    | some e =>
      if spn - e.spn < e.sealedLayers || e.state == 2 then
        match s.page (partOfCtx c) spn with
        | some g =>
          if g.poison || !g.checks (o % 65536) n then .no .poison else .data (slice g.data (o % 65536) n)
        | none =>
          if s.seals.any fun l => l.part == partOfCtx c && l.base + l.layer == spn then .wait else .no .access
      else .no .access

/-- A read of `n` bytes at `a` of the image window: a granule that this package holds as home (R296). -/
def State.imageRead (s : State) (c a n : Nat) : RemoteRead :=
  let o := a - imageWindow
  match s.imageOf c with
  | none => .no .access
  | some g =>
    match regionOfImage g.regions o with
    | none => .no .access
    | some r =>
      if r.offset + r.bytes < o + n || !(s.ctx c).holdsHome r.homes (s.imagePlace (partOfCtx c) g.regions o).1 then .no .access
      else if g.poisoned o n then .no .poison
      else .data (s.imageBytes (partOfCtx c) g.id o n)

/-- The `n` bytes at `a` lie in the block-table area of KVCONF (R215, R296). -/
def KvConf.inTables (v : KvConf) (a n : Nat) : Bool := v.btBase ≤ a && a + n ≤ v.rec_ v.seqMax

/-- The store bytes at `a` may be read by a peer (R296). -/
def Ctx.remoteReads (k : Ctx) (a n : Nat) : Bool :=
  match k.region a n with
  | none => false
  | some r => r.kind == 3 || r.kind == 7 ||
      (r.kind == 4 && (match k.itin.kv with | some v => v.inTables a n | none => false))

/-- The store bytes at `a` may be written by a peer (R296). -/
def Ctx.remoteWrites (k : Ctx) (a n : Nat) : Bool :=
  match k.region a n with
  | none => false
  | some r => r.kind == 7

/-- A remote read of `n` bytes at `a` for context `c` (R296); for a context that is not resident it waits. -/
def State.remoteRead (s : State) (c a n : Nat) : RemoteRead :=
  if sealedWindow ≤ a then s.sealedRead c a n
  else if imageWindow ≤ a then s.imageRead c a n
  else if !(s.ctx c).remoteReads a n then .no .access
  else if !(s.ctx c).resident then .wait
  else .data (rdBytes (s.storeSeen c) a n)

/-! ### Traffic and convoy merge (R193, R306, R446) -/

/-- A granule of immutable data as the stack's queue names it. -/
def State.granuleKeyOf (s : State) (c a : Nat) : Nat :=
  let x := if sealedWindow ≤ a then 2 ^ 60 * (partOfCtx c + 1) else
    2 ^ 80 * (partOfCtx c + 1) + 2 ^ 90 * (match s.imageOf c with | some g => g.id | none => 0)
  x + a / 4096

/-- A read of partition `p` has been merged: FB_MERGED counts it, and a drover of the partition's eighths, which the spec does not name
and a free value chooses (R306, R452). -/
def State.mergeRead (s : State) (p d : Nat) : State :=
  let n := 2 * s.eighths
  { s with fab := { s.fab with merged := satAdd 48 s.fab.merged 1 } }.modDrover (n * p + (Config.openValue d).toNat % n) (·.event 8 1)

/-- Count the bytes of a remote read of immutable data: a read whose granule another read of the same moment named may be
merged with it, which the package's queues decide (R306, a free value). -/
def State.granuleTraffic (s : State) (c a n : Nat) : State :=
  let key := (partOfCtx c, s.granuleKeyOf c a)
  let live := if s.fab.readsAt == s.now then s.fab.reads else []
  let (d, s) := s.draw
  let merged := live.contains key && Config.raceBit d a
  let s := { s with fab := { s.fab with
    reads := if live.contains key then live else key :: live, readsAt := s.now } }
  if merged then s.mergeRead (partOfCtx c) d
  else if sealedWindow ≤ a then
    s.granuleFetch (partOfCtx c) (a - sealedWindow) n (some c)
  else
    match s.imageOf c with
    | some g => s.imageTraffic (partOfCtx c) g.regions 1 (a - imageWindow) n (some c)
    | none => s

/-- Count the bytes of a remote read. -/
def State.readTraffic (s : State) (c a n : Nat) : State :=
  if imageWindow ≤ a then s.granuleTraffic c a n else (s.seenStore c).storeTraffic c 2 a n

/-! ### Serving (R294, R296, R300) -/

/-- Serve a read of `n` bytes for context `c`: the answer, or the wait for a seal to end or for the context (R296). -/
def State.serveRead (s : State) (t : BitVec 8) (m : Msg) (n c : Nat) : State :=
  match s.remoteRead c m.remote n with
  | .data bs => (s.readTraffic c m.remote n).respond m .ok bs
  | .no .poison =>
    let spn := (m.remote - sealedWindow) / 65536
    let bad := sealedWindow ≤ m.remote && (match s.page (partOfCtx c) spn with | some g => !g.poison | none => false)
    (if bad then s.pageFails (partOfCtx c) spn true [] (some (m.remote / 4096 % 16)) else s).respond m .poison
  | .no st => s.respond m st
  | .wait => s.queueReq (partOfCtx c) t m

/-- Bytes that a READ asks for by FLAGS [0] (R294). -/
def readBytes (m : Msg) : Nat := if m.flags.getLsbD 0 then 256 else 64

/-- Write bytes to a context's store for a peer. -/
def State.remoteStore (s : State) (c a : Nat) (bs : Bytes) : State :=
  s.put c a bs

/-- Serve a write for context `c`; the answer follows once every byte is visible (R294, R296). -/
def State.serveWrite (s : State) (t : BitVec 8) (m : Msg) (c : Nat) : State :=
  if !(s.ctx c).remoteWrites m.remote m.data.length then s.respond m .access
  else if !(s.ctx c).resident then s.queueReq (partOfCtx c) t m
  else (s.remoteStore c m.remote m.data).respond m .ok

/-- The operations of ATOMIC (R300): the word's new value and the 8 bytes returned, from the old value, the operand and the
compare value. -/
abbrev AtomicOp := Word → Word → Word → Word × Word

/-- The operation that FLAGS [1:0] names: ADD, MAX, CAS, FADD (R294, R300). -/
def atomicOf (flags : BitVec 8) : AtomicOp := fun old x cmp =>
  match bitsOf flags.toNat 0 2 with
  | 0 => (old + x, 0)
  | 1 => (if old.toNat < x.toNat then x else old, 0)
  | 2 => (if old = cmp then x else old, old)
  | _ => (old + x, old)

/-- Serve an atomic on the 8-byte word at REMOTE for context `c` (R294, R296, R300). -/
def State.serveAtomic (s : State) (m : Msg) (c : Nat) : State :=
  if !(s.ctx c).remoteWrites m.remote 8 then s.respond m .access
  else if !(s.ctx c).resident then s.queueReq (partOfCtx c) 5 m
  else
    let old := BitVec.ofNat 64 (leNat (rdBytes (s.storeSeen c) m.remote 8))
    let (new, ret) := atomicOf m.flags old (BitVec.ofNat 64 (leAt m.data 0 8)) (BitVec.ofNat 64 (leAt m.data 8 8))
    (((s.seenStore c).remoteStore c m.remote (toLe 8 new.toNat)).modCtx c (·.noteAtomic)).respond m .ok (toLe 8 ret.toNat)

/-- The count of a NOTIFY: its high 10 bits in AUX [9:0], its low 8 bits in FLAGS (R294). -/
def notifyCount (m : Msg) : Nat := bitsOf m.aux.toNat 0 10 * 256 + m.flags.toNat

/-- Serve a NOTIFY for context `c` (R294, R296, R360): the counter of its station, or its shelf. -/
def State.serveNotify (s : State) (m : Msg) (c : Nat) : State :=
  let st := bitsOf m.aux.toNat 16 16
  if s.stnCount c ≤ st then s.respond m .access
  else
    let s := s.incToken c st (bitsOf m.aux.toNat 10 6) (notifyCount m) .brisor true none
    s.respond m (if (s.ctx c).state == .tearingDown then .absent else .ok)

/-- Serve a request of type `t` for context `c` (R294). -/
def State.serveReq (s : State) (t : BitVec 8) (m : Msg) (c : Nat) : State :=
  match t.toNat with
  | 1 => s.serveRead t m (readBytes m) c
  | 2 | 4 => s.serveWrite t m c
  | 3 => s.serveRead t m 4096 c
  | 5 => s.serveAtomic m c
  | _ => s.serveNotify m c

/-- A request arrives: it is served, waits behind an earlier one for its granule, or is answered JOB_ABSENT (R291, R299, R302). -/
def State.onReq (s : State) (t : BitVec 8) (m : Msg) : State :=
  s.onMsg t m fun s => s.onJob m fun s c =>
    if t != 6 && s.reqBehind m then s.queueReq (partOfCtx c) t m else s.serveReq t m c

/-- The requests of the inbound queues are served as far as they can be, oldest first; the others wait on (R182 step 4, R291). -/
def State.serveWaiting (s : State) : State :=
  let l := s.fab.inbound
  l.foldl (fun s (_, t, m) => s.onJob m fun s c =>
    if s.reqBehind m then s.queueReq (partOfCtx c) t m else s.serveReq t m c) { s with fab := { s.fab with inbound := [] } }

end Sys2Proof.Machine
end

