-- ==== Sys2Proof/Machine/Fabric.lean ====
section
/-!
DEFINITION. The drovers and what responses, timeouts and departures do (10_brisor_fabric.md R295-R313).
-/

namespace Sys2Proof.Machine

/-! ### Entries and tags (R293, R301) -/

/-- The unit carries an engine's traffic, not a station's (R301). -/
def UnitKind.isEngine : UnitKind → Bool
  | .desc _ _ => false
  | _ => true

/-- Entries in use. -/
def Drover.used (v : Drover) : Nat := (v.units.filter fun u => u.entry < 256).length

/-- Entries in use by stations' units. -/
def Drover.stationUnits (v : Drover) : Nat :=
  (v.units.filter fun u => u.entry < 256 && !u.kind.isEngine).length

/-- A free entry: 32 of the 256 are kept for engine traffic (R301). -/
def Drover.freeEntry (v : Drover) (engine : Bool) : Option Nat :=
  if 256 ≤ v.used || (!engine && 224 ≤ v.stationUnits) then none
  else (List.range 256).find? fun e => v.units.all fun u => u.entry != e

/-- TAG of a unit (R293). -/
def unitTag (d entry gen unit : Nat) : BitVec 32 := BitVec.ofNat 32 (fld d 28 4 + fld entry 20 8 + fld gen 12 8 + fld unit 0 12)

/-- A new unit for package `pkg` is held: a unit sent on a rail that has left live has not settled, or others are held for
it already (R305). -/
def State.holding (s : State) (pkg : Nat) : Bool :=
  (List.range 16).any fun d => (s.drover d).units.any fun u => u.peer == pkg && (u.departed || u.held)

/-- A unit sent on a departed rail toward `pkg` has not settled. -/
def State.unsettled (s : State) (pkg : Nat) : Bool :=
  (List.range 16).any fun d => (s.drover d).units.any fun u => u.peer == pkg && u.departed

/-- The package is marked in FB_DEPARTED (R313). -/
def State.hasDeparted (s : State) (pkg : Nat) : Bool := s.fab.departed.getLsbD pkg

/-! ### Sending a unit (R301, R303-R305, R309) -/

/-- Send a unit of drover `d` that has an entry on the rail its address gives; with no live rail its context is held. -/
def State.launch (s : State) (d : Nat) (u : DUnit) : State :=
  match s.chooseRail u.peer u.msg.remote with
  | none => s.fabricHold u.ctx 4 u.peer
  | some r =>
    let u := { u with rail := r, lastSent := s.now, retry := false, held := false }
    (s.modDrover d fun v => { v.event 5 (32 + u.msg.data.length) with
      units := v.units.map fun x => if x.entry == u.entry then u else x }).sendMsg r u.mtype u.msg

/-- Two units of one station for the same granule of the same package, which are applied in issue order (R299). -/
def DUnit.ordered (u v : DUnit) : Bool :=
  u.ctx == v.ctx && u.station == v.station && u.peer == v.peer && u.msg.remote / 4096 == v.msg.remote / 4096 &&
    !u.kind.isEngine && !v.kind.isEngine

/-- The unit has not been sent, or waits to be sent again after RETRY. -/
def DUnit.unsent (u : DUnit) : Bool := 256 ≤ u.entry || u.held || u.retry

/-- A unit stays behind one issued before it to its granule that has still to be sent (R299, R302). -/
def Drover.behind (v : Drover) (u : DUnit) : Bool := (v.units.takeWhile (· != u)).any fun x => x.unsent && x.ordered u

/-- Put a unit into an entry and send it. `u.entry` and `u.gen` are assigned here. -/
def State.admitUnit (s : State) (d : Nat) (u : DUnit) (e : Nat) : State :=
  let v := s.drover d
  let unit := bitsOf u.msg.tag.toNat 0 12
  let u := { u with
    entry := e, gen := v.gen, deadline := s.now + us s.fab.timeoutUs, held := false
    msg := { u.msg with tag := unitTag d e v.gen unit } }
  let s := s.modDrover d fun v => { v.event 1 1 with gen := (v.gen + 1) % 256, units := v.units ++ [u] }
  s.launch d u

/-- Issue a new unit: it is sent, held for its package (R305), or waits behind another of its granule or for an entry. -/
def State.issueUnit (s : State) (d : Nat) (u : DUnit) : State :=
  let v := s.drover d
  let wait (h : Bool) : State := s.modDrover d fun v => { v with units := v.units ++ [{ u with entry := 256, held := h }] }
  if s.hasDeparted u.peer then s.fabricHold u.ctx 3 u.peer
  else if s.holding u.peer then wait true
  else if v.behind u then wait false
  else
    match v.freeEntry u.kind.isEngine with
    | none => wait false
    | some e => s.admitUnit d u e

/-- Send a unit that was held or waits: one that stays behind another, or finds no entry, keeps its place. -/
def State.enterUnit (s : State) (d : Nat) (u : DUnit) : State :=
  if u.entry < 256 then s.launch d u
  else if (s.drover d).behind u then s
  else if s.hasDeparted u.peer then s.fabricHold u.ctx 3 u.peer
  else
    match (s.drover d).freeEntry u.kind.isEngine with
    | none => s
    | some e => (s.modDrover d fun v => { v with units := v.units.erase u }).admitUnit d u e

/-! ### Descriptors (R295-R299) -/

/-- Bytes of a unit of a descriptor (R295). -/
def FabDesc.unitBytes (f : FabDesc) : Nat :=
  match f.op with
  | 1 => if f.sub == 1 then 256 else 64
  | 2 => 256
  | 3 | 4 => 4096
  | _ => 0

/-- What unit `i` of a descriptor takes from the store: address and bytes (R295). -/
def FabDesc.source (f : FabDesc) (i : Nat) : Nat × Nat :=
  match f.op with
  | 2 | 4 => (f.local_ + i * f.unitBytes, f.unitBytes)
  | 5 => (f.local_, 16)
  | _ => (0, 0)

/-- The message of unit `i` of a descriptor for package `pkg`, with its unit number in TAG. -/
def State.unitMsg (s : State) (f : FabDesc) (i pkg : Nat) : Msg :=
  let n := f.unitBytes
  let k := s.ctx f.ctx
  let data := rdBytes (s.storeSeen f.ctx) (f.source i).1 (f.source i).2
  let flags : Nat := match f.op with
    | 1 | 5 => f.sub
    | 6 => f.ncount % 256
    | _ => 0
  let aux : Nat := if f.op == 6 then fld f.nindex 16 16 + fld f.ntoken 10 6 + f.ncount / 256 else 0
  ⟨BitVec.ofNat 8 flags, BitVec.ofNat 8 s.fabricId, BitVec.ofNat 8 pkg, k.itin.job, BitVec.ofNat 32 i, 0,
    if f.op == 6 then 0 else f.remote + i * n, BitVec.ofNat 32 aux, data, 0, 0⟩

/-- The PEERS index of unit `i`'s target (R295, R297). -/
def State.unitPeer (s : State) (f : FabDesc) (i : Nat) : Nat :=
  match f.peer with
  | some p => p
  | none =>
    match s.imageOf f.ctx with
    | some g => (s.imagePlace (partOfCtx f.ctx) g.regions (f.remote + i * f.unitBytes - imageWindow)).1
    | none => 0

/-- The fabric id of a PEERS index. -/
def Ctx.peerId (k : Ctx) (p : Nat) : Nat := match k.itin.peers with | some x => x.ids.getD p 0 | none => 0

/-- This package's PEERS index. -/
def Ctx.selfPeer (k : Ctx) : Nat := match k.itin.peers with | some x => x.self | none => 0

/-- A message type that R299 makes a NOTIFY wait for: WRITE, BULK_WRITE, ATOMIC. -/
def waitsFor (t : Nat) : Bool := t == 2 || t == 4 || t == 5

/-- A NOTIFY of the descriptor must wait: an earlier WRITE, BULK_WRITE or ATOMIC of its station to the same package is not
complete (R299). -/
def Drover.notifyWaits (v : Drover) (f : FabDesc) (pkg : Nat) (idOf : Nat → Nat) : Bool :=
  f.op == 6 && (v.active.any fun g => g.ctx == f.ctx && g.station == f.station && g.id < f.id && waitsFor g.op &&
    g.done < g.count && (match g.peer with | some p => idOf p == pkg | none => true))

/-- Every unit of a descriptor is complete: its TOKEN rises (R299). -/
def State.descDone (s : State) (d id : Nat) : State :=
  match (s.drover d).active.find? (·.id == id) with
  | none => s
  | some f =>
    if f.done < f.count then s
    else
      (s.modDrover d fun v => { v with active := v.active.filter (·.id != id) }).incToken f.ctx f.station f.token 1 .brisor
        false none

/-- A unit of descriptor `id` is complete. -/
def State.unitDone (s : State) (d id : Nat) : State :=
  let s := s.modDrover d fun v => { v.event 2 1 with
    completed := satAdd 48 v.completed 1
    active := v.active.map fun f => if f.id == id then { f with done := f.done + 1 } else f }
  s.descDone d id

/-- A unit whose home is this package is served from the local image without entering the fabric (R297); a write or an atomic
there breaks R296 (R298). -/
def State.serveLocal (s : State) (d : Nat) (f : FabDesc) (i : Nat) : State :=
  let n := f.unitBytes
  let a := f.remote + i * n
  match s.imageOf f.ctx with
  | none => s
  | some g =>
    if f.op != 1 && f.op != 3 then s.lateFault f.ctx f.station f.bundle 3 0x42
    else if g.poisoned (a - imageWindow) n then s.beginTeardown f.ctx 5
    else
      let s := s.imageTraffic (partOfCtx f.ctx) g.regions 1 (a - imageWindow) n (some f.ctx)
      (s.remoteStore f.ctx (f.local_ + i * n) (s.imageBytes (partOfCtx f.ctx) g.id (a - imageWindow) n)).unitDone d f.id

/-- Issue the next unit of a descriptor: what it takes from the store is read, and counted in the compiled class (R46, R168, R390). -/
def State.issueNext (s : State) (d : Nat) (f : FabDesc) : State :=
  let i := f.issued
  let k := s.ctx f.ctx
  let p := s.unitPeer f i
  let s := s.modDrover d fun v => { v with
    active := v.active.map fun g => if g.id == f.id then { g with issued := i + 1 } else g }
  if f.peer.isNone && p == k.selfPeer then (s.modDrover d (·.event 1 1)).serveLocal d f i
  else
    let m := s.unitMsg f i (k.peerId p)
    let s := if f.source i == (0, 0) then s else (s.seenStore f.ctx).storeTraffic f.ctx 2 (f.source i).1 (f.source i).2
    s.issueUnit d ⟨.desc f.id i, f.ctx, f.station, 256, 0, BitVec.ofNat 8 f.op, m, k.peerId p, 8, 0, s.now, 1, false, false, false⟩

/-- The first active descriptor with a unit that may be issued. -/
def State.ready (s : State) (d : Nat) : Option FabDesc :=
  let v := s.drover d
  if (v.freeEntry false).isNone then none
  else v.active.find? fun f => f.issued < f.count &&
    !v.notifyWaits f ((s.ctx f.ctx).peerId (s.unitPeer f f.issued)) (s.ctx f.ctx).peerId

/-- Issue units while there are entries and units that may go. -/
def State.pump : Nat → Nat → State → State
  | 0, _, s => s
  | fuel + 1, d, s =>
    match s.ready d with
    | none => s
    | some f => State.pump fuel d (s.issueNext d f)

/-- Units that a drover's active descriptors have not issued. -/
def Drover.unissued (v : Drover) : Nat := (v.active.map fun f => f.count - f.issued).sum

/-- A drover goes on: engine units that wait for an entry first, then the descriptors' units. -/
def State.goOn (s : State) (d : Nat) : State :=
  let s := ((s.drover d).units.filter fun u => u.entry == 256 && !u.held).foldl (fun s u => s.enterUnit d u) s
  State.pump (s.drover d).unissued d s

/-- DROVER_DESCRIPTOR_START (R301): the drover begins its oldest queued descriptor. -/
def execDroverDescriptorStart (d : Nat) (s : State) : Res :=
  match (s.drover d).queue with
  | [] => .next s
  | f :: rest =>
    if 16 ≤ d || !s.portsRun then .next s
    else .next ((s.modDrover d fun v => { v with queue := rest, active := v.active ++ [f] }).goOn d)

/-! ### Engine traffic (R294, R301) -/

/-- The drover that carries a partition's engine traffic: those of its eighths in rotation (R301). -/
def State.engineDrover (s : State) (p : Nat) : Nat :=
  let n := 2 * s.eighths
  2 * p * s.eighths + mget 0 s.fab.turns p % n

/-- Send an engine's request of context `c` to PEERS index `p`; it is answered by RSP (R294). -/
def State.engineSend (s : State) (c p : Nat) (t : BitVec 8) (flags aux : Nat) (remote : Nat) (data : Bytes)
    (kind : UnitKind := .engine) : State :=
  let k := s.ctx c
  let d := s.engineDrover (partOfCtx c)
  let s := { s with fab := { s.fab with turns := mmod 0 s.fab.turns (partOfCtx c) (· + 1) } }
  let m : Msg := ⟨BitVec.ofNat 8 flags, BitVec.ofNat 8 s.fabricId, BitVec.ofNat 8 (k.peerId p), k.itin.job, 0, 0, remote,
    BitVec.ofNat 32 aux, data, 0, 0⟩
  s.issueUnit d ⟨kind, c, 0xFFFF, 256, 0, t, m, k.peerId p, 8, 0, s.now, 1, false, false, false⟩

/-- A message of the dispatch engine that no response answers, or of a relay (R293, R294). -/
def State.plainMsg (s : State) (pkg : Nat) (job : BitVec 32) (remote : Nat) (data : Bytes) : Msg :=
  ⟨0, BitVec.ofNat 8 s.fabricId, BitVec.ofNat 8 pkg, job, 0, 0, remote, 0, data, 0, 0⟩

/-- Send a relay block on the rail its address gives; with none live it is not sent (R294, R304). -/
def State.plainSend (s : State) (pkg : Nat) (job : BitVec 32) (t : BitVec 8) (remote : Nat) (data : Bytes) : State :=
  match s.chooseRail pkg remote with
  | none => s
  | some r => s.sendMsg r t (s.plainMsg pkg job remote data)

/-! ### Responses (R302, R309, R310) -/

/-- A unit leaves its drover. -/
def State.dropUnit (s : State) (d : Nat) (u : DUnit) : State :=
  s.modDrover d fun v => { v with units := v.units.filter fun x => x.entry != u.entry }

/-- OK: the data lands and the unit completes (R294, R295, R302). -/
def State.unitOk (s : State) (d : Nat) (u : DUnit) (m : Msg) : State :=
  let s := s.dropUnit d u
  match u.kind with
  | .engine => s.modDrover d fun v => { v.event 2 1 with completed := satAdd 48 v.completed 1 }
  | .fetch g =>
    (s.modDrover d fun v => { v.event 2 1 with completed := satAdd 48 v.completed 1 }).modCtx u.ctx fun k =>
      { k with caravan := { k.caravan with fetched := k.caravan.fetched ++ [(g, slice m.data 0 4096)] } }
  | .topup st o =>
    (s.modDrover d fun v => { v.event 2 1 with completed := satAdd 48 v.completed 1 }).modCtx u.ctx fun k =>
      { k with caravan := { k.caravan with topGot := k.caravan.topGot ++ [(st, o, slice m.data 0 256)] } }
  | .desc id i =>
    match (s.drover d).active.find? (·.id == id) with
    | none => s
    | some f =>
      let s := match f.op with
        | 1 | 3 => s.remoteStore f.ctx (f.local_ + i * f.unitBytes) (slice m.data 0 f.unitBytes)
        | 5 => s.remoteStore f.ctx (f.local_ + 16) (slice m.data 0 8)
        | _ => s
      s.unitDone d id

/-- The bundle that issued a unit's descriptor. -/
def State.unitBundle (s : State) (d : Nat) (u : DUnit) : Nat :=
  match u.kind with
  | .engine | .fetch _ | .topup _ _ => 0
  | .desc id _ => match (s.drover d).active.find? (·.id == id) with | some f => f.bundle | none => 0

/-- RETRY: the unit goes out again after its back-off (R302). -/
def State.unitRetry (s : State) (d : Nat) (u : DUnit) : State :=
  s.modDrover d fun v => { v.event 3 1 with
    retries := satAdd 32 v.retries 1
    units := v.units.map fun x => if x.entry == u.entry then { u with retry := true, lastSent := s.now } else x }

/-- UNREACHABLE: the rail's bit for the package clears, and the unit goes out on another live rail, behind the units that
must settle first; with no live rail left its context becomes fabric-held (R302, R305, R309). -/
def State.unitUnreachable (s : State) (d : Nat) (u : DUnit) : State :=
  let bits := putBit (s.reach u.peer) u.rail false
  let s := { s with fab := { s.fab with reach := mset 0xFF s.fab.reach u.peer bits } }
  let settle (w : Bool) (s : State) : State := s.modDrover d fun v => { v with
    units := v.units.map fun x => if x.entry == u.entry then { x with held := w, departed := false } else x }
  let s := settle false ((s.railLeaves u.rail (· == u.peer)).fbEvent 5)
  if s.holding u.peer && !(s.liveRails u.peer).isEmpty then settle true s else s.launch d { u with departed := false }

/-- A response for a unit, by its STATUS (R302); every other code is reserved and is discarded. -/
def State.unitAnswer (s : State) (d : Nat) (u : DUnit) (m : Msg) : State :=
  let s := s.modDrover d (·.event 6 (32 + m.data.length))
  match m.status.toNat with
  | 0 => s.unitOk d u m
  | 1 => s.unitRetry d u
  | 2 => (s.dropUnit d u).lateFault u.ctx u.station (s.unitBundle d u) 3 0x42
  | 3 => s.fabricHold u.ctx 2 u.peer
  | 4 => (s.dropUnit d u).beginTeardown u.ctx 5
  | 5 => s.unitUnreachable d u
  | _ => s.discard 6

/-- The unit that a response's TAG names (R293). -/
def State.unitOf (s : State) (m : Msg) : Nat × Option DUnit :=
  let t := m.tag.toNat
  let d := bitsOf t 28 4
  (d, (s.drover d).units.find? fun u => u.entry == bitsOf t 20 8 && u.gen == bitsOf t 12 8 && u.msg.tag == m.tag)

/-- RESPONSE (R302): the unit completes, goes again, faults or holds; a late one is discarded (R310). -/
def execResponse (m : Msg) (s : State) : Res :=
  .next (s.onMsg 0x10 m fun s =>
    match s.unitOf m with
    | (_, none) => s.discard 6
    | (d, some u) => (s.unitAnswer d u m).goOn d)

/-! ### Time and departures (R302, R305, R309-R313) -/

/-- RETRY_RESEND (R299, R302): the back-off of the i-th unit of drover `d` ends and it is sent again, behind earlier units of its
granule; the next back-off doubles. -/
def execRetryResend (d i : Nat) (s : State) : Res :=
  match (s.drover d).units[i]? with
  | none => .next s
  | some u =>
    if !u.retry || s.now < u.lastSent + us u.backoffUs || 16 ≤ d || !s.portsRun || (s.drover d).behind u then .next s
    else .next ((s.launch d { u with backoffUs := min 16 (2 * u.backoffUs) }).goOn d)

/-- UNIT_TIMEOUT (R309): the unit has not completed by its deadline; its context becomes fabric-held with cause 0x01. -/
def execUnitTimeout (d i : Nat) (s : State) : Res :=
  match (s.drover d).units[i]? with
  | none => .next s
  | some u =>
    if 256 ≤ u.entry || s.now < u.deadline || 16 ≤ d then .next s
    else
      let s := (s.modDrover d fun v => { v.event 4 1 with timeouts := satAdd 32 v.timeouts 1 }).dropUnit d u
      .next ((s.fabricHold u.ctx 1 u.peer).goOn d)

/-- HELD_UNITS_RELEASE (R305): every unit sent on a departed rail toward the package has settled; the held ones go out under
the new live set. -/
def execHeldUnitsRelease (pkg : Nat) (s : State) : Res :=
  if s.unsettled pkg then .next s
  else
    let held (s : State) (d : Nat) : List DUnit := (s.drover d).units.filter fun u => u.held && u.peer == pkg
    let free := s.foldNat (List.range 16) fun s d => s.modDrover d fun v => { v with
      units := v.units.map fun u => if u.held && u.peer == pkg then { u with held := false } else u }
    .next (free.foldNat (List.range 16) fun t d =>
      let l := (held s d).map fun u => { u with held := false }
      if l.isEmpty then t else (l.foldl (fun t u => if u.entry < 256 then t.enterUnit d u else t) t).goOn d)

/-- HOLD_EXPIRE (R310): HOLD_MS has passed on a held context and it is torn down with reason 0x03. -/
def execHoldExpire (c : Nat) (s : State) : Res :=
  let k := s.ctx c
  match k.hold with
  | none => .next s
  | some (_, _, t) =>
    if k.isHeld && t ≤ s.now && c < 128 then .next (s.beginTeardown c 3) else .next s

/-- QUARANTINE_END (R312): the 10 ms quarantine of a job id ends. -/
def execQuarantineEnd (job : BitVec 32) (s : State) : Res :=
  .next { s with fab := { s.fab with quarantine := s.fab.quarantine.filter fun (j, t) => j != job || s.now < t } }

/-- DEPARTURE (R309, R313): the sender is marked departed, every context whose PEERS names it is held, and the event is
sent. -/
def execDeparture (m : Msg) (s : State) : Res :=
  .next (s.onMsg 0x30 m fun s =>
    let pkg := m.srcPkg.toNat
    let s := { s with fab := { s.fab with departed := s.fab.departed ||| BitVec.ofNat 256 (2 ^ pkg), departNew := s.fab.departNew.add s.now (2 ^ pkg) } }.fbEvent 4
    let cs := s.loadedCtxs.filter fun c => match (s.ctx c).itin.peers with | some p => p.ids.contains pkg | none => false
    let s := s.foldNat cs fun s c => s.fabricHold c 3 pkg
    s.postEvent 0x8007 0xFFFF (slice m.data 0 8 ++ toBe 1 pkg ++ slice m.data 8 1 ++ toBe 6 0))

end Sys2Proof.Machine
end

