-- ==== Sys2Proof/Machine/Tally.lean ====
section
/-!
DEFINITION. Freeze pulses, shadows, dump records and the stream (16_tallies.md R445-R462).
-/

namespace Sys2Proof.Machine

/-! ### Pulses (R454, R455) -/

/-- The handle that STN_STATE shows for a station: 0xFFFF when it holds none (R58). -/
def State.stnHandle (s : State) (st : Nat) : Nat :=
  match (s.stn st).ctx with | some c => (s.ctx c).handle.toNat | none => 0xFFFF

/-- A station's and its slice's shadows latch their counters, and what the station's entry shows beside them (R454, R457). -/
def Stn.latch (handle : Nat) (t : Stn) : Stn :=
  { t with shadow := t.tally, sliceShadow := t.slice, shadowHandle := handle, shadowState := t.state.toNat }

/-- CLEAR sets a block's programmable counters to 0. -/
def Stn.clearProg (t : Stn) : Stn :=
  { t with tally := { t.tally with prog := [] }, slice := { t.slice with prog := [] } }

/-- Every block latches its counters (R454). -/
def State.latchAll (s : State) : State :=
  let s := s.foldNat (List.range 1024) fun s i => s.modStn i (Stn.latch (s.stnHandle i))
  let s := s.foldNat (List.range 32) fun s n => s.modStk n fun k => { k with shadow := k.tally }
  let s := s.foldNat (List.range 16) fun s d => s.modDrover d fun v => { v with shadow := v.tally }
  { s with tally := { s.tally with gateShadow := s.tally.gate } }

/-- Every block's programmable counters are set to 0 (R455). -/
def State.clearAll (s : State) : State :=
  let s := s.foldNat (List.range 1024) fun s i => s.modStn i Stn.clearProg
  let s := s.foldNat (List.range 32) fun s n => s.modStk n fun k => { k with tally := { k.tally with prog := [] } }
  let s := s.foldNat (List.range 16) fun s d => s.modDrover d fun v => { v with tally := { v.tally with prog := [] } }
  { s with tally := { s.tally with gate := { s.tally.gate with prog := [] } } }

/-- Send a pulse (R455): every block latches, and CLEAR clears the programmable counters afterwards. A request in the cycle of a
pulse that has been sent joins it, with its reason; one that arrives later while the collection is under way is missed. FLAGS: 1
periodic, 2 manual, 4 cleared. -/
def State.pulse (s : State) (flags : Nat) : State :=
  let clear (s : State) : State := if 4 ≤ flags then s.clearAll else s
  match s.tally.collect with
  | none =>
    let s := s.latchAll
    clear { s with tally := { s.tally with
      seq := s.tally.seq + 1, collect := some ⟨s.tally.seq, s.now, flags, s.tally.selectGen⟩ } }
  | some k =>
    if k.at_ == s.now then clear { s with tally := { s.tally with collect := some { k with flags := k.flags ||| flags } } }
    else { s with tally := { s.tally with missed := satAdd 32 s.tally.missed 1 } }.tlEvent 0

/-! ### Records (R457) -/

/-- A counter in 8 bytes. -/
def ctr {w : Nat} (c : BitVec w) : Bytes := toLe 8 c.toNat

/-- Programmable counters `0 .. n - 1`. -/
def progBytes (m : Sparse (BitVec 48)) (n : Nat) : Bytes := (List.range n).flatMap fun i => ctr (mget 0 m i)

/-- A station entry. -/
def State.stnEntry (s : State) (i : Nat) : Bytes :=
  let t := s.stn i
  let y := t.shadow
  toLe 2 i ++ toLe 2 t.shadowHandle ++ toLe 1 t.shadowState ++ toLe 3 0 ++ ctr y.cycles ++ ctr y.hold ++ ctr y.retired ++
    ctr y.wasted ++ ctr y.front ++ ctr y.back ++ ctr y.weaveBusy ++ ctr y.vPipe ++ ctr y.vSfu ++ ctr y.vRed ++
    ctr y.chanBytes ++ progBytes y.prog 8

/-- RECORD_BYTES of a SET (R457). -/
def recordBytes (set : Nat) : Nat :=
  64 + b2n (bitOf set 0) * 163840 + b2n (bitOf set 1) * 40960 + b2n (bitOf set 2) * 2304 + b2n (bitOf set 3) * 1024 +
    b2n (bitOf set 4) * 128

/-- A dump record from the shadows (R457). -/
def State.record (s : State) (k : Collect) (set : Nat) : Bytes :=
  [0x4E, 0x47, 0x4B, 0x54] ++ toLe 2 1 ++ toLe 2 64 ++ toLe 8 k.seq ++ toLe 8 k.at_ ++ toLe 4 (recordBytes set) ++
    toLe 1 set ++ toLe 1 k.flags ++ toLe 2 0 ++ toLe 4 (min (2 ^ 32 - 1) k.selectGen) ++ toLe 4 s.tally.droppedSince ++ toLe 24 0 ++
    (if bitOf set 0 then (List.range 1024).flatMap s.stnEntry else []) ++
    (if bitOf set 1 then (List.range 1024).flatMap fun i =>
      ctr (s.stn i).sliceShadow.fixed ++ progBytes (s.stn i).sliceShadow.prog 4 else []) ++
    (if bitOf set 2 then (List.range 32).flatMap fun n =>
      ctr (s.stk n).shadow.fixed ++ progBytes (s.stk n).shadow.prog 8 else []) ++
    (if bitOf set 3 then (List.range 16).flatMap fun d => progBytes (s.drover d).shadow.prog 8 else []) ++
    (if bitOf set 4 then progBytes s.tally.gateShadow.prog 16 else [])

/-! ### The stream (R458-R460) -/

/-- RoCEv2 payload bytes sent (R452). -/
def State.roceSent (s : State) (n : Nat) : State := s.gateEvent 5 n

/-- Change queue pair `qpn`. -/
def State.modQp (s : State) (qpn : Nat) (f : Qp → Qp) : State :=
  { s with host := { s.host with qps := s.host.qps.map fun q => if q.qpn == qpn then f q else q } }

/-- The slices that hold the local ring's 4 KiB pieces, in the order of its byte stream: those in failed slices are skipped (R456,
R465). -/
def State.ringPieces (s : State) : List Nat :=
  ((List.range (s.tally.ringKib / 4)).map fun k => k % 8 * 128 + k / 8).filter fun i => !(s.stn i).failed

/-- The local ring's bytes (R456, R465). -/
def State.tallyRing (s : State) : Nat := 4096 * s.ringPieces.length

/-- `n` bytes of the ring's byte stream, from position `a`, are written or read in the slices that hold them, as the rest of the transit
buffers in the autonomous class (R168, R446, R456). No context and no partition has caused them: they are charged to none (log entry
17). -/
def State.ringTraffic (s : State) (a n : Nat) : State :=
  s.foldNat (granules a n) fun s g =>
    s.modStn (s.ringPieces.getD (g % s.ringPieces.length) 1024) (·.sliceBytes 3 (min (a + n) (g * 4096 + 4096) - max a (g * 4096)))

/-- DROPPED of the records in the ring: they have not been written yet (R457). -/
def Tally.ringDropped (t : Tally) : Nat := (t.ring.map fun y => leAt y.2 36 4).sum

/-- Begin the RDMA Write of the oldest record in the ring (R459), which its slices are read for. -/
def State.writeHead (s : State) : State :=
  match s.tally.stream, s.tally.ring with
  | some t, (seq, bs) :: _ =>
    let m := t.bytes / bs.length
    let s := s.ringTraffic (s.tally.ringPos - (s.tally.ring.map (·.2.length)).sum) bs.length
    ((s.roceSent bs.length).emit (.rdmaWrite t.qpn (t.va + seq % m * bs.length) t.rkey bs)).modQp t.qpn fun q =>
      { q with reqSentAt := s.now }
  | _, _ => s

/-- The stream is over: the stop that waits for it replies (R460). Records of the ring that are discarded unwritten leave their DROPPED to
the next record that is written (R457). -/
def State.endStream (s : State) (status : BitVec 16) : State :=
  let owed := s.tally.stream.bind (·.owed)
  let s := { s with tally := { s.tally with
    stream := none, ring := [], ringPos := 0, droppedSince := satAdd 32 s.tally.droppedSince s.tally.ringDropped } }
  match owed with
  | some o => s.replyOwed o status
  | none => s

/-- A stop: no further periodic pulse; the ring drains (R460). -/
def State.stopStream (s : State) (owed : Option Owed) : State :=
  match s.tally.stream with
  | none => s
  | some t =>
    let t := { t with stopping := true, owed := match owed with | some o => some o | none => t.owed }
    let s := { s with tally := { s.tally with stream := some t } }
    if s.tally.ring.isEmpty then s.endStream 0 else s

/-- The owning slot's session ends: the stream ends as for a stop, without a reply (R460). -/
def State.streamOwnerGone (s : State) (k : Slot) : State :=
  match s.tally.stream with
  | none => s
  | some t =>
    if t.owner != k then s
    else { s with tally := { s.tally with stream := some { t with owed := none } } }.stopStream none

/-- The stream's queue pair enters the error state: the ring is discarded (R460). -/
def State.streamFails (s : State) (qpn : Nat) : State :=
  match s.tally.stream with
  | none => s
  | some t => if t.qpn != qpn then s else (s.endStream 0x0502).tlEvent 2

/-- A collected record enters the local ring when a stream runs whose start was before the pulse, or is dropped for want of room (R455,
R456, R459, R460). -/
def State.collected (s : State) (k : Collect) : State :=
  let s := { s with tally := { s.tally with collect := none } }
  match s.tally.stream with
  | none => s
  | some t =>
    if t.stopping || k.seq < t.firstSeq then s
    else
      let n := recordBytes t.set.toNat
      if s.tallyRing < (s.tally.ring.map (·.2.length)).sum + n then
        { s with tally := { s.tally with
          dropped := satAdd 32 s.tally.dropped 1, droppedSince := satAdd 32 s.tally.droppedSince 1 } }.tlEvent 1
      else
        let first := s.tally.ring.isEmpty
        let s := { s with tally := { s.tally with
          ring := s.tally.ring ++ [(k.seq, s.record k t.set.toNat)], droppedSince := 0 } }
        let s := s.ringTraffic s.tally.ringPos n
        let s := { s with tally := { s.tally with ringPos := s.tally.ringPos + n } }
        if first then s.writeHead else s

/-- The oldest record's RDMA Write is acknowledged: its place is free (R459, R460). -/
def State.recordWritten (s : State) : State :=
  match s.tally.stream, s.tally.ring with
  | some t, _ :: rest =>
    let s := { s with tally := { s.tally with ring := rest } }
    if rest.isEmpty then (if t.stopping then s.endStream 0 else s) else s.writeHead
  | _, _ => s

/-! ### Selectable events and peeks (R451, R452, R462) -/

/-- A station event code of R451, or 0. -/
def stnCode (c : Nat) : Bool := c ≤ 8 || (0x10 ≤ c && c ≤ 0x21)

/-- Every byte of the low `n` bytes of a selection satisfies `f`. -/
def codesOk (f : Nat → Bool) (n : Nat) (w : Word) : Bool := (List.range n).all fun i => f (bitsOf w.toNat (8 * i) 8)

/-- Blocks and counters of a TL_PEEK_SEL KIND: block count, fixed counters, programmable counters (R462). -/
def peekKind : Nat → Option (Nat × Nat × Nat)
  | 1 => some (1024, 11, 8)
  | 2 => some (1024, 1, 4)
  | 3 => some (32, 1, 8)
  | 4 => some (16, 0, 8)
  | 5 => some (1, 0, 16)
  | _ => none

/-- Event codes of R452: slice, HBM controller, drover, gate die. -/
def sliceCode (c : Nat) : Bool := c ≤ 6
/-- HBM event codes. -/
def hbmCode (c : Nat) : Bool := c ≤ 7
/-- Drover event codes. -/
def drvCode (c : Nat) : Bool := c ≤ 8
/-- Gate event codes. -/
def gateCode (c : Nat) : Bool := c ≤ 12

/-- A TL_PEEK_SEL value names a counter (R462). -/
def peekOk (w : Word) : Bool :=
  match peekKind (bitsOf w.toNat 48 4) with
  | none => false
  | some (n, f, p) =>
    let c := bitsOf w.toNat 0 8
    bitsOf w.toNat 32 16 < n && (c < f || (16 ≤ c && c < 16 + p))

/-- Counter `c` of a station's counters. -/
def StnTally.at_ (t : StnTally) (c : Nat) : Nat :=
  match c with
  | 0 => t.cycles.toNat | 1 => t.hold.toNat | 2 => t.retired.toNat | 3 => t.wasted.toNat | 4 => t.front.toNat
  | 5 => t.back.toNat | 6 => t.weaveBusy.toNat | 7 => t.vPipe.toNat | 8 => t.vSfu.toNat | 9 => t.vRed.toNat
  | 10 => t.chanBytes.toNat
  | _ => (mget 0 t.prog (c - 16)).toNat

/-- Counter `c` of another block's counters. -/
def BlkTally.at_ (t : BlkTally) (c : Nat) : Nat := if c == 0 then t.fixed.toNat else (mget 0 t.prog (c - 16)).toNat

/-- TL_PEEK_VALUE (R462). -/
def State.peekValue (s : State) : Nat :=
  let w := s.tally.peek
  let i := bitsOf w.toNat 32 16
  let c := bitsOf w.toNat 0 8
  let sh := w.getLsbD 63
  match bitsOf w.toNat 48 4 with
  | 1 => (if sh then (s.stn i).shadow else (s.stn i).tally).at_ c
  | 2 => (if sh then (s.stn i).sliceShadow else (s.stn i).slice).at_ c
  | 3 => (if sh then (s.stk i).shadow else (s.stk i).tally).at_ c
  | 4 => (if sh then (s.drover i).shadow else (s.drover i).tally).at_ c
  | 5 => (if sh then s.tally.gateShadow else s.tally.gate).at_ c
  | _ => 0

end Sys2Proof.Machine
end

