-- ==== Sys2Proof/Machine/Life.lean ====
section
/-!
DEFINITION. What starts, halts, contains, zeroizes and resets do (14_security.md R428, R431; 15_bring_up.md R434-R444;
12_partitions_contexts.md R353, R354; 13_power_thermal.md R399; 17_failures_service.md R471).
-/

namespace Sys2Proof.Machine

/-! ### Sessions and outstanding commands (R335, R341) -/

/-- The BATON event (R337): KIND and the former holder. -/
def State.batonEvent (s : State) (kind : Nat) (k : Slot) : State :=
  s.postEvent 0x8009 0xFFFF (toBe 1 kind ++ toBe 1 (slotCode k).toNat ++ toBe 2 0 ++ toBe 4 s.cmd.batonGen.toNat)

/-- The baton is free (R338). -/
def State.freeBaton (s : State) : State := { s with cmd := { s.cmd with baton := none, batonEnd := 0, batonReported := false } }

/-- A slot's session ends: cache and events go, a stream of its own stops, and a held baton is freed with its event (R335,
R338, R460). -/
def State.endSession (s : State) (k : Slot) : State :=
  let s := s.streamOwnerGone k
  let s := s.modSession k fun _ => {}
  if s.cmd.baton == some k then s.freeBaton.batonEvent 3 k else s

/-- Every session ends at once (R416, R428, R438): nothing is left to receive an event, and a stream ends as for a stop
(R460). -/
def State.endSessions (s : State) : State :=
  let s := (s.streamOwnerGone .a).streamOwnerGone .b
  { s with cmd := { s.cmd with a := {}, b := {}, waiting := [] } }.freeBaton

/-- The local dump ring is lost, and with it the stream (R456, R460). -/
def State.dropStream (s : State) : State :=
  { s with tally := { s.tally with
    stream := none, ring := [], ringPos := 0, droppedSince := satAdd 32 s.tally.droppedSince s.tally.ringDropped } }

/-- Outstanding commands receive no reply (R341). -/
def State.dropOwed (s : State) : State :=
  let s := s.foldNat s.loadedCtxs fun s c => s.modCtx c fun k => { k with owed := [] }
  { s with
    host := { s.host with fetches := [], loads := [], service := [] }
    tally := { s.tally with stream := s.tally.stream.map fun t => { t with owed := none } }
    cmd := { s.cmd with serial := [] }
    sec := { s.sec with
      fwRead := s.sec.fwRead.map fun r => { r with owed := none }
      fwWrite := s.sec.fwWrite.map fun w => { w with owed := none } } }

/-! ### Halting -/

/-- Leaving split mode puts the kind-0 queue pairs in the error state (R322). -/
def State.leaveSplit (s : State) : State := if s.mode == 1 then s.errorQps fun q => q.kind == 0 else s

/-- GATE_MODE becomes 0x03, and every session ends (R416); 0x04 is left only by a loss of power (R431). -/
def State.halted (s : State) : State := if s.mode == 4 then s else (s.cutDrains.leaveSplit.setMode 3).endSessions

/-- The slices are written to zero: what split mode, the transit buffers and the dump ring in them hold goes (R428, R431,
R456). -/
def State.zeroSlices (s : State) : State := { s.dropStream with cst := { s.cst with split := [], transit := [] } }

/-- The lattice dies, store dies and HBM stacks lose power (R395, R399, R438, R471): what they hold is lost. -/
def State.diesOff (s : State) : State :=
  let s := s.foldNat (List.range 1024) fun s i => s.modStn i Stn.clear
  { s.zeroSlices with
    bring := { s.bring with diesOn := false, trained := false, selfTested := false }
    cst := { s.zeroSlices.cst with hbm := [] }
    images := [], pages := [], seals := []
    pfx := { s.pfx with ledger := [] } }

/-- HALT's action (R341). -/
def State.doHalt (s : State) : State := (((s.departure 3).dropOwed).tearDownAll 0x0C).halted

/-- The keys are erased (R428 step 6). -/
def State.eraseKeys (s : State) : State :=
  let s := s.foldNat (List.range 8) fun s p => s.modPart p fun q => { q with key := 0, seed := 0, ledgerKey := 0 }
  { s with sec := { s.sec with atPriv := none } }

/-- Steps 3-6 of the contain column and GATE_MODE 0x03 (R428, R431). -/
def State.contain (s : State) (cause : Nat) (reason : BitVec 8) : State :=
  (((s.departure cause).tearDownAll reason).zeroSlices.eraseKeys.endSessions).halted

/-- ZEROIZE begins (R431). -/
def State.zeroizeBegin (s : State) : State :=
  let s := s.dropOwed.contain 4 0x0E
  { s with sec := { s.sec with zeroizing := true } }

/-- Steps 2-4 of ZEROIZE (R431). -/
def State.zeroizeEnd (s : State) : State :=
  { s with
    sec := { s.sec with zeroizing := false }
    cst := { s.cst with hbm := [] }
    images := [], pages := [], seals := []
    pfx := { s.pfx with ledger := [] }
    nv := { s.nv with
      slotA := { lastSession := s.nv.slotA.lastSession }
      slotB := { lastSession := s.nv.slotB.lastSession }
      net := {}, layout := 1, fallbackW := 2400, policy := {}, savedRec := none, faults := [], faultSeq := 0 }
    gate := { s.gate with mode := 4 } }

/-! ### Saving (R399, R471) -/

/-- The save's fault-log entries: one for each context (R399, R471). -/
def State.saveEntries (s : State) (reason : BitVec 8) : State :=
  s.foldNat s.loadedCtxs fun s c =>
    s.logFaultQuiet (teardownEntry (s.ctx c) ⟨reason, 0, 0xFFFF, 0, s.now⟩ true)

/-- The open ledger window closes with LAST_GASP set and is saved; another begins (R386, R399, R400). -/
def State.closeSaved (s : State) : State :=
  if s.gov.meterSince.isNone then s
  else
    let r := s.openRecord s.now false true
    let s := if bitOf r.flags 1 then s else s.gvEvent 3
    { s with
      nv := { s.nv with savedRec := some r }
      gov := { s.gov with
        windows := (r :: s.gov.windows).take 64
        openStart := s.now, openFallback := s.gov.source != 1, openBreach := false, openModel := 0
        envLog := [(s.now, s.gov.envelope)] } }

/-- GATE_MODE 0x03 after a trip or a save begins, in which the package draws at most 90 W (R489). -/
def State.beginQuiet (s : State) : State :=
  if s.mode != 3 || (s.gov.quiet.head?.any fun q => q.2.isNone) then s
  else { s with gov := { s.gov with quiet := (s.now, none) :: s.gov.quiet } }

/-- A reset ends it. -/
def Gov.endQuiet (g : Gov) (now : Nat) : Gov := { g with quiet := g.quiet.map fun (a, b) => (a, b.or (some now)) }

/-- A save: DEPARTURE, every context lost, the dies off, MRAM written, GATE_MODE 0x03; no event and no reply (R399, R471). It is under
way for a free time of at most 3 ms. -/
def State.save (s : State) (cause : Nat) (reason : BitVec 8) (removal : Bool) : State :=
  let alert := s.alert
  let (d, s) := s.draw
  let s := (s.departure cause).dropOwed.saveEntries reason
  let s := if removal then s.logFaultQuiet { kind := 0x0B, flags := 2 } else s
  let s := { s.errorQps (fun q => q.kind == 1) with ctxs := [], sec := { s.sec with fwRead := none, fwWrite := none } }
  let s := s.foldNat (List.range 8) fun s p => s.modPart p fun q => { q with holder := none }
  let s := s.diesOff.closeSaved.halted.beginQuiet
  { s with bring := { s.bring with saveEnd := s.now + 1 + (Config.openValue d).toNat % ms 3, alertHeld := alert } }

/-- The gate die loses power (R399, R435): the package is off until power is applied. -/
def State.powerOff (s : State) : State :=
  { s.dropStream.endSessions with bring := { s.bring with
      powered := false, pgood := false, romDone := false, fuseLocked := false, reservoir := false, diesOn := false, trained := false
      selfTested := false } }

/-! ### Partitions (R236, R353, R354) -/

/-- The ways of partition `p` at its creation: those of its eighths (R236, R350). -/
def waysOf (e p : Nat) : BitVec 8 := BitVec.ofNat 8 ((List.range e).map fun i => 2 ^ (p * e + i)).sum

/-- Partition `p` is created (R354). -/
def State.createPart (s : State) (p : Nat) : State :=
  let (d, s) := s.draw
  s.modPart p fun _ => { seed := Config.partitionSeed d, ledgerKey := Config.ledgerKey d, ways := waysOf s.eighths p }

/-- An island as the governor takes it up anew (R384, R406, R444): its cap at 2,700 MHz, its target at 2,100 MHz, or at the shed's. -/
def Stn.ungoverned (t : Stn) (shed : Bool) : Stn :=
  { t with island := { t.island with thermalCap := 2700, target := if shed then 1000 else 2100 } }

/-- Every partition is destroyed and `n` new ones are created, their slices, stations and stacks zero (R353, R354, R423). -/
def State.createLayout (s : State) (n : Nat) : State :=
  let s := { s with
    sched := { s.sched with count := n }, nv := { s.nv with layout := n }
    parts := [], ctxs := [], images := [], pages := [], seals := []
    pfx := { s.pfx with ledger := [] }, kvw := { s.kvw with lab := [] }
    cst := { s.cst with split := [], hbm := [], transit := [] } }
  let s := s.foldNat (List.range 1024) fun s i => s.modStn i fun t => (t.clear).ungoverned s.gov.shed
  s.foldNat (List.range n) State.createPart

/-! ### The power-up sequence and the warm reset (R434-R440) -/

/-- LAST_GASP_RECORD of GV_EVENT, as MRAM has it (R400, R406). -/
def State.gaspEvent (s : State) : Word := if s.nv.savedRec.isSome then 0x80 else 0

/-- Step 4 of R434 begins: the dies are powered, and the counters on them start at 0 (R447). -/
def State.powerDies (s : State) : State :=
  let s := s.foldNat (List.range 1024) fun s i => s.modStn i fun t =>
    { t with tally := {}, shadow := {}, slice := {}, sliceShadow := {} }
  let s := s.foldNat (List.range 32) fun s n => s.modStk n fun k => { k with state := 1, tally := {}, shadow := {} }
  { s with bring := { s.bring with diesOn := true } }

/-- Step 4 begins once the firmware runs, the reservoir is charged and the presence latch is closed (R434, R473, R487). -/
def State.tryDies (s : State) : State :=
  if s.bring.powered && s.bring.romDone && s.bring.reservoir && !s.bring.diesOn && s.mode == 0 && s.bring.prsntHigh.isNone
  then s.powerDies else s

/-- A station across a warm reset: marks, link bits and what counts since power-up stay (R439, R440). -/
def Stn.warm (t : Stn) : Stn :=
  { arch := {}, state := if t.failed then 4 else 0, failed := t.failed, markFailed := t.markFailed
    linkUp := t.linkUp, linkFailed := t.linkFailed
    island := { stretched := t.island.stretched, minWindow := t.island.minWindow } }

/-- A stack across a warm reset (R439, R440). -/
def Stk.warm (k : Stk) : Stk :=
  { live := k.live, out := k.out, removed := k.removed, corr := k.corr, uncorr := k.uncorr, errAddr := k.errAddr }

/-- Every block at its "At reset" value, with the exceptions of R440; failed lanes stay marked (R463), and an address that failed
Duplicate Address Detection stays unused (R319). -/
def State.reinit (s : State) : State :=
  { pending := s.pending, now := s.now, bring := s.bring, nv := s.nv, out := s.out, free := s.free
    faultSec := s.faultSec, faultRate := s.faultRate, faultSuppressed := s.faultSuppressed
    cmd := { challenges := s.cmd.challenges, beatAt := s.cmd.beatAt }
    host := { link := s.host.link, lanes := s.host.lanes, rxBytes := s.host.rxBytes, txBytes := s.host.txBytes
              dadFailed := s.host.dadFailed }
    gov := { s.gov.endQuiet s.now with event := s.gaspEvent, fresh := {}, alertMask := 0x5C, modelledW := 0, sensors := [] }
    sec := { alarms := s.sec.alarms, contains_ := s.sec.contains_, erases := s.sec.erases, counts := s.sec.counts
             trips := s.sec.trips, tamperOpen := s.sec.tamperOpen, deferred := s.sec.deferred }
    sched := { count := s.nv.layout, generation := s.sched.generation }
    stns := s.stns.filterMap fun (i, t) => if t.warm == {} then none else some (i, t.warm)
    stks := s.stks.filterMap fun (i, k) => if k.warm == {} then none else some (i, k.warm)
    cst := { errAddr := s.cst.errAddr, corr := s.cst.corr, uncorr := s.cst.uncorr, seals := s.cst.seals }
    fab := { merged := s.fab.merged, discard := s.fab.discard
             ports := s.fab.ports.filterMap fun (r, p) => if p.failed == 0 then none else some (r, { failed := p.failed })
             drovers := (List.range 16).foldl (fun m d => mset {} m d
               { completed := (s.drover d).completed, tally := (s.drover d).tally, shadow := (s.drover d).shadow }) [] }
    kvw := { walkers := s.kvw.walkers }
    tally := { dropped := s.tally.dropped, missed := s.tally.missed, selectGen := s.tally.selectGen
               itinRefused := s.tally.itinRefused, storms := s.tally.storms
               gate := s.tally.gate, gateShadow := s.tally.gateShadow } }

/-- Some sensor reads above 90 degrees (R396). -/
def State.above90 (s : State) : Bool := s.gov.sensors.any fun (_, x) => decide (90 < x.temp)

/-- A warm reset (R437-R440): ignored in GATE_MODE 0x04 and during a ZEROIZE. While a sensor reads above 90 degrees it keeps the
package halted, with GATE_MODE 0x03, before step 4 of R438 (R396; the mode during the wait is DEDUCED). -/
def State.warmReset (s : State) : State :=
  if !s.bring.powered || s.mode == 4 || s.sec.zeroizing then s
  else
    let hot := s.above90 || s.bring.hot
    let s := ((s.departure 5).dropOwed).tearDownAll 0x0F
    let s := s.endSessions.diesOff.reinit.toFallback 0
    let s := if hot then s.setMode 3 else s
    { s with bring := { s.bring with
      romDone := false, stopped := false, fuseLocked := false, warm := true, hot := hot, zeroPending := true, removal := false, saveEnd := 0 } }

/-- Step 6 of R434 and the end of a warm reset: the stored layout, GATE_MODE 0x01, THERMTRIP_N released, and the anti-rollback
counter raised to the image's (R396, R411, R438). -/
def State.enterSplit (s : State) : State :=
  let s := s.createLayout s.nv.layout
  let s := { s with gate := { s.gate with mode := 1 }, gov := { s.gov with thermtrip := false }
                    bring := { s.bring with warm := false, hot := false } }
  if s.nv.rollback < s.sec.imageRollback
  then { s with nv := { s.nv with rollback := s.sec.imageRollback } }.seEvent 6
  else s

/-- Split-mode access begins when self-test has ended and, after a warm reset, the zeros have reached every populated HBM byte
(R425, R434, R438). -/
def State.trySplit (s : State) : State :=
  if s.bring.selfTested && !s.bring.zeroPending && s.mode == 0 then s.enterSplit else s

end Sys2Proof.Machine
end

