-- ==== Sys2Proof/Machine/Regs.lean ====
section
/-!
DEFINITION. The control and status registers (01_package.md R22-R34 and the register map of each chapter): what each reads as,
and what a write to it does. Offsets are from 0x00F0_0000_0000.
-/

namespace Sys2Proof.Machine

/-- Element and offset of an array of register groups. -/
def inArray (off base stride n : Nat) : Option (Nat × Nat) :=
  if base ≤ off && off < base + stride * n then some ((off - base) / stride, (off - base) % stride) else none

/-! ### GATE, CMD, HOSTP, SEC (R26-R34, R346-R349, R432, R433) -/

/-- STATIONS_AVAIL (R31). -/
def State.stationsAvail (s : State) : Nat := ((List.range 1024).filter fun i => !(s.stn i).failed).length

/-- GATE registers (R26-R34). -/
def State.readGate (s : State) (o : Nat) : Option Nat :=
  match o with
  | 0x00 => some 0x00004E474B370A27
  | 0x08 => some 0x4200
  | 0x10 => some s.gate.fw.toNat
  | 0x18 => some Config.serial.toNat
  | 0x20 => some (fld s.stationsAvail 32 16 + 0x20300804)
  | 0x28 => some s.gate.mode.toNat
  | 0x30 => some s.uptimeUs
  | 0x38 => some s.gate.scratch.toNat
  | _ => none

/-- CM_BATON (R347). -/
def State.batonReg (s : State) : Nat :=
  let live := s.now < s.cmd.batonEnd
  let st := match s.cmd.baton with
    | none => 0
    | some .a => if live then 1 else 3
    | some .b => if live then 2 else 4
  fld s.cmd.batonGen.toNat 32 32 + fld (if s.cmd.baton.isSome then (s.cmd.batonEnd - s.now) / ms 1 else 0) 16 16 + st

/-- CM_SLOT_A or CM_SLOT_B (R347). -/
def State.slotReg (s : State) (k : Slot) : Nat :=
  let ss := s.session k
  let b := s.binding k
  fld (if ss.open_ then ss.number.toNat else 0) 32 32 + fld ss.events.length 10 11 + fld (s.outstanding k) 5 5 +
    fld (b2n b.ipv4) 2 1 + fld (b2n ss.open_) 1 1 + b2n b.enrolled

/-- CMD registers (R346, R347). -/
def State.readCmd (s : State) (o : Nat) : Option Nat :=
  match o with
  | 0x00 => some 0x100206
  | 0x08 => some s.batonReg
  | 0x10 => some s.cmd.leaseMs
  | 0x18 => some (s.slotReg .a)
  | 0x20 => some (s.slotReg .b)
  | 0x28 => some (fld s.cmd.refused 32 32 + s.cmd.accepted)
  | 0x30 => some (fld s.cmd.suppressed 32 32 + s.cmd.authFails)
  | 0x38 => some s.cmd.event.toNat
  | _ => none

/-- HOSTP registers (R348, R349). -/
def State.readHost (s : State) (o : Nat) : Option Nat :=
  let h := s.host
  let n := s.nv.net
  match o with
  | 0x00 =>
    let training := h.link != 2 && s.alive && s.bring.romDone && h.downAt < s.now
    some (if training then fld (Config.hostLanes s.now).toNat 8 8 + 1 else fld h.lanes.toNat 8 8 + h.link.toNat)
  | 0x08 => some macAddress.toNat
  | 0x10 => some (fld n.prefix6.toNat 56 8 + fld n.prefix4.toNat 48 8 + fld n.port.toNat 32 16 + fld n.vlanId.toNat 16 12 +
      fld (b2n n.vlanEn) 2 1 + fld (b2n n.v4en) 1 1 + b2n n.v6en)
  | 0x18 => some (n.addr6.toNat / 2 ^ 64)
  | 0x20 => some (n.addr6.toNat % 2 ^ 64)
  | 0x28 => some n.addr4.toNat
  | 0x30 => some (fld (h.qps.filter fun q => q.kind != 1).length 16 8 + fld h.qps.length 0 9)
  | 0x38 => some h.rxBytes
  | 0x40 => some h.txBytes
  | 0x48 => some (fld h.fcsErrors 32 32 + h.dropped)
  | 0x50 => some (fld h.cnpSent 32 32 + h.cnpReceived)
  | 0x58 => some h.event.toNat
  | _ => none

/-- The 16 parameter bytes of the alarm policy in force (R426). -/
def AlarmPolicy.toBytes (p : AlarmPolicy) : Bytes :=
  toBe 1 (b2n p.isolation) ++ toBe 1 0 ++ toBe 2 p.authLimit ++ toBe 2 p.authWindowS ++ toBe 2 0 ++
    (List.range 8).flatMap fun n => toBe 1 (if n == 0 then 0 else p.levels.getD n 0)

/-- A slot binding's 56 bytes in CONFIG_DIGEST (R420). -/
def Binding.toBytes (b : Binding) : Bytes :=
  toBe 1 (b2n b.enrolled) ++ toBe 1 (b2n b.ipv4) ++ toBe 6 0 ++ toBe 32 b.key.toNat ++ toBe 16 b.addr.toNat

/-- Generation and id of the plan in force, 0 before one. -/
def State.planGen (s : State) : Nat := match s.fab.plan with | some p => p.gen | none => 0

/-- CONFIG_DIGEST (R420). -/
def State.configDigest (s : State) : Bytes :=
  sha512 (s.nv.slotA.toBytes ++ s.nv.slotB.toBytes ++ s.nv.policy.toBytes ++ toBe 1 s.sched.count ++ toBe 7 0 ++
    ((List.range 8).flatMap fun p => toBe 32 (s.part p).key.toNat) ++ toBe 4 s.planGen ++ toBe 1 s.fabricId ++ toBe 3 0)

/-- An alarm-log entry in 32 little-endian bytes (R430). -/
def AlarmEntry.toBytes (e : AlarmEntry) : Bytes :=
  toLe 8 e.uptimeUs ++ toLe 4 e.boot ++ toLe 1 e.source ++ toLe 1 e.level ++ toLe 1 e.action ++ toLe 1 0 ++
    toLe 8 e.detail.toNat ++ toLe 1 e.part ++ toLe 7 0

/-- Ring index of the newest alarm-log entry (R430, R433). -/
def State.alogHead (s : State) : Nat := (s.nv.alogCount + 255) % 256 * b2n (0 < s.nv.alogCount)

/-- SE_ALOG_DATA: the selected entry's bytes; zeros where none was written (R430, R432). -/
def State.alogData (s : State) : Bytes :=
  match s.nv.alog[(s.alogHead + 256 - s.sec.alogIndex.toNat) % 256]? with
  | some e => e.toBytes
  | none => List.replicate 32 0

/-- SEC registers (R432, R433). -/
def State.readSec (s : State) (o : Nat) : Option Nat :=
  let c := s.sec
  let v := s.nv
  match o with
  | 0x00 => some (fld v.rollback 40 8 + fld c.imageRollback 32 8 + fld (b2n c.tamperOpen) 7 1 + fld (b2n c.contained) 6 1 +
      fld (b2n v.revoked) 5 1 + fld (b2n c.atPriv.isSome) 4 1 + fld (b2n v.policy.isolation) 3 1 + fld (b2n c.bootBank) 2 1)
  | 0x08 => some (fld v.policy.authLimit 48 16 + fld v.policy.authWindowS 32 16 +
      ((List.range 7).map fun i => fld (v.policy.levels.getD (i + 1) 0) (2 * i + 2) 2).sum)
  | 0x10 => some c.event.toNat
  | 0x18 => some (fld c.alarms 32 32 + fld c.contains_ 16 16 + fld c.erases 0 16)
  | 0x20 => some (fld c.trips 32 32 + fld c.tripPart.toNat 20 4 + fld c.tripKind.toNat 16 4 + c.tripAgent.toNat)
  | 0x28 => some (fld s.alogHead 8 8 + c.alogIndex.toNat)
  | 0x30 => some (fld (b2n v.nextBank) 16 1 + fld v.bankB.state 8 8 + fld v.bankA.state 0 8)
  | _ =>
    match inArray o 0x40 8 8, inArray o 0x80 8 4, inArray o 0xA0 8 4, inArray o 0xC0 8 8, inArray o 0x100 8 4 with
    | some (i, 0), _, _, _, _ => some (leAt (toBe 64 c.fwDigest.toNat) (8 * i) 8)
    | _, some (i, 0), _, _, _ => some (leAt c.idPub (8 * i) 8)
    | _, _, some (i, 0), _, _ => some (leAt c.atPub (8 * i) 8)
    | _, _, _, some (i, 0), _ => some (leAt s.configDigest (8 * i) 8)
    | _, _, _, _, some (i, 0) => some (leAt s.alogData (8 * i) 8)
    | _, _, _, _, _ => none

/-! ### GOV (R405, R406) -/

/-- A temperature as an 8-bit reading. -/
def tempField (t : Int) : Nat := min 255 t.toNat

/-- The hottest of sensors `a .. a + n - 1`, and the first that shows it. -/
def State.hottest (s : State) (a n : Nat) : Nat × Nat :=
  (List.range n).foldl (fun (acc : Nat × Nat) i =>
    let t := tempField (s.sens (a + i)).temp
    if acc.1 < t then (t, i) else acc) (0, 0)

/-- GV_THERM (R394, R406). -/
def State.thermReg (s : State) : Nat :=
  let (ti, i) := s.hottest 0 1024
  let (th, n) := s.hottest 1024 32
  fld ti 56 8 + fld th 48 8 + fld (s.hottest 1056 4).1 40 8 + fld (s.hottest 1060 4).1 32 8 + fld i 16 10 + n

/-- An island's thermal cap is below the partition's target (R406). -/
def State.capped (s : State) (p : Nat) : Bool :=
  (s.stnsOfPart p).any fun i => (s.stn i).island.thermalCap < (s.part p).gov.fNow

/-- A partition's GOV registers (R406). -/
def State.readGovPart (s : State) (p o : Nat) : Option Nat :=
  let g := (s.part p).gov
  let on := s.hasPart p
  match o with
  | 0x00 => some (if on then fld (s.share8 p / 8) 48 16 + fld g.fNow 32 16 + fld (min 65535 g.watts) 16 16 + fld (b2n (s.capped p)) 2 1 +
      fld (b2n g.excursion) 1 1 + b2n (decide (g.historyUs < 100000)) else 0)
  | 0x08 => some (if on then energyUj g.energy else 0)
  | 0x10 => some (if on then energyUj g.idle else 0)
  | 0x18 => some (if on then fld (min (2 ^ 32 - 1) g.breachWin) 32 32 + min (2 ^ 32 - 1) g.breachSteps else 0)
  | _ => none

/-- GOV registers (R405, R406). -/
def State.readGov (s : State) (o : Nat) : Option Nat :=
  let g := s.gov
  match o with
  | 0x00 => some 0x096001400A8C0708
  | 0x08 => some (fld s.nv.fallbackW 32 16 + fld g.envelope 16 16 + fld g.source 0 2)
  | 0x10 => some (fld (min (2 ^ 32 - 1) g.grantGen) 32 32 + fld s.leaseLeft 0 32)
  | 0x18 => some (fld (min 65535 s.lastMilliW) 48 16 + fld (min 65535 g.modelledW) 32 16 + fld (min 65535 s.lastSecondW) 16 16 +
      (if g.meterSince.isSome then min 65535 (g.inputMv / 10) else 0))
  | 0x20 => some s.thermReg
  | 0x28 => some g.event.toNat
  | 0x30 => some g.alertMask.toNat
  | 0x38 => some (min (2 ^ 64 - 1) s.measuredMj)
  | 0x40 => some (fld (min (2 ^ 32 - 1) g.breachWindows) 32 32 + fld g.lastCause 0 8)
  | _ =>
    match inArray o 0x1000 0x40 8, inArray o 0x2000 8 128 with
    | some (p, x), _ => s.readGovPart p x
    | _, some (c, 0) => some (energyUj (s.ctx c).energy)
    | _, _ => none

/-! ### SCHED (R374, R375) -/

/-- The code of a context state (R355). -/
def CtxState.code : CtxState → Nat
  | .free => 0 | .loaded => 1 | .ready => 2 | .running => 3 | .saving => 4 | .restoring => 5 | .swapped => 6
  | .swappingOut => 7 | .swappingIn => 8 | .parked => 9 | .held => 10 | .finished => 11 | .tearingDown => 12

/-- The loaded contexts of a partition. -/
def State.ctxsIn (s : State) (p : Nat) : List Nat := (ctxsOfPart p).filter s.loaded

/-- Contexts of partition `p` in a state. -/
def State.countIn (s : State) (p : Nat) (f : Ctx → Bool) : Nat := ((s.ctxsIn p).filter fun c => f (s.ctx c)).length

/-- Caravanserai bytes free for contexts of partition `p` (R375). -/
def State.storeFree (s : State) (p : Nat) : Nat :=
  ((s.stnsOfPart p).map (s.sliceFree fun c => (s.ctx c).occupies)).sum

/-- A partition's SCHED registers. -/
def State.readSchedPart (s : State) (p o : Nat) : Option Nat :=
  let q := s.part p
  let on := s.hasPart p
  match o with
  | 0x00 => some (if on then q.cfg.toNat else 0)
  | 0x08 =>
    let h := match q.holder with | some c => (s.ctx c).handle.toNat | none => 0xFFFF
    some (if on then fld h 48 16 + fld (s.countIn p fun k => k.resv.isSome) 32 8 + fld (s.ctxsIn p).length 24 8 +
      fld (s.countIn p (·.resident)) 16 8 + fld (s.countIn p (·.state == .swapped)) 8 8 + fld s.eighths 0 8
      else fld 0xFFFF 48 16)
  | 0x10 => some (if on then
      fld ((((s.ctxsIn p).filter fun c => (s.ctx c).resv.isSome).map fun c => (s.ctx c).itin.footprint).sum / 1024) 32 32 +
      fld (s.storeFree p / 1024) 0 32 else 0)
  | 0x18 => some (if on then fld q.swaps 32 32 + fld q.preempts 0 32 else 0)
  | 0x20 => some (if on then fld q.tdHandle.toNat 48 16 + fld q.tdReason.toNat 40 8 + fld q.tdDetail.toNat 32 8 +
      q.tdStation.toNat else 0)
  | 0x28 => some (if on then fld (min (2 ^ 32 - 1) q.maxPre) 0 32 else 0)
  | _ => none

/-- A context's SCHED registers. -/
def State.readSchedCtx (s : State) (c o : Nat) : Option Nat :=
  let k := s.ctx c
  match o with
  | 0x00 =>
    let (b, cls) := match k.block with | some x => (true, x.cls) | none => (false, 0)
    some (fld k.handle.toNat 48 16 + fld (b2n k.breach) 35 1 + fld (b2n k.resv.isSome) 34 1 + fld (b2n k.resident) 33 1 +
      fld (b2n b) 32 1 + fld cls 24 8 + k.state.code)
  | 0x08 => some (k.step % 2 ^ 64)
  | 0x10 => some ((k.account s.now).lifeRun % 2 ^ 64)
  | 0x18 => some k.hamperBytes
  | _ => none

/-- SCHED registers (R374, R375). -/
def State.readSched (s : State) (o : Nat) : Option Nat :=
  match o with
  | 0x00 => some 0x003C10800804
  | 0x08 => some (fld s.sched.generation 32 32 + s.sched.count)
  | 0x10 => some s.sched.event.toNat
  | 0x18 => some s.sched.marginPct
  | _ =>
    match inArray o 0x1000 0x40 8, inArray o 0x2000 0x20 128 with
    | some (p, x), _ => s.readSchedPart p x
    | _, some (c, x) => s.readSchedCtx c x
    | _, _ => none

/-! ### TALLY (R461, R462) -/

/-- TL_STREAM (R462). -/
def State.streamReg (s : State) : Nat :=
  match s.tally.stream with
  | none => 0
  | some t => fld t.periodUs 32 32 + fld t.set.toNat 16 8 + fld (slotCode t.owner).toNat 2 2 + (if t.stopping then 2 else 1)

/-- TALLY registers (R461, R462). -/
def State.readTally (s : State) (o : Nat) : Option Nat :=
  let t := s.tally
  match o with
  | 0x00 => some 0x08040808100A0000
  | 0x08 => some 0
  | 0x10 => some t.event.toNat
  | 0x18 => some s.streamReg
  | 0x20 => some (t.seq % 2 ^ 64)
  | 0x28 => some (fld t.dropped 32 32 + t.missed)
  | 0x30 => some t.ringKib
  | 0x38 => some (fld (min (2 ^ 32 - 1) t.selectGen) 0 32)
  | 0x40 => some t.peek.toNat
  | 0x48 => some s.peekValue
  | 0x50 => some (min (2 ^ 64 - 1) t.itinRefused)
  | 0x58 => some (min (2 ^ 64 - 1) t.storms)
  | 0x5180 => some t.selGate0.toNat
  | 0x5188 => some t.selGate1.toNat
  | _ =>
    match inArray o 0x1000 8 1024, inArray o 0x3000 8 1024, inArray o 0x5000 8 32, inArray o 0x5100 8 16 with
    | some (i, 0), _, _, _ => some (s.stn i).sel.toNat
    | _, some (i, 0), _, _ => some (s.stn i).sliceSel.toNat
    | _, _, some (n, 0), _ => some (s.stk n).sel.toNat
    | _, _, _, some (d, 0) => some (s.drover d).sel.toNat
    | _, _, _, _ => none

/-! ### FAB (R316, R317) -/

/-- A port's registers. -/
def FabPort.read (p : FabPort) (now o : Nat) : Option Nat :=
  match o with
  | 0x00 => some (fld p.lanes.toNat 16 8 + fld p.width 8 4 + (if now < p.degradingTo then 6 else p.state.toNat))
  | 0x08 => some (match p.far with | some f => f.serial.toNat | none => 0)
  | 0x10 => some (match p.far with
    | some f => fld f.rack.toNat 32 16 + fld f.tray.toNat 24 8 + fld f.slot.toNat 16 8 + fld f.port.toNat 8 8 + f.role.toNat
    | none => 0)
  | 0x18 => some (fld p.corrected 32 32 + fld p.uncorrected 16 16 + fld p.replays 0 16)
  | 0x20 => some (fld (b2n p.forceUp) 1 1 + b2n p.disable)
  | 0x28 => some (fld p.failed.toNat 8 8 + p.locked.toNat)
  | _ => none

/-- A drover's registers. -/
def Drover.read (v : Drover) (o : Nat) : Option Nat :=
  match o with
  | 0x00 => some (fld v.queue.length 16 8 + fld v.used 0 9)
  | 0x08 => some (min (2 ^ 48 - 1) v.completed)
  | 0x10 => some (fld v.retries 32 32 + v.timeouts)
  | _ => none

/-- FAB registers (R316, R317). -/
def State.readFab (s : State) (o : Nat) : Option Nat :=
  let f := s.fab
  match o with
  | 0x00 => some 0x0000E00808100100
  | 0x08 => some (fld (b2n f.plan.isSome) 63 1 + fld s.planGen 16 32 + s.fabricId)
  | 0x10 => some f.event.toNat
  | 0x18 => some (fld f.holdMs 32 16 + fld f.timeoutUs 0 32)
  | 0x20 => some f.merged
  | 0x28 => some f.discard
  | _ =>
    match inArray o 0x100 8 32, inArray o 0x200 8 4, inArray o 0x1000 0x40 8, inArray o 0x2000 0x20 16, inArray o 0x3000 0x20 8 with
    | some (i, 0), _, _, _, _ => some ((List.range 8).map fun j => fld (s.reach (8 * i + j)).toNat (8 * j) 8).sum
    | _, some (i, 0), _, _, _ => some (bitsOf f.departed.toNat (64 * i) 64)
    | _, _, some (p, x), _, _ => (s.port p).read s.now x
    | _, _, _, some (d, x), _ => (s.drover d).read x
    | _, _, _, _, some (q, 0) => some (s.part q).heldReg.toNat
    | _, _, _, _, some (q, 8) => some (s.part q).holds
    | _, _, _, _, _ => none

/-! ### KVW, PFX, MOE (R244-R248, R281, R282) -/

/-- Walker `w`'s die holds eighths of partition `p` (R230), which exists from the recreation of the layout on (R354, R434). -/
def State.serves (s : State) (w p : Nat) : Bool :=
  (s.mode == 1 || s.mode == 2) && s.hasPart p && (List.range s.eighths).any fun i => (p * s.eighths + i) / 2 == w

/-- A walker's registers (R244, R245); the requests of a context that does not hold its stations lie in its hamper (R233). -/
def State.readWalker (s : State) (w o : Nat) : Option Nat :=
  let x := mget {} s.kvw.walkers w
  let ps := (List.range 8).filter (s.serves w)
  match o with
  | 0x00 => some (fld ((s.loadedCtxs.filter fun c => ps.contains (partOfCtx c) && s.counting c).map fun c =>
      (s.ctx c).walk.reqs.length).sum 8 8 + (ps.map (2 ^ ·)).sum)
  | 0x08 => some x.items
  | 0x10 => some (fld x.misses 32 32 + x.hits)
  | 0x18 => some x.staged
  | _ => none

/-- KVW registers (R244-R246). -/
def State.readKvw (s : State) (o : Nat) : Option Nat :=
  match o with
  | 0x00 => some 0x01000004
  | 0x08 => some s.kvw.event.toNat
  | _ =>
    match inArray o 0x100 0x40 4, inArray o 0x400 0x20 8 with
    | some (w, x), _ => s.readWalker w x
    | _, some (p, 0) =>
      let used := ((s.ctxsIn p).map fun c => match (s.ctx c).itin.kv with
        | some v => v.layers * (s.ctx c).walk.spns.length | none => 0).sum + (s.looseSeals fun l => l.part == p).length
      some (if s.hasPart p then fld (s.reservedSpns p) 32 28 + fld used 0 28 else 0)
    | _, some (p, 8) => some (if s.hasPart p then ((s.ctxsIn p).map fun c => (s.ctx c).liveSeqs.length).sum else 0)
    | _, _ => none

/-- PFX registers (R247, R248). -/
def State.readPfx (s : State) (o : Nat) : Option Nat :=
  match o with
  | 0x00 => some 0x40000008
  | 0x08 => some s.pfx.event.toNat
  | _ =>
    match inArray o 0x1000 0x40 8 with
    | none => none
    | some (p, x) =>
      let q := s.part p
      let l := s.ledgerOf p fun _ => true
      let v : Option Nat := match x with
        | 0x00 => some q.ways.toNat
        | 0x08 => some q.pages
        | 0x10 => some (fld (l.filter fun (_, e) => 0 < e.ref).length 20 20 + fld l.length 0 20)
        | 0x18 => some (fld q.misses 32 32 + q.hits)
        | 0x20 => some (fld q.evicts 32 32 + q.inserts)
        | 0x28 => some q.declined
        | _ => none
      v.map fun n => if s.hasPart p then n else 0

/-- MOE registers (R281, R282). -/
def State.readMoe (s : State) (o : Nat) : Option Nat :=
  match o with
  | 0x00 => some 0x0000100008400040
  | 0x08 => some s.moe.event.toNat
  | 0x10 => some (fld s.moe.mergeNs.toNat 32 16 + fld s.moe.threshold.toNat 16 16 + s.moe.hysteresis.toNat)
  | _ =>
    match inArray o 0x1000 0x40 8, inArray o 0x2000 8 128 with
    | some (p, x), _ =>
      let q := s.part p
      let v : Option Nat := match x with
        | 0x00 => some (fld q.shipped 32 32 + q.servedRows)
        | 0x08 => some (fld q.borrows 32 32 + q.trees)
        | 0x10 => some (fld q.forwarded 32 32 + q.sentBlocks)
        | 0x18 => some (fld q.staleRes 32 32 + q.staleBlk)
        | 0x20 => some (fld q.plansApplied 32 32 + q.plansLate)
        | 0x28 => some (fld q.rowsRefused 32 32 + q.postsRefused)
        | _ => none
      v.map fun n => if s.hasPart p then n else 0
    | _, some (c, 0) => some (fld (s.ctx c).moe.cancels.toNat 16 16 + (s.ctx c).moe.epoch.toNat)
    | _, _ => none

/-! ### CSTORE, HBMC, STN (R199-R209, R56-R63) -/

/-- CSTORE registers (R199-R203). -/
def State.readCst (s : State) (o : Nat) : Option Nat :=
  let c := s.cst
  match o with
  | 0x00 => some 0x0000040020004020
  | 0x08 => some c.event.toNat
  | 0x10 => some c.errAddr.toNat
  | 0x18 => some c.corr
  | 0x20 => some c.uncorr
  | 0x28 => some (fld (b2n c.scrubOn) 32 1 + fld c.scrubS 0 32)
  | 0x30 => some c.seals
  | 0x38 => some s.seals.length
  | _ => none

/-- HBMC registers of stack `n` (R204-R209). -/
def State.readStk (s : State) (n o : Nat) : Option Nat :=
  let k := s.stk n
  match o with
  | 0x00 => some (fld (tempField (s.sens (1024 + n)).temp) 32 8 + fld k.livePcs 16 8 + k.state.toNat)
  | 0x08 => some k.live.toNat
  | 0x10 => some k.corr
  | 0x18 => some k.uncorr
  | 0x20 => some k.errAddr.toNat
  | 0x28 => some (fld (b2n k.scrubOn) 32 1 + fld k.scrubH 0 32)
  | 0x30 => some k.event.toNat
  | 0x38 => some k.channel.toNat
  | _ => none

/-- Station `i`'s registers (R56-R63). -/
def State.readStn (s : State) (i o : Nat) : Option Nat :=
  let t := s.stn i
  match o with
  | 0x00 => some i
  | 0x08 => some (fld (s.stnHandle i) 16 16 + t.state.toNat)
  | 0x10 => some (fld t.island.target 32 16 + fld t.island.lastWindow 16 16 + fld t.island.minWindow 0 16)
  | 0x18 => some (min (2 ^ 48 - 1) t.island.stretched)
  | 0x20 => some (t.links i)
  | 0x28 => some t.fault.toNat
  | 0x30 => some (b2n t.markFailed)
  | _ => none

/-! ### Reading a register (R9, R22-R24) -/

/-- The value of the register at an offset; none where an access is refused (R9, R24). -/
def State.regRead (s : State) (off : Nat) : Option Nat :=
  if off % 8 != 0 then none
  else
    let o := off % 0x100000
    match off / 0x100000 with
    | 0 => s.readGate o
    | 1 => s.readCmd o
    | 2 => s.readGov o
    | 3 => s.readSec o
    | 4 => s.readSched o
    | 5 => s.readTally o
    | 6 => s.readFab o
    | 7 => s.readHost o
    | 8 => s.readKvw o
    | 9 => s.readPfx o
    | 10 => s.readMoe o
    | 11 => s.readCst o
    | _ =>
      match inArray off 0xC00000 0x10000 32, inArray off 0x1000000 0x10000 1024 with
      | some (n, x), _ => s.readStk n x
      | _, some (i, x) => s.readStn i x
      | _, _ => none

end Sys2Proof.Machine
end

