-- ==== Sys2Proof/Machine/Alarm.lean ====
section
/-!
DEFINITION. Alarms and their policy, attestation, and firmware images (14_security.md R407-R413, R418-R430).
-/

namespace Sys2Proof.Machine

/-! ### Alarms (R424, R426-R430) -/

/-- Log an alarm: the entry, the counts and the ALARM event (R428 orders 1 and 2, R430). -/
def State.logAlarm (s : State) (source level action part : Nat) (detail : Word) : State :=
  let e : AlarmEntry := ⟨s.uptimeUs, s.nv.bootCount, source, level, action, detail, part⟩
  let n := mget 0 s.sec.counts source + 1
  let s := { s with
    nv := { s.nv with alog := (e :: s.nv.alog).take 256, alogCount := s.nv.alogCount + 1 }
    sec := { s.sec with alarms := satAdd 32 s.sec.alarms 1, counts := mset 0 s.sec.counts source n } }
  (s.seEvent 2).postEvent 0x8020 0xFFFF
    (toBe 1 source ++ toBe 1 level ++ toBe 1 action ++ toBe 1 part ++ toBe 4 n ++ toBe 8 detail.toNat)

/-- The identity-revoke fuse is blown (R407, R428). -/
def State.revoke (s : State) : State := { s with nv := { s.nv with revoked := true } }

/-- A contain or an erase acts (R428 orders 3-7): it is under way for a free time, at most 5 ms. -/
def State.actAlarm (s : State) (level : Nat) : State :=
  if level == 0 then s
  else
    let s := if level == 2 then { s with sec := { s.sec with erases := satAdd 16 s.sec.erases 1 } }.seEvent 4
      else { s with sec := { s.sec with contains_ := satAdd 16 s.sec.contains_ 1 } }.seEvent 3
    let s := s.contain 3 8
    let (d, s) := s.draw
    let s := { s with sec := { s.sec with
      contained := true, containLevel := level, containEnd := s.now + 1 + (Config.openValue d).toNat % ms 5 } }
    if level == 2 then s.revoke else s

/-- The firmware image that runs (R409). -/
def State.runningBank (s : State) : Bank := if s.sec.bootBank then s.nv.bankB else s.nv.bankA

/-- The level of a source. -/
def State.alarmLevel (s : State) (source : Nat) : Nat := s.nv.policy.levels.getD source 0

/-- AUTH_FAILS has risen by more than AUTH_LIMIT in this window, and source 5 has not fired in it (R427). -/
def State.authDue (s : State) : Bool :=
  !s.sec.authFired && s.sec.authSince == s.second / max 1 s.nv.policy.authWindowS &&
    decide (s.nv.policy.authLimit < s.cmd.authFails - s.sec.authBase)

/-- The condition under which a source fires (R427): source 1 outside a supply event, source 5 as AUTH_LIMIT says. -/
def State.sourceFires (s : State) (source : Nat) : Bool :=
  1 ≤ source && source ≤ 7 && (source != 1 || !s.gov.supplyOut) && (source != 5 || s.authDue)

/-- The code region's hash differs from its value at boot, and the firmware runs to see it (R427 source 6). -/
def State.integrityFails (s : State) (digest : BitVec 512) : Bool :=
  s.bring.powered && s.cmd.responsive && digest != Config.codeDigest s.runningBank.image

/-- The level of a command that fires an alarm, if it is one. -/
def State.firesLevel (s : State) : Instr → Nat
  | .alarmFire source _ _ => if s.sourceFires source then s.alarmLevel source else 0
  | .fwIntegrityCheck digest => if s.integrityFails digest then s.alarmLevel 6 else 0
  | _ => 0

/-- An alarm of a higher level than `level` falls in this gate-die cycle (R428): it stands among the commands that wait. -/
def State.outranked (s : State) (level : Nat) : Bool := s.pending.any fun i => decide (level < s.firesLevel i)

/-- An alarm arrives while a contain or an erase is under way (R428): an erase-level one adds the fuse, any other is only logged. -/
def State.alarmDuring (s : State) (source level part : Nat) (detail : Word) : State :=
  if level == 2 && s.sec.containLevel < 2 then
    let s := s.logAlarm source level 2 part detail
    let s := { s with sec := { s.sec with containLevel := 2, erases := satAdd 16 s.sec.erases 1 } }.seEvent 4
    s.revoke
  else s.logAlarm source level 0 part detail

/-- An alarm source fires (R427, R428): before the firmware starts the action is deferred, during a save or a ZEROIZE only the fuse is
added, and of two alarms in one gate-die cycle the higher level acts. -/
def State.fireAlarm (s : State) (source part : Nat) (detail : Word) : State :=
  let level := s.alarmLevel source
  if !s.saving && !s.cmd.responsive then
    let s := s.logAlarm source level 3 part detail
    { s with sec := { s.sec with deferred := s.sec.deferred ++ [(source, part, detail)] } }
  else if s.saving || s.sec.zeroizing then
    let s := s.logAlarm source level 0 part detail
    if level == 2 then s.revoke else s
  else if s.now < s.sec.containEnd then s.alarmDuring source level part detail
  else if s.outranked level then s.logAlarm source level 0 part detail
  else (s.logAlarm source level level part detail).actAlarm level

/-- The firmware starts and applies the stored levels of alarms that came before it (R428): the highest acts. -/
def State.applyDeferred (s : State) : State :=
  let l := s.sec.deferred.map fun (src, _, _) => s.alarmLevel src
  { s with sec := { s.sec with deferred := [] } }.actAlarm (l.foldl max 0)

/-- The requester's context of a trip (R424): the one that the access carries, else, for a checker at a slice or a stack, the one on the
station that AGENT names; none for the firmware's own access, and none outside the requester's partition (log entry 23). -/
def State.tripWho (s : State) (who : Requester) (detail : Word) : Option Nat :=
  let d := detail.toNat
  let named := who.ctx.or (if bitsOf d 16 4 ≤ 2 then (s.stn (d % 65536)).ctx else none)
  named.filter fun c => decide (c < 128) && partOfCtx c == who.partition

/-- SE_TRIPS [31:0] of a trip of partition `part` (R424, R430, R433). -/
def tripDetail (part : Nat) (detail : Word) : Word :=
  BitVec.ofNat 64 (fld part 20 4 + detail.toNat % 2 ^ 20)

/-- A boundary-checker trip (R424): SE_TRIPS, and the requester's context torn down whatever the level. -/
def State.trip (s : State) (who : Requester) (detail : Word) : State :=
  let d := (tripDetail who.partition detail).toNat
  let s := { s with sec := { s.sec with
    trips := satAdd 32 s.sec.trips 1, tripPart := BitVec.ofNat 4 (d / 2 ^ 20), tripKind := BitVec.ofNat 4 (d / 2 ^ 16)
    tripAgent := BitVec.ofNat 16 d } }.seEvent 0
  match s.tripWho who detail with
  | some c => s.beginTeardown c 8
  | none => s

/-- ALARM_FIRE (R427, R428): a source whose condition holds; a package without power only has its lid mesh broken (R433). -/
def execAlarmFire (source : Nat) (partition : Requester) (detail : Word) (s : State) : Res :=
  if !s.sourceFires source then .next s
  else if !s.bring.powered && !s.saving then
    .next (if source == 4 then { s with sec := { s.sec with tamperOpen := true } } else s)
  else if source == 5 then
    let n := s.cmd.authFails - s.sec.authBase
    let s := { s with sec := { s.sec with authFired := true } }
    .next (s.fireAlarm 5 0xFF (BitVec.ofNat 64 n))
  else if source == 7 then
    .next ((s.trip partition detail).fireAlarm 7 partition.partition (tripDetail partition.partition detail))
  else if source == 4 then
    let s := { s with sec := { s.sec with tamperOpen := true } }
    .next (s.fireAlarm 4 0xFF 0)
  else .next (s.fireAlarm source 0xFF (if source ≤ 3 then detail else 0))

/-- FW_INTEGRITY_CHECK (R427 source 6): the code region's hash differs from its value at boot. -/
def execFwIntegrityCheck (digest : BitVec 512) (s : State) : Res :=
  .next (if s.integrityFails digest then s.fireAlarm 6 0xFF 0 else s)

/-! ### The alarm policy (R426) -/

/-- The lowest level that isolation allows a source (R427). -/
def minLevel (source : Nat) : Nat := if source == 4 || source == 5 then 0 else 1

/-- The offset of the first value of an alarm policy out of range (R426). -/
def policyBad (b : Bytes) : Option Nat :=
  let iso := beAt b 0 1
  if 1 < iso then some 0
  else if beAt b 2 2 < 10 then some 2
  else if beAt b 4 2 < 1 || 3600 < beAt b 4 2 then some 4
  else ((List.range 7).find? fun i =>
    let l := beAt b (9 + i) 1
    2 < l || (iso == 1 && l < minLevel (i + 1))).map (9 + ·)

/-- What an ALARM_POLICY does (R426). -/
def State.alarmPolicy (s : State) (p : Pkt) (_ : Slot) : State :=
  s.withParams p 16 [(1, 1), (6, 2), (8, 1)] fun s =>
    match policyBad p.params with
    | some o => s.reply p 0x0105 (BitVec.ofNat 32 o)
    | none =>
      let iso := beAt p.params 0 1 == 1
      if iso != s.nv.policy.isolation && !s.loadedCtxs.isEmpty then s.reply p 0x0303
      else
        { s with nv := { s.nv with policy := ⟨iso, beAt p.params 2 2, beAt p.params 4 2,
          0 :: (List.range 7).map fun i => beAt p.params (9 + i) 1⟩ } }.reply p 0

/-- ALARM_POLICY (R426). -/
def execAlarmPolicy (p : Pkt) (s : State) : Res := .next (s.receive 0x80 p State.alarmPolicy)

/-! ### Attestation (R418-R420) -/

/-- The report's bytes before its signature (R419). -/
def State.report (s : State) (nonce : Bytes) (part : Nat) : Bytes :=
  let cs := if part < 8 then s.ctxsIn part else []
  toBe 4 0x4E474B41 ++ toBe 2 1 ++ toBe 2 (384 + 80 * cs.length + 64) ++ toBe 8 Config.serial.toNat ++
    toBe 8 s.gate.fw.toNat ++ toBe 2 0x4200 ++ toBe 1 s.nv.rollback ++
    toBe 1 (b2n s.nv.policy.isolation + 2 * b2n s.sec.contained) ++ toBe 1 s.sched.count ++ toBe 1 part ++
    toBe 2 cs.length ++ toBe 8 s.uptimeUs ++ toBe 4 s.sched.generation ++ toBe 4 0 ++ nonce ++
    toBe 64 s.sec.fwDigest.toNat ++ s.configDigest ++ slice s.sec.atPub 0 32 ++ slice s.sec.idPub 0 32 ++
    slice s.sec.aliasSig 0 64 ++ toBe 32 (if part < 8 then (s.part part).key.toNat else 0) ++ toBe 16 0 ++
    cs.flatMap fun c =>
      let k := s.ctx c
      toBe 2 k.handle.toNat ++ toBe 1 k.state.code ++ toBe 5 0 ++ toBe 4 k.itin.job.toNat ++ toBe 4 0 ++ toBe 64 k.digest.toNat

/-- ATTEST (R418, R419). -/
def execAttest (p : Pkt) (s : State) : Res :=
  .next (s.receive 0x81 p fun s p _ => s.withParams p 40 [(33, 7)] fun s =>
    let part := beAt p.params 32 1
    if part != 0xFF && !s.hasPart part then s.reply p 0x0105 32
    else
      match s.sec.atPriv with
      | none => s.reply p 0x0301
      | some key =>
        let r := s.report (slice p.params 0 32) part
        s.reply p 0 0 (r ++ edSign key r))

/-! ### Firmware images (R408-R413) -/

/-- The status with which an image is refused, 0 when it passes (R410, R413). -/
def fwCheck (img : Bytes) (counter : Nat) : BitVec 16 :=
  let n := img.length
  let signer := slice img (n - 96) 32
  if n < 352 || 64 * 2 ^ 20 < n || img.take 4 != [0x4E, 0x47, 0x4B, 0x46] || leAt img 4 2 != 1 || leAt img 6 2 != 256 ||
      leAt img 8 8 != n then 0x0106
  else if beNat (sha512 signer) != Config.fwKeyDigest.toNat then 0x0204
  else if !edVerify signer (img.take (n - 64)) (img.drop (n - 64)) then 0x0204
  else if leAt img 24 2 != 0x4200 then 0x0305
  else if 64 < leAt img 26 1 then 0x0106
  else if leAt img 26 1 < counter then 0x0305
  else 0

/-- A queue pair through which the package reads or writes controller memory for a slot (R322 kind 2). -/
def State.outbound (s : State) (k : Slot) (qpn : Nat) : Option Qp :=
  s.host.qps.find? fun q => q.qpn == qpn && q.kind == 2 && q.slot == k

/-- The write of an image to the bank that is not running begins (R413): state 0x03, and, until it has ended, a part of the image
stands in the bank; how much, and how long the write takes, up to the 30 s of the reply, is free. -/
def State.beginFw (s : State) (owed : Option Owed) (img : Bytes) : State :=
  let (d, s) := s.draw
  let (e, s) := s.draw
  let part : Bank := ⟨img.take ((Config.openValue d).toNat % img.length), 3⟩
  let b := !s.sec.bootBank
  { s with
    sec := { s.sec with fwWrite := some ⟨owed, img, 1 + Config.flashTime e % 29000000⟩ }
    nv := { s.nv with bankA := if b then s.nv.bankA else part, bankB := if b then part else s.nv.bankB } }

end Sys2Proof.Machine
end

