-- ==== Sys2Proof/Machine/HostPort.lean ====
section
/-!
DEFINITION. The host port (11_host_port.md R318-R327, R336, R349): frames and neighbours, RoCEv2 as responder and requester,
congestion, discarded datagrams and events sent again.
-/

namespace Sys2Proof.Machine

/-! ### Frames (R318, R319) -/

/-- Handle a frame of a powered port: counted, and discarded unless admitted. -/
def State.onFrame (s : State) (f : Frame) (g : State → State) : State :=
  if !s.alive then s
  else
    let s := s.heardBytes f.bytes
    if s.admits f then g s else s.missed f.fcsOk

/-- FRAME_DISCARD (R318): a frame that the port does not accept. -/
def execFrameDiscard (f : Frame) (s : State) : Res := .next (s.onFrame f State.dropFrame)

/-- ARP (R318): a request for the port's IPv4 address is answered. -/
def execArp (f : Frame) (m : ArpMsg) (s : State) : Res :=
  .next (s.onFrame f fun s =>
    if m.isRequest && s.own4 m.targetIp then s.emit (.arpReply m.senderMac s.nv.net.addr4 m.senderIp) else s)

/-- The all-nodes multicast address. -/
def allNodes : BitVec 128 := 0xFF020000000000000000000000000001

/-- NEIGHBOR_DISCOVERY (R318, R319): a solicitation for an address of the port is answered, to all nodes when its source is
unspecified; a failed Duplicate Address Detection retires the configured address. -/
def execNeighborDiscovery (f : Frame) (m : NdMsg) (s : State) : Res :=
  .next (s.onFrame f fun s =>
    match m with
    | .solicit t src => if s.own6 t then s.emit (.ndAdvert t (if src == 0 then allNodes else src)) else s
    | .advert _ => s
    | .dadFailed =>
      if s.nv.net.v6en && !s.host.dadFailed then { s.hpEvent 2 with host := { (s.hpEvent 2).host with dadFailed := true } }
      else s)

/-- ICMP_ECHO (R318): an echo request to an address of the port is answered. -/
def execIcmpEcho (f : Frame) (v6 : Bool) (src dst : BitVec 128) (body : Bytes) (s : State) : Res :=
  .next (s.onFrame f fun s =>
    if (if v6 then s.own6 dst else v4Mapped dst && s.own4 (dst.setWidth 32)) then s.emit (.echoReply v6 dst src body) else s)

/-- The addresses in use are probed for duplicates (R318, R319). -/
def State.probeAddrs (s : State) : State :=
  let s := s.emit (.dadProbe linkLocal)
  if s.nv.net.v6en && !s.host.dadFailed then s.emit (.dadProbe s.nv.net.addr6) else s

/-- HOST_LINK_UP (R349): all eight lanes of 1.6TBASE-CR8 are locked; the port's IPv6 addresses are probed (R318). -/
def execHostLinkUp (s : State) : Res :=
  if !s.alive || s.host.link == 2 then .next s
  else .next ({ s with host := { s.host with link := 2, lanes := 0xFF } }.hpEvent 0).probeAddrs

/-- HOST_LINK_DOWN (R349): queues, contexts and sessions stay. -/
def execHostLinkDown (s : State) : Res :=
  if !s.alive || s.host.link != 2 then .next s
  else .next ({ s with host := { s.host with link := 0, lanes := 0, downAt := s.now } }.hpEvent 1)

/-! ### Datagrams and events (R327, R336) -/

/-- PLOUTH_DISCARD (R327): too short, without MAGIC, a reply or an event. -/
def execPlouthDiscard (payload : Datagram) (s : State) : Res :=
  let bs := payload.bytes
  if s.alive && (bs.length < 32 || beAt bs 0 4 != 0x504C5448 || beAt bs 6 2 % 4 != 0)
  then .next (s.heardBytes (s.frameBytes payload.v4 bs.length)).dropFrame
  else .next s

/-- EVENT_RETRANSMIT (R336): every 10 ms the oldest unacknowledged event is sent again. -/
def execEventRetransmit (slot : Slot) (s : State) : Res :=
  let ss := s.session slot
  match ss.events with
  | [] => .next s
  | e :: _ =>
    if !s.alive || !ss.open_ || s.now < ss.sentAt + ms 10 then .next s
    else .next ((s.modSession slot fun ss => { ss with sentAt := s.now }).sendEvent slot e)

/-! ### Queue pairs (R321-R325) -/

/-- The ECN codepoint of what the host port sends: ECT(0) on every RoCEv2 packet, Not-ECT on everything else (R321, R325). -/
def Out.ecn : Out → BitVec 2
  | .roce .. | .cnp _ | .rdmaRead .. | .rdmaWrite .. => 2
  | _ => 0

/-- A RoCEv2 packet is for this port, and of the Reliable Connection service; one of another service is discarded (R318, R321). -/
def State.hearsRoce (s : State) (q : RdmaReq) : Bool := s.admits ⟨0, q.fcsOk, q.vlan⟩ && s.ownAddr q.dstAddr

/-- Answer a request. -/
def State.roce (s : State) (q : RdmaReq) (r : Roce) : State := s.emit (.roce q.qpn q.psn r)

/-- Answer a request with data. -/
def State.roceData (s : State) (q : RdmaReq) (bs : Bytes) : State := (s.roceSent bs.length).roce q (.data bs)

/-- A congestion notification for a CE mark: at most one every 50 us (R325). -/
def State.ceMark (s : State) (p : Qp) (ce : Bool) : State :=
  let due := match p.cnpSentAt with | none => true | some t => t + us 50 ≤ s.now
  if ce && due then
    let s := (s.modQp p.qpn fun p => { p with cnpSentAt := some s.now }).emit (.cnp p.qpn)
    { s with host := { s.host with cnpSent := satAdd 32 s.host.cnpSent 1 } }
  else s

/-- Packets of a message of `n` bytes (R321). -/
def rocePackets (n : Nat) : Nat := max 1 (ceilDiv n 4096)

/-- What a request that has passed the checks of R321, R322 and R324 does, in PSN order: `f` runs the request, `again` answers
a repeated one. `n` is its length in bytes. -/
def State.onQp (s : State) (q : RdmaReq) (n header : Nat) (f : State → Qp → State) (again : State → Qp → State) : State :=
  if !s.alive then s
  else
    let s := s.heardBytes (s.roceBytes q.srcGid header (if header == 16 + 4 then 0 else n))
    if !s.hearsRoce q then s.missed q.fcsOk
    else if q.service != .rc then s
    else match s.host.qps.find? fun p => p.qpn == q.qpn && p.remoteGid == q.srcGid && p.remoteQpn == q.srcQpn with
    | none => s
    | some p =>
      let s := s.ceMark p q.ce
      let ahead := (q.psn + 2 ^ 24 - p.remotePsn) % 2 ^ 24
      if p.error then s.roce q .nak
      else if ahead != 0 && ahead < 2 ^ 23 then s.roce q .sequence
      else if ahead != 0 then again s p
      else if !q.inSubset || p.kind == 2 || 2 ^ 31 < n then s.roce q .invalidRequest
      else if q.rkey != p.rkey then s.roce q .remoteAccess
      else f s p

/-- The next request's PSN follows this one's packets. -/
def State.advancePsn (s : State) (p : Qp) (n : Nat) : State :=
  s.modQp p.qpn fun p => { p with remotePsn := (p.remotePsn + rocePackets n) % 2 ^ 24 }

/-- A write-like request done: acknowledged, its payload counted. -/
def State.roceDone (s : State) (p : Qp) (q : RdmaReq) (n : Nat) : State := ((s.gateEvent 4 n).advancePsn p n).roce q .ack

/-- Kinds of region that a controller writes and reads (R323); the summary ring and the block tables only to read. -/
def Ctx.hostKind (k : Ctx) (write : Bool) (r : Region) (a n : Nat) : Bool :=
  r.kind == 3 || r.kind == 7 || r.kind == 5 ||
    (!write && (r.kind == 6 || (r.kind == 4 && (match k.itin.kv with | some v => v.inTables a n | none => false))))

/-- Every region that `n` bytes at `a` touch admits the access (R323). -/
def Ctx.hostAccess (k : Ctx) (write : Bool) : Nat → Nat → Nat → Bool
  | 0, _, n => n == 0
  | fuel + 1, a, n =>
    n == 0 || (match k.itin.regions.find? (·.holds a 1) with
      | none => false
      | some r =>
        let m := min n (r.base + r.bytes - a)
        k.hostKind write r a m && k.hostAccess write fuel (a + m) (n - m))

/-- An access by a controller to a context's store is admitted. -/
def Ctx.hostStore (k : Ctx) (write : Bool) (a n : Nat) : Bool := k.hostAccess write (k.itin.regions.length + 1) a n

/-- `n` bytes at `a` lie in the store window (R174). -/
def inStore (a : Nat) : Bool := a < 0x00F000000000

/-- Granules of an image that `n` bytes at `o` touch are all held here as home (R323). -/
def State.holdsImage (s : State) (c : Nat) (g : Image) (o n : Nat) : Bool :=
  o + n ≤ g.size && (granules o n).all fun i =>
    match regionOfImage g.regions (i * 4096) with
    | none => false
    | some r => (s.ctx c).holdsHome r.homes (s.imagePlace g.part g.regions (i * 4096)).1

/-- An image write by a controller, granule by granule through the transit buffers (R173, R180). -/
def State.imageWrite (s : State) (c : Nat) (g : Image) (o : Nat) (bs : Bytes) : State :=
  (pieces o bs.length).foldl (fun s (x, i, n) =>
    s.inbound ((s.imagePlace (partOfCtx c) g.regions x).2.1 / 4) n (.image g.part g.id x (slice bs i n))) s

/-- A request for a context that is not resident: sent again later, and the context has a host answer (R357, R367). -/
def State.notResident (s : State) (c : Nat) (q : RdmaReq) : State :=
  (s.modCtx c fun k => { k with hostAnswer := true }).roce q .rnr

/-- RDMA_WRITE on a context's queue pair (R323, R357). -/
def State.ctxWrite (s : State) (p : Qp) (q : RdmaReq) (data : Bytes) : State :=
  let c := p.ctx
  let n := data.length
  if inStore q.addr then
    if !(s.ctx c).resident then s.notResident c q
    else if !(s.ctx c).hostStore true q.addr n then s.roce q .remoteAccess
    else (s.remoteStore c q.addr data).roceDone p q n
  else
    match s.imageOf c with
    | none => s.roce q .remoteAccess
    | some g =>
      let o := q.addr - imageWindow
      if q.addr < imageWindow || !g.open_ || !s.holdsImage c g o n then s.roce q .remoteAccess
      else (s.imageWrite c g o data).roceDone p q n

/-- RDMA_WRITE (R322-R324). -/
def execRdmaWrite (q : RdmaReq) (data : Bytes) (s : State) : Res :=
  .next (s.onQp q data.length 16 (fun s p =>
    if p.kind == 1 then s.ctxWrite p q data
    else if !s.splitAccess q.addr data.length then s.roce q .remoteAccess
    else (s.splitWrite q.addr data).roceDone p q data.length) fun s _ => s.roce q .ack)

/-- What an RDMA Read returns, or its refusal (R323, R357). Bytes of a poisoned granule are not delivered (R196): the read is refused as
one without access (DESIGN CHOICE, log entry 16: no rule names the NAK). -/
def State.ctxRead (s : State) (p : Qp) (q : RdmaReq) (n : Nat) : State :=
  let c := p.ctx
  if inStore q.addr then
    if !(s.ctx c).resident then s.notResident c q
    else if !(s.ctx c).hostStore false q.addr n then s.roce q .remoteAccess
    else (((s.seenStore c).storeTraffic c 2 q.addr n).advancePsn p n).roceData q (rdBytes (s.storeSeen c) q.addr n)
  else
    match s.imageOf c with
    | none => s.roce q .remoteAccess
    | some g =>
      let o := q.addr - imageWindow
      if q.addr < imageWindow || !s.holdsImage c g o n || g.poisoned o n then s.roce q .remoteAccess
      else ((s.imageTraffic (partOfCtx c) g.regions 2 o n (some c)).advancePsn p n).roceData q
        (s.imageBytes (partOfCtx c) g.id o n)

/-- An RDMA Read of either kind of queue pair. -/
def State.doRead (s : State) (q : RdmaReq) (n : Nat) (p : Qp) : State :=
  if p.kind == 1 then s.ctxRead p q n
  else if !s.splitAccess q.addr n then s.roce q .remoteAccess
  else ((s.splitTraffic q.addr n).advancePsn p n).roceData q (s.splitBytes q.addr n)

/-- RDMA_READ (R322-R324): a repeated read is executed again and moves no PSN. -/
def execRdmaRead (q : RdmaReq) (len : Nat) (s : State) : Res :=
  .next (s.onQp q len 20 (fun s p => s.doRead q len p) fun s p =>
    if q.rkey != p.rkey then s.roce q .remoteAccess
    else (s.doRead q len p).modQp p.qpn fun x => { x with remotePsn := p.remotePsn })

/-- A Send that is refused puts the queue pair in the error state (R324). -/
def State.sendRefused (s : State) (p : Qp) (q : RdmaReq) : State :=
  (s.errorQps fun x => x.qpn == p.qpn).roce q .invalidRequest

/-- RDMA_SEND (R324): into the Send ring, and the receive token rises. -/
def execRdmaSend (q : RdmaReq) (data : Bytes) (s : State) : Res :=
  .next (s.onQp { q with rkey := match s.host.qps.find? fun p => p.qpn == q.qpn with | some p => p.rkey | none => q.rkey }
    data.length 0 (fun s p =>
      let c := p.ctx
      let n := data.length
      if p.kind != 1 || p.recvSlots == 0 || p.slotBytes < n then s.sendRefused p q
      else
        let a := p.recvBase + p.sends % p.recvSlots * p.slotBytes
        if !(s.ctx c).resident then s.notResident c q
        else if !((s.ctx c).region a n).any (·.kind == 3) then s.roce q .remoteAccess
        else
          let s := (s.remoteStore c a data).modQp p.qpn fun p => { p with sends := p.sends + 1 }
          let s := (s.roceDone p q n)
          s.incToken c p.recvStation p.recvToken 1 .hostSend true none) fun s _ => s.roce q .ack)

/-! ### Congestion (R325) -/

/-- Line rate in kb/s. -/
def lineRate : Nat := 1600000000

/-- CNP_RECEIVE (R325): the send rate halves, at most once every 50 us and not below 1 Gb/s. -/
def execCnpReceive (qpn : Nat) (s : State) : Res :=
  if !s.alive || (s.host.qps.all fun q => q.qpn != qpn) then .next s
  else
    let s := s.modQp qpn fun q =>
      let due := match q.halvedAt with | none => true | some t => t + us 50 ≤ s.now
      if due then { q with rate := max 1000000 (q.rate / 2), halvedAt := some s.now, raisedAt := s.now }
      else { q with raisedAt := s.now }
    let s := s.heardBytes (s.roceBytes (s.gidOf qpn) 16 0)
    .next { s with host := { s.host with cnpReceived := satAdd 32 s.host.cnpReceived 1 } }

/-- RATE_RECOVERY (R325): after 55 us without a notification the rate rises by 5 % of line rate. -/
def execRateRecovery (qpn : Nat) (s : State) : Res :=
  .next (s.modQp qpn fun q =>
    if s.alive && q.rate < lineRate && q.raisedAt + us 55 ≤ s.now
    then { q with rate := min lineRate (q.rate + lineRate / 20), raisedAt := s.now } else q)

/-! ### The package as requester (R326) -/

/-- Queue pair `qpn` has a request of the package outstanding: an itinerary's RDMA Read, or the stream's RDMA Write. -/
def State.streamWrites (s : State) (qpn : Nat) : Bool :=
  (match s.tally.stream with | some t => t.qpn == qpn | none => false) && !s.tally.ring.isEmpty

/-- A request of the package on an outbound queue pair has been answered. -/
def State.sentOn (s : State) (qpn : Nat) : State := s.modQp qpn fun q => { q with reqSentAt := s.now, retries := 0, rnrs := 0 }

/-- Send the RDMA Read of an ITIN_LOAD (R344, R345). -/
def State.emitFetch (s : State) (o : Owed) : State :=
  let b := o.pkt.params
  (s.emit (.rdmaRead (beAt b 4 4) (beAt b 8 8) (BitVec.ofNat 32 (beAt b 16 4)) (beAt b 24 8))).modQp (beAt b 4 4) fun q =>
    { q with reqSentAt := s.now }

/-- Send the RDMA Read of a FW_UPDATE (R413). -/
def State.emitFwRead (s : State) (r : FwRead) : State :=
  (s.emit (.rdmaRead r.qpn r.va r.rkey r.len)).modQp r.qpn fun q => { q with reqSentAt := s.now }

/-- The RDMA Read of a FW_UPDATE returns the image: it is refused, or its write begins (R413). -/
def State.fwReturns (s : State) (r : FwRead) (img : Bytes) : State :=
  let s := ((s.heardBytes (s.roceBytes (s.gidOf r.qpn) 4 img.length 4)).gateEvent 4 img.length).sentOn r.qpn
  let s := { s with sec := { s.sec with fwRead := none } }
  let e := fwCheck img s.nv.rollback
  if e == 0 then s.beginFw r.owed img
  else match r.owed with
    | some o => s.replyOwed o e
    | none => s

/-- RDMA_COMPLETION (R325, R326, R344, R413): an itinerary's or a firmware image's bytes have returned, or a tally record's write is acknowledged; a CE mark on
the response asks for a congestion notification. -/
def execRdmaCompletion (qpn : Nat) (data : ReadData) (s : State) : Res :=
  if !s.alive then .next s
  else
    let s := match s.host.qps.find? fun p => p.qpn == qpn with | some p => s.ceMark p data.ce | none => s
    match s.host.fetches.find? fun (q, _, _, n) => q == qpn && n == data.bytes.length with
    | some (q, o, part, n) =>
      let s := (s.heardBytes (s.roceBytes (s.gidOf qpn) 4 n 4)).gateEvent 4 n
      let s := s.sentOn qpn
      .next { s with host := { s.host with
        fetches := s.host.fetches.erase (q, o, part, n), loads := s.host.loads ++ [⟨o, part, data.bytes⟩] } }
    | none =>
      match s.sec.fwRead.filter fun r => r.qpn == qpn && r.len == data.bytes.length with
      | some r => .next (s.fwReturns r data.bytes)
      | none =>
      if data.bytes.isEmpty && s.streamWrites qpn then
        .next ((s.heardBytes (s.roceBytes (s.gidOf qpn) 4 0)).recordWritten.sentOn qpn)
      else .next s

/-- Every command that was using queue pair `qpn` fails (R326, R460). -/
def State.requesterFails (s : State) (qpn : Nat) : State :=
  let (gone, left) := s.host.fetches.partition fun (q, _) => q == qpn
  let s := { s with host := { s.host with fetches := left } }
  let s := gone.foldl (fun s (_, o, _) => s.replyOwed o 0x0502) s
  let s := match s.sec.fwRead.filter fun r => r.qpn == qpn with
    | none => s
    | some r =>
      let s := { s with sec := { s.sec with fwRead := none } }
      match r.owed with
      | some o => s.replyOwed o 0x0502
      | none => s
  s.streamFails qpn

/-- The acknowledgement timeout of a requester: 4.096 us x 2^14, in ns (R326). -/
def ackTimeout : Nat := 4096 * 2 ^ 14

end Sys2Proof.Machine
end

