-- ==== Sys2Proof/Machine/Stream.lean ====
section
/-!
DEFINITION. The tally stream's command and its events (16_tallies.md R455-R460).
-/

namespace Sys2Proof.Machine

/-- TALLY_STREAM, OP 1 (R458). -/
def State.streamStart (s : State) (p : Pkt) (k : Slot) : State :=
  let b := p.params
  let set := beAt b 1 1
  if s.mode != 1 && s.mode != 2 then s.reply p 0x0301
  else if 32 ≤ set then s.reply p 0x0102 1
  else if set == 0 then s.reply p 0x0105 1
  else if beAt b 4 4 < 10 || 1000000 < beAt b 4 4 then s.reply p 0x0105 4
  else if (s.outbound k (beAt b 8 4)).isNone then s.reply p 0x0105 8
  else if (s.outbound k (beAt b 8 4)).any (·.error) then s.reply p 0x0502
  else if beAt b 24 8 < recordBytes set then s.reply p 0x0105 24
  else if s.tally.stream.isSome then s.reply p 0x0303
  else
    let t : Stream := { set := BitVec.ofNat 8 set, periodUs := beAt b 4 4, owner := k, qpn := beAt b 8 4
                        rkey := BitVec.ofNat 32 (beAt b 12 4), va := beAt b 16 8, bytes := beAt b 24 8
                        nextAt := s.now + us (beAt b 4 4), firstSeq := s.tally.seq }
    let s := { s with tally := { s.tally with stream := some t, ring := [], ringPos := 0 } }
    s.reply p 0 0 (toBe 4 (recordBytes set) ++ toBe 4 0 ++ toBe 8 s.tally.seq)

/-- TALLY_STREAM, OP 2 (R458, R460): it replies when the last record has been written. -/
def State.streamStop (s : State) (p : Pkt) (k : Slot) : State :=
  match s.tally.stream with
  | none => s.reply p 0x0303
  | some t => if t.owner != k || t.stopping then s.reply p 0x0303 else s.stopStream (some ⟨k, p⟩)

/-- Receive a TALLY_STREAM (R458). -/
def State.streamCmd (s : State) (p : Pkt) : State :=
  s.receive 0xA0 p fun s p k => s.withParams p 32 [(2, 2)] fun s =>
    match beAt p.params 0 1 with
    | 1 => s.streamStart p k
    | 2 => s.withZeros p [(1, 1), (4, 4), (8, 4), (12, 4), (16, 8), (24, 8)] fun s => s.streamStop p k
    | _ => s.reply p 0x0105 0

/-- The packet is a TALLY_STREAM whose OP is 2. -/
def isStop (p : Pkt) : Bool := p.opcode == 0xA0 && beAt p.params 0 1 == 2

/-- TALLY_STREAM_START (R458): every TALLY_STREAM but a stop. -/
def execTallyStreamStart (p : Pkt) (s : State) : Res := .next (if isStop p then s else s.streamCmd p)

/-- TALLY_STREAM_STOP (R460). -/
def execTallyStreamStop (p : Pkt) (s : State) : Res := .next (if isStop p then s.streamCmd p else s)

/-- TALLY_PERIOD_PULSE (R455): the stream's period has elapsed. -/
def execTallyPeriodPulse (s : State) : Res :=
  match s.tally.stream with
  | none => .next s
  | some t =>
    if t.stopping || s.now < t.nextAt then .next s
    else .next ({ s with tally := { s.tally with stream := some { t with nextAt := t.nextAt + us t.periodUs } } }.pulse 1)

/-- TALLY_COLLECT_DONE (R455): the shadows are collected. -/
def execTallyCollectDone (s : State) : Res :=
  match s.tally.collect with
  | none => .next s
  | some k => .next (s.collected k)

/-- TALLY_RECORD_WRITTEN (R459): the oldest record's RDMA Write is acknowledged. -/
def execTallyRecordWritten (s : State) : Res :=
  match s.tally.stream, s.tally.ring with
  | some t, _ :: _ => .next (s.recordWritten.sentOn t.qpn)
  | _, _ => .next s

end Sys2Proof.Machine
end

