-- ==== Sys2Proof/Machine/Commands.lean ====
section
/-!
DEFINITION. Commands over queue pairs, partitions, the wiring plan, jobs, the network, service and the fault log
(R287, R288, R311, R345, R353, R417, R442, R475, R480).
-/

namespace Sys2Proof.Machine

/-! ### QP_CREATE, QP_DESTROY (R322, R345, R475) -/

/-- A free queue pair number: the drawn one, or the first free one (R322). -/
def State.freshQpn (s : State) (d : Nat) : Nat :=
  let n := (Config.freshWord d).toNat % 2 ^ 24
  let used (x : Nat) : Bool := s.host.qps.any fun q => q.qpn == x
  if n < 2 || used n then ((List.range 257).map (2 + ·)).find? (fun x => !used x) |>.getD 2 else n

/-- The pool of a kind has no free queue pair (R322), or all 256 exist (R321). -/
def State.poolFull (s : State) (kind part : Nat) : Bool :=
  if 256 ≤ s.host.qps.length then true
  else if kind == 1 then 28 * s.eighths ≤ (s.host.qps.filter fun q => q.kind == 1 && partOfCtx q.ctx == part).length
  else 32 ≤ (s.host.qps.filter fun q => q.kind != 1).length

/-- A queue pair is created and its number, PSN and RKEY are returned. -/
def State.makeQp (s : State) (p : Pkt) (k : Slot) (kind c : Nat) : State :=
  let b := p.params
  let (d, s) := s.draw
  let (e, s) := s.draw
  let qpn := s.freshQpn d
  let psn := (Config.freshWord e).toNat % 2 ^ 24
  let rkey := BitVec.ofNat 32 ((Config.freshWord e).toNat / 2 ^ 32)
  let q : Qp := { qpn := qpn, kind := kind, slot := k, ctx := c, remoteQpn := beAt b 4 4, remotePsn := beAt b 8 4
                  remoteGid := BitVec.ofNat 128 (beAt b 12 16), localPsn := psn, rkey := rkey, recvBase := beAt b 28 8
                  recvSlots := beAt b 36 4, slotBytes := beAt b 40 4, recvStation := beAt b 44 2, recvToken := beAt b 46 1
                  raisedAt := s.now }
  { s with host := { s.host with qps := s.host.qps ++ [q] } }.reply p 0 0
    (toBe 4 qpn ++ toBe 4 psn ++ toBe 4 rkey.toNat ++ toBe 4 0)

/-- Every slot of a Send ring lies in a Working region (R324). -/
def Ctx.ringOk (k : Ctx) : Nat → Nat → Nat → Nat → Bool
  | 0, _, _, _ => false
  | fuel + 1, a, slots, n =>
    match k.region a n with
    | none => false
    | some r =>
      let m := (r.base + r.bytes - a) / n
      r.kind == 3 && (n == 0 || slots ≤ m || k.ringOk fuel (a + m * n) (slots - m) n)

/-- QP_CREATE after its reserved fields. -/
def State.createQp (s : State) (p : Pkt) (k : Slot) : State :=
  let b := p.params
  let kind := beAt b 0 1
  let gid := BitVec.ofNat 128 (beAt b 12 16)
  if 2 < kind then s.reply p 0x0105 0
  else if bitOf (beAt b 1 1) 0 != v4Mapped gid then s.reply p 0x0105 12
  else if kind != 1 then
    if p.context != 0xFFFF then s.reply p 0x0105 0x8000000A
    else s.withZeros p [(28, 8), (36, 4), (40, 4), (44, 2), (46, 1)] fun s =>
      if kind == 0 && (s.mode != 1 || s.bring.zeroPending) then s.reply p 0x0301
      else if s.poolFull kind 0 then s.reply p 0x0406
      else s.makeQp p k kind 0
  else s.withCtx p fun s c =>
    if (s.ctx c).state == .tearingDown then s.reply p 0x0302
    else if 63 < beAt b 46 1 then s.reply p 0x0105 46
    else if beAt b 36 4 != 0 && !(s.ctx c).ringOk ((s.ctx c).itin.regions.length + 1) (beAt b 28 8) (beAt b 36 4) (beAt b 40 4) then
      s.reply p 0x0105 28
    else if beAt b 36 4 != 0 && s.stnCount c ≤ beAt b 44 2 then s.reply p 0x0105 44
    else if s.poolFull 1 (partOfCtx c) then s.reply p 0x0406
    else s.makeQp p k 1 c

/-- QP_CREATE (R345). -/
def execQpCreate (p : Pkt) (s : State) : Res :=
  .next (s.receive 0x30 p fun s p k => s.withLength p 48 fun s =>
    if 2 ≤ beAt p.params 1 1 then s.reply p 0x0102 1
    else s.withZeros p [(2, 2), (4, 1), (8, 1), (47, 1)] fun s => s.createQp p k)

/-! ### Partitions (R353, R354, R417) -/

/-- What a PART_LAYOUT does (R353). -/
def State.partLayout (s : State) (p : Pkt) (_ : Slot) : State :=
  s.withLength p 8 fun s =>
    let n := beAt p.params 0 1
    let force := beAt p.params 1 1
    if 2 ≤ force then s.reply p 0x0102 1
    else s.withZeros p [(2, 6)] fun s =>
      if n != 1 && n != 2 && n != 4 && n != 8 then s.reply p 0x0105 0
      else if s.mode != 1 && s.mode != 2 then s.reply p 0x0301
      else if force == 0 && !s.loadedCtxs.isEmpty then s.reply p 0x0303
      else
        let s := (s.tearDownAll 0x0A).createLayout n
        let g := satAdd 32 s.sched.generation 1
        { s with sched := { s.sched with generation := g } }.reply p 0 0 (toBe 4 g ++ toBe 4 0)

/-- PART_LAYOUT (R353). -/
def execPartLayout (p : Pkt) (s : State) : Res := .next (s.receive 0x50 p State.partLayout)

/-- What a PART_KEY does (R417). -/
def State.partKey (s : State) (p : Pkt) (_ : Slot) : State :=
  s.withParams p 40 [(1, 7)] fun s =>
    let n := beAt p.params 0 1
    if !s.hasPart n then s.reply p 0x0105 0
    else (s.modPart n fun q => { q with key := BitVec.ofNat 256 (beAt p.params 8 32) }).reply p 0

/-- PART_KEY (R417). -/
def execPartKey (p : Pkt) (s : State) : Res := .next (s.receive 0x51 p State.partKey)

/-! ### The wiring plan (R287, R288) -/

/-- Read a wiring plan's block. -/
def planOf (b : Bytes) : Plan :=
  { gen := beAt b 0 4, id := beAt b 4 1, tray := BitVec.ofNat 8 (beAt b 5 1), rack := BitVec.ofNat 16 (beAt b 6 2)
    slot := BitVec.ofNat 8 (beAt b 8 1)
    ports := (List.range 8).map fun r =>
      (Ident.ofBytes b (16 + 16 * r), bitOf (beAt b (30 + 16 * r) 1) 0) }

/-- Offset of the first nonzero reserved field of a plan's block. -/
def planReserved (b : Bytes) : Option Nat :=
  if !zeroAt b 9 7 then some 9
  else (List.range 8).findSome? fun r =>
    if 3 ≤ beAt b (29 + 16 * r) 1 then some (29 + 16 * r)
    else if 2 ≤ beAt b (30 + 16 * r) 1 then some (30 + 16 * r)
    else if !zeroAt b (31 + 16 * r) 1 then some (31 + 16 * r) else none

/-- A port under a new plan (R288): an up port whose entry is unchanged stays up; another that has trained electrically leaves
live and returns to step 3. FORCE_UP is cleared (R317). -/
def State.replan (s : State) (old : Option Plan) (new : Plan) (r : Nat) : State :=
  let s := s.modPort r fun p => { p with forceUp := false }
  let p := s.port r
  let same := match old with | some o => o.ports[r]? == new.ports[r]? | none => false
  if (p.state == 5 && same) || p.disable || p.draining.isSome || p.step < 3 then s
  else
    (s.railLeaves r fun _ => true).modPort r fun p => p.quiet.identify s.now

/-- What a WIRING_PLAN does (R287, R288). -/
def State.wiringPlan (s : State) (p : Pkt) (_ : Slot) : State :=
  s.withLength p 144 fun s =>
    match planReserved p.params with
    | some o => s.reply p 0x0102 (BitVec.ofNat 32 o)
    | none =>
      let new := planOf p.params
      let old := s.fab.plan
      let moved := match old with | some o => o.id != new.id | none => true
      if new.gen ≤ s.planGen then s.reply p 0x0303
      else if moved && s.loadedCtxs.any fun c => (s.ctx c).itin.job != 0 then s.reply p 0x0303
      else
        let s := { s with fab := { s.fab with plan := some new } }
        (s.foldNat (List.range 8) fun s r => s.replan old new r).reply p 0

/-- WIRING_PLAN (R287, R288). -/
def execWiringPlan (p : Pkt) (s : State) : Res := .next (s.receive 0x60 p State.wiringPlan)

/-! ### Jobs (R311, R312) -/

/-- The context of a job, whatever its state. -/
def State.ctxOfJob (s : State) (job : BitVec 32) : Option Nat :=
  if job == 0 then none else s.loadedCtxs.find? fun c => (s.ctx c).itin.job == job

/-- JOB_TEARDOWN (R311): the job is dead, its context is torn down, and its quarantine begins. -/
def execJobTeardown (p : Pkt) (s : State) : Res :=
  .next (s.receive 0x61 p fun s p k => s.withParams p 8 [(5, 3)] fun s =>
    let job := BitVec.ofNat 32 (beAt p.params 0 4)
    let reason := beAt p.params 4 1
    if reason == 0 || 0x10 < reason then s.reply p 0x0105 4
    else
      match s.ctxOfJob job with
      | none =>
        { s with fab := { s.fab with quarantine := (job, s.now + ms 10) :: s.fab.quarantine.filter fun q => q.1 != job } }.reply
          p 0 0 (toBe 2 0xFFFF ++ toBe 6 0)
      | some c =>
        let s := { s with fab := { s.fab with dead := (job :: s.fab.dead).dedup } }
        let s := s.beginTeardown c (BitVec.ofNat 8 reason)
        s.modCtx c fun x => { x with owed := x.owed ++ [⟨k, p⟩] })

/-! ### The network configuration (R345) -/

/-- What a NET_CONFIG does (R345). -/
def State.netConfig (s : State) (p : Pkt) (_ : Slot) : State :=
  s.withLength p 56 fun s =>
    let b := p.params
    let f := beAt b 0 2
    if 8 ≤ f then s.reply p 0x0102 0
    else s.withZeros p [(6, 2), (26, 2), (52, 4)] fun s =>
      if 0x1000 ≤ beAt b 2 2 then s.reply p 0x0105 2
      else if beAt b 4 2 == 0 || beAt b 4 2 == 4791 then s.reply p 0x0105 4
      else if 128 < beAt b 24 1 then s.reply p 0x0105 24
      else if 32 < beAt b 25 1 then s.reply p 0x0105 25
      else
        let s := s.reply p 0
        State.probeAddrs { s with
          host := { s.host with dadFailed := false }
          nv := { s.nv with net :=
            { v6en := bitOf f 0, v4en := bitOf f 1, vlanEn := bitOf f 2, vlanId := BitVec.ofNat 12 (beAt b 2 2)
              port := BitVec.ofNat 16 (beAt b 4 2), addr6 := BitVec.ofNat 128 (beAt b 8 16)
              prefix6 := BitVec.ofNat 8 (beAt b 24 1), prefix4 := BitVec.ofNat 8 (beAt b 25 1)
              addr4 := BitVec.ofNat 32 (beAt b 28 4), gw6 := BitVec.ofNat 128 (beAt b 32 16)
              gw4 := BitVec.ofNat 32 (beAt b 48 4) } } }

/-- NET_CONFIG (R345): it replies from the old configuration, then the new one is stored and in force. -/
def execNetConfig (p : Pkt) (s : State) : Res := .next (s.receive 0xB0 p State.netConfig)

/-! ### Service (R442) -/

/-- The reply of a SERVICE_START. -/
def State.serviceReply (s : State) (o : Owed) : State :=
  s.replyOwed o 0 0 (toBe 1 s.mode ++ toBe 7 0 ++ toBe 8 s.uptimeUs)

/-- Split mode becomes unified service (R442): kind-0 queue pairs fail and the transit buffers reach HBM. -/
def State.toUnified (s : State) : State :=
  ((s.errorQps fun q => q.kind == 0).foldNat (List.range 8) State.drainAll).setMode 2

/-- Unified service becomes split mode (R442): the ledger is empty, its reserves are returned, slices and HBM are zero. -/
def State.toSplit (s : State) : State :=
  let s := s.foldNat (List.range 8) fun s p => (s.clearLedger p).modPart p fun q => { q with pages := 0 }
  { s with cst := { s.cst with split := [], hbm := [], transit := [] }, pages := [], images := [] }.setMode 1

/-- Run a SERVICE_START whose turn has come (R442). -/
def State.runService (s : State) (o : Owed) : State :=
  let m := beAt o.pkt.params 0 1
  if s.mode != 1 && s.mode != 2 then s.replyOwed o 0x0301
  else if m != 1 && m != 2 then s.replyOwed o 0x0105 0
  else if m == s.mode then s.serviceReply o
  else if m == 2 then s.toUnified.serviceReply o
  else if !s.loadedCtxs.isEmpty then s.replyOwed o 0x0303
  else s.toSplit.serviceReply o

/-- ITIN_LOAD's turn has come (R345, R442): its RDMA Read begins, unless its queue pair is unfit. -/
def State.runLoad (s : State) (o : Owed) : State :=
  let b := o.pkt.params
  match s.outbound o.slot (beAt b 4 4) with
  | none => s.replyOwed o 0x0105 4
  | some q =>
    if q.error then s.replyOwed o 0x0502
    else
      { s with host := { s.host with fetches := s.host.fetches ++ [(q.qpn, o, beAt b 0 1, beAt b 24 8)] } }.emitFetch o

/-- No ITIN_LOAD is under way. -/
def State.noLoads (s : State) : Bool := s.host.fetches.isEmpty && s.host.loads.isEmpty

/-- Waiting SERVICE_START and ITIN_LOAD commands run in order of arrival: a SERVICE_START when no load is under way, an
ITIN_LOAD at once (R442). -/
def State.runQueue : Nat → State → State
  | 0, s => s
  | fuel + 1, s =>
    match s.host.service with
    | [] => s
    | o :: rest =>
      let next := { s with host := { s.host with service := rest } }
      if o.pkt.opcode == 0x40 then State.runQueue fuel (next.runLoad o)
      else if s.noLoads then State.runQueue fuel (next.runService o)
      else s

/-- Run what waits. -/
def State.runServices (s : State) : State := State.runQueue s.host.service.length s

/-- Put a command behind those that wait and run what may run. -/
def State.enqueueService (s : State) (p : Pkt) (k : Slot) : State :=
  State.runServices { s with host := { s.host with service := s.host.service ++ [⟨k, p⟩] } }

/-- Receive a SERVICE_START. -/
def State.serviceCmd (s : State) (p : Pkt) : State :=
  s.receive 0xC0 p fun s p k => s.withParams p 8 [(1, 7)] fun s => s.enqueueService p k

/-- The packet is a SERVICE_START that names split mode. -/
def isSplit (p : Pkt) : Bool := p.opcode == 0xC0 && beAt p.params 0 1 == 1

/-- SERVICE_START_UNIFIED (R442): every SERVICE_START but one that names split mode. -/
def execServiceStartUnified (p : Pkt) (s : State) : Res := .next (if isSplit p then s else s.serviceCmd p)

/-- SERVICE_START_SPLIT (R442). -/
def execServiceStartSplit (p : Pkt) (s : State) : Res := .next (if isSplit p then s.serviceCmd p else s)

/-! ### Retries of the requester (R326) -/

/-- RDMA_RETRY_TIMEOUT (R326): the acknowledgement timeout has passed, or, with `rnr`, the wait that an RNR NAK asked for: the
request is sent again, seven times of either kind; then the queue pair is in the error state. -/
def execRdmaRetryTimeout (qpn : NoAnswer) (s : State) : Res :=
  let rnr := qpn.rnr
  let qpn := qpn.qpn
  match s.host.qps.find? fun q => q.qpn == qpn && q.kind == 2 with
  | none => .next s
  | some q =>
    let read := s.sec.fwRead.filter fun r => r.qpn == qpn
    let busy := s.streamWrites qpn || read.isSome || s.host.fetches.any fun f => f.1 == qpn
    if !s.alive || q.error || !busy || (!rnr && s.now < q.reqSentAt + ackTimeout) then .next s
    else
    let s := if rnr then s.heardBytes (s.roceBytes q.remoteGid 4 0) else s
    if (if rnr then q.rnrs else q.retries) < 7 then
      let s := s.modQp qpn fun q => { q with
        retries := if rnr then q.retries else q.retries + 1, rnrs := if rnr then q.rnrs + 1 else q.rnrs, reqSentAt := s.now }
      let s := if s.streamWrites qpn then s.writeHead else s
      let s := match read with | some r => s.emitFwRead r | none => s
      .next ((s.host.fetches.filter fun f => f.1 == qpn).foldl (fun s f => s.emitFetch f.2.1) s)
    else .next ((s.errorQps fun x => x.qpn == qpn).requesterFails qpn).runServices

/-- QP_DESTROY (R475): what the queue pair was doing for the package fails, and it is freed. -/
def execQpDestroy (p : Pkt) (s : State) : Res :=
  .next (s.receive 0x31 p fun s p _ => s.withParams p 8 [(4, 4)] fun s =>
    let n := beAt p.params 0 4
    if s.host.qps.all fun q => q.qpn != n then s.reply p 0x0105 0
    else
      let s := s.requesterFails n
      ({ s with host := { s.host with qps := s.host.qps.filter fun q => q.qpn != n } }.reply p 0).runServices)

/-! ### FW_UPDATE (R413) -/

/-- What a FW_UPDATE does (R413): its RDMA Read goes out, and is answered at once or later, by RDMA_COMPLETION; the reply follows when the
image has been written, or with the refusal. -/
def State.fwUpdate (s : State) (p : Pkt) (k : Slot) (answer : Option ReadData) : State :=
  s.withParams p 32 [(24, 8)] fun s =>
    let len := beAt p.params 16 8
    match s.outbound k (beAt p.params 0 4) with
    | none => s.reply p 0x0105 0
    | some q =>
      if len < 352 || 64 * 2 ^ 20 < len then s.reply p 0x0106
      else if q.error then s.reply p 0x0502
      else
        let r : FwRead := ⟨some ⟨k, p⟩, q.qpn, beAt p.params 8 8, BitVec.ofNat 32 (beAt p.params 4 4), len⟩
        let s := { s with sec := { s.sec with fwRead := some r } }.emitFwRead r
        match answer with
        | none => s
        | some d => if d.bytes.length != len then s else (s.ceMark q d.ce).fwReturns r d.bytes

/-- FW_UPDATE (R413): the row may carry what its RDMA Read returns. -/
def execFwUpdate (p : Pkt) (answer : Option ReadData) (s : State) : Res :=
  .next (s.receive 0x90 p fun s p k => s.fwUpdate p k answer)

/-! ### The fault log (R480) -/

/-- Entries of the fault log from SEQ `from_`, at most `n`, ascending. -/
def State.faultsFrom (s : State) (from_ n : Nat) : List FaultEntry :=
  (s.nv.faults.reverse.filter fun e => from_ ≤ e.seq).take n

/-- OLDEST_SEQ. -/
def State.oldestFault (s : State) : Nat :=
  match s.nv.faults.getLast? with
  | some e => e.seq
  | none => s.nv.faultSeq

/-- FAULT_LOG_READ (R480). -/
def execFaultLogRead (p : Pkt) (s : State) : Res :=
  .next (s.receive 0xD0 p fun s p _ => s.withParams p 8 [(6, 2)] fun s =>
    let first := beAt p.params 0 4
    let n := beAt p.params 4 2
    if s.mode != 1 && s.mode != 2 && s.mode != 3 then s.reply p 0x0301
    else if n == 0 || 60 < n then s.reply p 0x0105 4
    else if s.nv.faultSeq ≤ first then s.reply p 0x0105 0
    else
      let l := s.faultsFrom first n
      s.reply p 0 0 (toBe 4 s.oldestFault ++ toBe 4 s.nv.faultSeq ++ toBe 4 s.faultSuppressed ++ toBe 2 l.length ++ toBe 2 0 ++
        l.flatMap FaultEntry.toBytes))

end Sys2Proof.Machine
end

