-- ==== Sys2Proof/Machine/RegWrite.lean ====
section
/-!
DEFINITION. What a write to each register does (R10 and the register maps), and the commands REG_READ, REG_WRITE and the
register writes that the operation table lists with an effect of their own.
-/

namespace Sys2Proof.Machine

/-- A register write's outcome: a refusal's status, or the state after it. -/
abbrev RegOut := Except (BitVec 16) State

/-- A write that needs the baton (R10 RW-B, R345). -/
def State.withBaton (s : State) (k : Slot) (f : RegOut) : RegOut := if s.hasLease k then f else .error 0x0203

/-! ### Writes with an effect of their own -/

/-- STN_CTRL (R63, R463); MARK_FAILED of a station that has failed already changes nothing (R467). -/
def State.stnCtrl (s : State) (i v : Nat) : State :=
  let s := if bitOf v 1 then s.modStn i fun t => { t with island := { t.island with minWindow := 0xFFFF } } else s
  if bitOf v 0 && !(s.stn i).failed then (s.modStn i fun t => { t with markFailed := true }).failStation i 0 else s

/-- HB_CTRL (R198, R209). -/
def State.hbCtrl (s : State) (n v : Nat) : State :=
  let ch := bitsOf v 0 5
  let k := s.stk n
  if !(k.live.getLsbD (2 * ch) || k.live.getLsbD (2 * ch + 1)) then s
  else
    let s := s.modStk n fun k => { k with channel := BitVec.ofNat 5 v }
    if bitOf v 8 then s.removeChannel n ch else s

/-- CS_SCRUB (R203, R475): disabling abandons the pass. -/
def State.csScrub (s : State) (v : Nat) : State :=
  { s with cst := { s.cst with
    scrubOn := bitOf v 32, scrubS := clamp 60 86400 (v % 2 ^ 32), scrubPos := if bitOf v 32 then s.cst.scrubPos else 0
    scrubFrom := if bitOf v 32 then s.cst.scrubFrom else none } }

/-- HB_SCRUB (R207, R475). -/
def State.hbScrub (s : State) (n v : Nat) : State :=
  s.modStk n fun k => { k with
    scrubOn := bitOf v 32, scrubH := clamp 1 168 (v % 2 ^ 32), scrubPos := if bitOf v 32 then k.scrubPos else 0
    scrubFrom := if bitOf v 32 then k.scrubFrom else none }

/-- DISABLE of FB_PORT_CTRL (R317, R475, R476): the port leaves live, drains and stays down; cleared, it trains from step 1, once a
drain has ended. -/
def State.portDisable (s : State) (r : Nat) (on : Bool) : State :=
  let p := s.port r
  let mark (s : State) : State := s.modPort r fun p => { p with disable := on }
  if p.disable == on then s
  else if p.draining.isSome then mark s
  else if on then
    let s := mark (s.railLeaves r fun _ => true)
    if p.unacked.isEmpty then s.portDrained r else s.modPort r fun p => { p with draining := some s.now }
  else (mark s).modPort r fun p => p.train s.now

/-- FORCE_UP of FB_PORT_CTRL (R287, R317): a mismatched port goes on to credit initialisation. -/
def State.portForce (s : State) (r : Nat) (on : Bool) : State :=
  let p := s.port r
  let s := s.modPort r fun p => { p with forceUp := on }
  if on && !p.forceUp && p.state == 4 && !p.disable then s.toCredits r else s

/-- RETRAIN of FB_PORT_CTRL (R307, R317): the failed lanes clear and the port trains from step 1, unless it is held down or drains
(R476). -/
def State.portRetrain (s : State) (r : Nat) : State :=
  if (s.port r).disable || (s.port r).draining.isSome then s.modPort r fun p => { p with failed := 0 }
  else (s.railLeaves r fun _ => true).modPort r fun p => { p.train s.now with failed := 0 }

/-- FB_PORT_CTRL (R317). -/
def State.portCtrl (s : State) (r v : Nat) : RegOut :=
  if bitOf v 0 && bitOf v 1 then .error 0x0105
  else
    let s := (s.portDisable r (bitOf v 0)).portForce r (bitOf v 1)
    .ok (if bitOf v 2 then s.portRetrain r else s)

/-- FB_REACH (R303, R305): a rail whose bit clears leaves live toward the package. -/
def State.setReach (s : State) (i v : Nat) : State :=
  s.foldNat (List.range 8) fun s j =>
    let pkg := 8 * i + j
    let old := s.reach pkg
    let new := BitVec.ofNat 8 (bitsOf v (8 * j) 8)
    let s := { s with fab := { s.fab with reach := mset 0xFF s.fab.reach pkg new } }
    s.foldNat ((List.range 8).filter fun r => old.getLsbD r && !new.getLsbD r && s.portUp r) fun s r =>
      s.railLeaves r (· == pkg)

/-- TL_CTRL (R455, R462): FREEZE and CLEAR of one write give one pulse. -/
def State.tlCtrl (s : State) (v : Nat) : State :=
  let f := 2 * b2n (bitOf v 0) + 4 * b2n (bitOf v 1)
  if f == 0 then s else s.pulse f

/-- TL_RING (R462). -/
def State.setRing (s : State) (v : Nat) : RegOut :=
  if s.tally.stream.isSome then .error 0x0303
  else .ok { s with tally := { s.tally with ringKib := clamp 256 4096 (v % 2 ^ 13) / 4 * 4 } }

/-- A selection write (R451-R453): a reserved event code is refused. -/
def State.select (s : State) (ok : Bool) (f : State → State) : RegOut :=
  if ok then
    let s := f s
    .ok { s with tally := { s.tally with selectGen := s.tally.selectGen + 1 } }
  else .error 0x0107

/-- The selection registers (R461, R462). -/
def State.writeSel (s : State) (o v : Nat) : Option RegOut :=
  let w := BitVec.ofNat 64 v
  match o with
  | 0x5180 => some (s.select (codesOk gateCode 8 w) fun s => { s with tally := { s.tally with selGate0 := w } })
  | 0x5188 => some (s.select (codesOk gateCode 8 w) fun s => { s with tally := { s.tally with selGate1 := w } })
  | _ =>
    match inArray o 0x1000 8 1024, inArray o 0x3000 8 1024, inArray o 0x5000 8 32, inArray o 0x5100 8 16 with
    | some (i, 0), _, _, _ => some (s.select (codesOk stnCode 8 w) fun s => s.modStn i fun t => { t with sel := w })
    | _, some (i, 0), _, _ => some (s.select (codesOk sliceCode 4 w) fun s =>
        s.modStn i fun t => { t with sliceSel := BitVec.ofNat 64 (v % 2 ^ 32) })
    | _, _, some (n, 0), _ => some (s.select (codesOk hbmCode 8 w) fun s => s.modStk n fun k => { k with sel := w })
    | _, _, _, some (d, 0) => some (s.select (codesOk drvCode 8 w) fun s => s.modDrover d fun x => { x with sel := w })
    | _, _, _, _ => none

/-- PX_WAYS (R247-R249): the entries in a removed way that nothing references are invalidated. -/
def State.setWays (s : State) (p : Nat) (m : BitVec 8) : RegOut :=
  let old := (s.part p).ways
  let gone := old &&& ~~~ m
  let overlap := (List.range 8).any fun q => q != p && s.hasPart q && (s.part q).ways &&& m != 0
  let l := s.ledgerOf p fun i => gone.getLsbD (i % 8)
  if overlap || l.any fun (_, e) => 0 < e.ref then .error 0x0303
  else
    let s := l.foldl (fun s (i, _) => s.removeLedger i) s
    .ok (s.modPart p fun q => { q with ways := m })

/-- PX_PAGES (R249): the reserve must fit the free HBM, and a lower one evicts. -/
def State.setPages (s : State) (p n : Nat) : RegOut :=
  let old := (s.part p).pages
  if old < n then
    if s.hbmFree p < 65536 * (n - old) then .error 0x0404 else .ok (s.modPart p fun q => { q with pages := n })
  else
    let t := State.evictTo 131072 p n (fun _ => true) s
    if n < t.reserveUsed p then .error 0x0404 else .ok (t.modPart p fun q => { q with pages := n })

/-- SC_P_CFG with each field within its range (R375). -/
def schedCfg (v : Nat) : Word :=
  BitVec.ofNat 64 (fld (clamp 1 10000 (bitsOf v 40 16)) 40 16 + fld (clamp 1 1000 (bitsOf v 30 10)) 30 10 +
    fld (clamp 100 1000000 (bitsOf v 0 30)) 0 30)

/-! ### Every register's write -/

/-- Writes to the registers of the gate die's own blocks; none: the register is read-only. -/
def State.writeGate (s : State) (k : Slot) (block o v : Nat) : Option RegOut :=
  let w := BitVec.ofNat 64 v
  match block, o with
  | 0, 0x38 => some (.ok { s with gate := { s.gate with scratch := w } })
  | 1, 0x10 => some (s.withBaton k (.ok { s with cmd := { s.cmd with leaseMs := clamp 100 60000 (v % 2 ^ 16) } }))
  | 1, 0x38 => some (.ok { s with cmd := { s.cmd with event := w1c s.cmd.event s.cmd.fresh s.now v } })
  | 2, 0x28 => some (.ok { s with gov := { s.gov with event := w1c s.gov.event s.gov.fresh s.now v } })
  | 2, 0x30 => some (s.withBaton k (.ok { s with gov := { s.gov with alertMask := BitVec.ofNat 8 v } }))
  | 3, 0x10 => some (.ok { s with sec := { s.sec with event := w1c s.sec.event s.sec.fresh s.now v } })
  | 3, 0x28 => some (.ok { s with sec := { s.sec with alogIndex := BitVec.ofNat 8 v } })
  | 4, 0x10 => some (.ok { s with sched := { s.sched with event := w1c s.sched.event s.sched.fresh s.now v } })
  | 4, 0x18 => some (s.withBaton k (.ok { s with sched := { s.sched with marginPct := clamp 100 1000 (v % 2 ^ 16) } }))
  | 7, 0x58 => some (.ok { s with host := { s.host with event := w1c s.host.event s.host.fresh s.now v } })
  | 8, 0x08 => some (.ok { s with kvw := { s.kvw with event := w1c s.kvw.event s.kvw.fresh s.now v } })
  | 9, 0x08 => some (.ok { s with pfx := { s.pfx with event := w1c s.pfx.event s.pfx.fresh s.now v } })
  | 10, 0x08 => some (.ok { s with moe := { s.moe with event := w1c s.moe.event s.moe.fresh s.now v } })
  | 10, 0x10 => some (s.withBaton k (.ok { s with moe := { s.moe with
      mergeNs := BitVec.ofNat 16 (v / 2 ^ 32), threshold := BitVec.ofNat 16 (v / 2 ^ 16), hysteresis := BitVec.ofNat 16 v } }))
  | 11, 0x08 => some (.ok { s with cst := { s.cst with event := w1c s.cst.event s.cst.fresh s.now v } })
  | 11, 0x28 => some (s.withBaton k (.ok (s.csScrub v)))
  | _, _ => none

/-- Writes to TALLY registers. -/
def State.writeTally (s : State) (k : Slot) (o v : Nat) : Option RegOut :=
  let w := BitVec.ofNat 64 v
  match o with
  | 0x08 => some (.ok (s.tlCtrl v))
  | 0x10 => some (.ok { s with tally := { s.tally with event := w1c s.tally.event s.tally.fresh s.now v } })
  | 0x30 => some (s.withBaton k (s.setRing v))
  | 0x40 => some (if peekOk w then .ok { s with tally := { s.tally with
      peek := BitVec.ofNat 64 (fld (v / 2 ^ 63) 63 1 + fld (v / 2 ^ 32) 32 20 + v % 256) } } else .error 0x0107)
  | _ => s.writeSel o v

/-- Writes to FAB registers. -/
def State.writeFab (s : State) (k : Slot) (o v : Nat) : Option RegOut :=
  match o with
  | 0x10 => some (.ok { s with fab := { s.fab with event := w1c s.fab.event s.fab.fresh s.now v } })
  | 0x18 => some (s.withBaton k (.ok { s with fab := { s.fab with
      timeoutUs := clamp 10 10000 (v % 2 ^ 32), holdMs := clamp 100 60000 (bitsOf v 32 16) } }))
  | _ =>
    match inArray o 0x100 8 32, inArray o 0x200 8 4, inArray o 0x1000 0x40 8 with
    | some (i, 0), _, _ => some (s.withBaton k (.ok (s.setReach i v)))
    | _, some (i, 0), _ => some (.ok { s with fab := { s.fab with
        departed := w1c s.fab.departed s.fab.departNew s.now (v % 2 ^ 64 * 2 ^ (64 * i)) } })
    | _, _, some (p, 0x20) => some (s.withBaton k (s.portCtrl p v))
    | _, _, _ => none

/-- Writes to the per-partition registers: refused for a partition that the layout does not create (R24). -/
def State.writePart (s : State) (k : Slot) (block o v : Nat) : Option RegOut :=
  match block, inArray o 0x1000 0x40 8 with
  | 4, some (p, 0) => some (if s.hasPart p then s.withBaton k (.ok (s.modPart p fun q => { q with cfg := schedCfg v }))
      else .error 0x0107)
  | 9, some (p, 0) => some (if s.hasPart p then s.withBaton k (s.setWays p (BitVec.ofNat 8 v)) else .error 0x0107)
  | 9, some (p, 8) => some (if s.hasPart p then s.withBaton k (s.setPages p (v % 2 ^ 28)) else .error 0x0107)
  | _, _ => none

/-- Writes to the stacks' and stations' registers. -/
def State.writeUnit (s : State) (k : Slot) (off v : Nat) : Option RegOut :=
  match inArray off 0xC00000 0x10000 32, inArray off 0x1000000 0x10000 1024 with
  | some (n, 0x28), _ => some (s.withBaton k (.ok (s.hbScrub n v)))
  | some (n, 0x30), _ => some (.ok (s.modStk n fun x => { x with event := w1c x.event x.fresh s.now v }))
  | some (n, 0x38), _ => some (s.withBaton k (.ok (s.hbCtrl n v)))
  | _, some (i, 0x28) => some (.ok (s.modStn i fun t => { t with fault := w1c t.fault t.fresh s.now v }))
  | _, some (i, 0x30) => some (s.withBaton k (.ok (s.stnCtrl i v)))
  | _, _ => none

/-- Write the register at an offset for slot `k` (R9, R10, R24): an undefined offset is refused, a read-only register keeps its
value and the write succeeds. -/
def State.regWrite (s : State) (k : Slot) (off v : Nat) : RegOut :=
  if (s.regRead off).isNone then .error 0x0107
  else
    let b := off / 0x100000
    let o := off % 0x100000
    let r := if b == 5 then s.writeTally k o v
      else if b == 6 then s.writeFab k o v
      else if b ≤ 11 then (match s.writeGate k b o v with | some r => some r | none => s.writePart k b o v)
      else s.writeUnit k off v
    r.getD (.ok s)

/-! ### REG_READ and REG_WRITE (R345) -/

/-- Apply the writes of a REG_WRITE in order; the first refusal's index and status. -/
def State.applyWrites (k : Slot) (bs : Bytes) : Nat → Nat → State → State × Option (Nat × BitVec 16)
  | 0, _, s => (s, none)
  | n + 1, i, s =>
    match s.regWrite k (beAt bs (8 + 16 * i) 8) (beAt bs (16 + 16 * i) 8) with
    | .error e => (s, some (i, e))
    | .ok s => State.applyWrites k bs n (i + 1) s

/-- One of the writes of a REG_WRITE needs the baton (R339): without it the write is refused with 0x0203. -/
def State.writesBaton (s : State) (p : Pkt) (k : Slot) : Bool :=
  (List.range (beAt p.params 0 2)).any fun i =>
    match ({ s with cmd := { s.cmd with baton := none } }).regWrite k (beAt p.params (8 + 16 * i) 8) (beAt p.params (16 + 16 * i) 8) with
    | .error e => e == 0x0203
    | .ok _ => false

/-- The writes of a REG_WRITE are made, and it replies. -/
def State.applyRegWrite (s : State) (p : Pkt) (k : Slot) : State :=
  match State.applyWrites k p.params (beAt p.params 0 2) 0 s with
  | (s, none) => s.reply p 0
  | (s, some (i, e)) => s.reply p e (BitVec.ofNat 32 i)

/-- The body of REG_WRITE; one with a write that needs the baton waits for a FW_UPDATE before it (R332). -/
def State.doRegWrite (s : State) (p : Pkt) (k : Slot) : State :=
  let n := beAt p.params 0 2
  if p.params.length < 8 || p.params.length != 8 + 16 * n then s.reply p 0x0104
  else if n == 0 || 64 < n then s.reply p 0x0105
  else s.withZeros p [(2, 6)] fun s =>
    if s.batonBusy && s.writesBaton p k then s.waitBaton p k else s.applyRegWrite p k

/-- REG_WRITE (R345). -/
def execRegWrite (p : Pkt) (s : State) : Res := .next (s.receive 0x21 p State.doRegWrite)

/-- The body of REG_READ: refused whole at the first refused offset. -/
def State.doRegRead (s : State) (p : Pkt) (_ : Slot) : State :=
  s.withParams p 16 [(10, 6)] fun s =>
    let off := beAt p.params 0 8
    let n := beAt p.params 8 2
    if n == 0 || 64 < n then s.reply p 0x0105 8
    else
      let vs := (List.range n).map fun i => s.regRead (off + 8 * i)
      match vs.findIdx? (·.isNone) with
      | some i => s.reply p 0x0107 (BitVec.ofNat 32 i)
      | none => s.reply p 0 0 (vs.flatMap fun v => toBe 8 (v.getD 0))

/-- REG_READ (R345). -/
def execRegRead (p : Pkt) (s : State) : Res := .next (s.receive 0x20 p State.doRegRead)

/-! ### The register writes of the operation table -/

/-- Offset and value of a REG_WRITE that carries exactly one write. -/
def soleWrite (p : Pkt) : Option (Nat × Nat) :=
  if beAt p.params 0 2 == 1 then some (beAt p.params 8 8, beAt p.params 16 8) else none

/-- A REG_WRITE packet whose one write satisfies `f`; any other packet is not this row's. -/
def State.onWrite (s : State) (p : Pkt) (f : Nat → Nat → Bool) : State :=
  if p.opcode == 0x21 && (match soleWrite p with | some (o, v) => f o v | none => false)
  then s.receive 0x21 p State.doRegWrite else s

/-- The offset is a register of stations. -/
def isStn (o r : Nat) : Bool := match inArray o 0x1000000 0x10000 1024 with | some (_, x) => x == r | none => false
/-- The offset is a register of stacks. -/
def isStk (o r : Nat) : Bool := match inArray o 0xC00000 0x10000 32 with | some (_, x) => x == r | none => false
/-- The offset is FB_PORT_CTRL of a port. -/
def isPortCtrl (o : Nat) : Bool := match inArray o 0x601000 0x40 8 with | some (_, x) => x == 0x20 | none => false
/-- The offset is a per-partition PFX register. -/
def isPfx (o r : Nat) : Bool := match inArray o 0x901000 0x40 8 with | some (_, x) => x == r | none => false
/-- The offset is a selection register. -/
def isSel (o : Nat) : Bool :=
  (inArray o 0x501000 8 1024).isSome || (inArray o 0x503000 8 1024).isSome || (inArray o 0x505000 8 32).isSome ||
    (inArray o 0x505100 8 16).isSome || o == 0x505180 || o == 0x505188

/-- CLR_MIN (R63). -/
def execClrMin (p : Pkt) (s : State) : Res := .next (s.onWrite p fun o v => isStn o 0x30 && bitOf v 1)
/-- MARK_FAILED (R463). -/
def execMarkFailed (p : Pkt) (s : State) : Res := .next (s.onWrite p fun o v => isStn o 0x30 && bitOf v 0)
/-- REMOVE (R198). -/
def execRemove (p : Pkt) (s : State) : Res := .next (s.onWrite p fun o v => isStk o 0x38 && bitOf v 8)
/-- CS_SCRUB (R475). -/
def execCsScrub (p : Pkt) (s : State) : Res := .next (s.onWrite p fun o _ => o == 0xB00028)
/-- HB_SCRUB (R475). -/
def execHbScrub (p : Pkt) (s : State) : Res := .next (s.onWrite p fun o _ => isStk o 0x28)
/-- RETRAIN (R307). -/
def execRetrain (p : Pkt) (s : State) : Res := .next (s.onWrite p fun o v => isPortCtrl o && bitOf v 2)
/-- FORCE_UP (R287). -/
def execForceUp (p : Pkt) (s : State) : Res := .next (s.onWrite p fun o v => isPortCtrl o && bitOf v 1)
/-- DISABLE (R475). -/
def execDisable (p : Pkt) (s : State) : Res := .next (s.onWrite p fun o v => isPortCtrl o && bitOf v 0)
/-- FB_REACH (R305). -/
def execFbReach (p : Pkt) (s : State) : Res := .next (s.onWrite p fun o _ => (inArray o 0x600100 8 32).isSome)
/-- FREEZE (R455). -/
def execFreeze (p : Pkt) (s : State) : Res := .next (s.onWrite p fun o v => o == 0x500008 && bitOf v 0)
/-- CLEAR (R455). -/
def execClear (p : Pkt) (s : State) : Res := .next (s.onWrite p fun o v => o == 0x500008 && bitOf v 1)
/-- TL_RING (R462). -/
def execTlRing (p : Pkt) (s : State) : Res := .next (s.onWrite p fun o _ => o == 0x500030)
/-- TL_SEL (R453). -/
def execTlSel (p : Pkt) (s : State) : Res := .next (s.onWrite p fun o _ => isSel o)
/-- PX_WAYS (R249). -/
def execPxWays (p : Pkt) (s : State) : Res := .next (s.onWrite p fun o _ => isPfx o 0)
/-- PX_PAGES (R249). -/
def execPxPages (p : Pkt) (s : State) : Res := .next (s.onWrite p fun o _ => isPfx o 8)
/-- GV_CTRL (R404). -/
def execGvCtrl (p : Pkt) (s : State) : Res := .next (s.onWrite p fun o _ => o == 0x200030)
/-- GV_EVENT (R404). -/
def execGvEvent (p : Pkt) (s : State) : Res := .next (s.onWrite p fun o _ => o == 0x200028)

end Sys2Proof.Machine
end

