-- ==== Sys2Proof/Machine/Sessions.lean ====
section
/-!
DEFINITION. Opening and closing sessions, enrolment, events acknowledged, the baton, and the commands of the hardware path
(11_host_port.md R335-R343, 14_security.md R414-R416, R431).
-/

namespace Sys2Proof.Machine

/-! ### SESSION_OPEN and ENROL (R414-R416) -/

/-- ASCII bytes of a quoted string (R412, R416). -/
def ascii (t : String) : Bytes := t.toList.map fun c => BitVec.ofNat 8 c.toNat

/-- The parameter fields of SESSION_OPEN (R415). -/
structure OpenReq where
  enrol : Bool
  ipv4 : Bool
  ctrlEph : Bytes
  newKey : Bytes
  newAddr : Nat
  endorse : Bytes
deriving DecidableEq, Repr

/-- Read the parameters of SESSION_OPEN. -/
def openReq (p : Pkt) : OpenReq :=
  let f := beAt p.params 0 4
  ⟨bitOf f 0, bitOf f 1, slice p.params 8 32, slice p.params 40 32, beAt p.params 72 16, slice p.params 88 64⟩

/-- A SESSION_OPEN with ENROL set is an ENROL. -/
def isEnrol (p : Pkt) : Bool := bitOf (beAt (splitAtLength p).params 0 4) 0

/-- What an endorsement signs (R414). -/
def endorsed (slot : BitVec 8) (r : OpenReq) (challenge : Bytes) : Bytes :=
  sha512 (toBe 1 slot.toNat ++ r.newKey ++ toBe 16 r.newAddr ++ challenge)

/-- The endorsement suits the slots' state (R414). -/
def State.endorseOk (s : State) (p : Pkt) (r : OpenReq) : Bool :=
  if !s.nv.slotA.enrolled && !s.nv.slotB.enrolled then r.endorse == List.replicate 64 0
  else
    let m := endorsed p.slot r (slice p.params 152 8)
    (s.nv.slotA.enrolled && edVerify (toBe 32 s.nv.slotA.key.toNat) m r.endorse) ||
      (s.nv.slotB.enrolled && edVerify (toBe 32 s.nv.slotB.key.toNat) m r.endorse)

/-- The first nonzero reserved field of a SESSION_OPEN, as DETAIL has it: header, then parameters (R7, R333, R415). -/
def openReserved (p : Pkt) (r : OpenReq) : Option (BitVec 32) :=
  match reservedHeader p with
  | some o => some (BitVec.ofNat 32 (0x80000000 + o))
  | none =>
    if 4 ≤ beAt p.params 0 4 then some 0
    else if !zeroAt p.params 4 4 then some 4
    else if r.enrol then none
    else if !zeroAt p.params 40 32 then some 40
    else if r.newAddr != 0 then some 72
    else if !zeroAt p.params 88 64 then some 88
    else none

/-- The session keys (R416): the transcript hash, the command key and the reply key. -/
def sessionKeys (priv ctrlEph t : Bytes) : Bytes × Bytes × Bytes :=
  let h := sha512 t
  let prk := hkdfExtract h (x25519 priv ctrlEph)
  (h, hkdfExpand prk (ascii "NGK7 plouth command") 32, hkdfExpand prk (ascii "NGK7 plouth reply") 32)

/-- Bind a slot (R414): the binding is stored, and one that replaces another ends the slot's session. -/
def State.bind (s : State) (k : Slot) (r : OpenReq) : State :=
  let s := if (s.binding k).enrolled then s.endSession k else s
  (s.modBinding k fun b => { b with
    enrolled := true, ipv4 := r.ipv4, key := BitVec.ofNat 256 (beNat r.newKey), addr := BitVec.ofNat 128 r.newAddr }).seEvent 1

/-- Open a session for a slot whose packet has passed every check (R415, R416). -/
def State.openSession (s : State) (p : Pkt) (k : Slot) (r : OpenReq) (priv at_ : Bytes) : State :=
  let s := if r.enrol then s.bind k r else s
  let s := if (s.session k).open_ then s.endSession k else s
  let n := (s.binding k).lastSession + 1
  let s := s.modBinding k fun b => { b with lastSession := n }
  let eph := x25519 priv x25519Base
  let (h, ck, rk) := sessionKeys priv r.ctrlEph (pktBytes p ++ p.trailer ++ toBe 4 n.toNat ++ eph)
  let s := s.modSession k fun _ =>
    { open_ := true, number := n, cmdKey := ck, replyKey := rk, lastAddr := p.srcAddr, lastPort := p.srcPort }
  s.reply p 0 0 (toBe 4 n.toNat ++ toBe 4 0 ++ eph ++ edSign at_ h)

/-- The checks of R415 after the challenge, in order, for the firmware to make. -/
def State.openTail (s : State) (p : Pkt) : State :=
  if p.params.length != 160 then s.reply p 0x0104
  else
    match slotOf p.slot with
    | none => s.reply p 0x0202
    | some k =>
      let r := openReq p
      let b := s.binding k
      let key := if r.enrol then r.newKey else toBe 32 b.key.toNat
      let src := if r.enrol then r.newAddr == p.srcAddr.toNat else s.fromSlot k p
      if (!r.enrol && !b.enrolled) || !edVerify key (pktBytes p) p.trailer then s.reply p 0x0204
      else if r.enrol && !s.endorseOk p r then s.reply p 0x0204
      else if !src then s.reply p 0x0202
      else if 16 ≤ s.outstanding k then s.reply p 0x0401
      else
        match openReserved p r with
        | some d => s.reply p 0x0102 d
        | none =>
          let first := r.enrol && !s.nv.slotA.enrolled && !s.nv.slotB.enrolled
          match s.sec.atPriv with
          | none => s.reply p 0x0301
          | some at_ =>
            if (s.mode != 1 && (s.mode != 2 || first)) || s.nv.revoked then s.reply p 0x0301
            else
              let (d, s) := s.draw
              let priv := toBe 32 (Config.freshKey d).toNat
              if x25519 priv r.ctrlEph == List.replicate 32 0 then s.reply p 0x0105 8
              else s.openSession p k r priv at_

/-- A SESSION_OPEN in the signed form: the hardware path spends the challenge; a firmware that does not answer leaves the packet waiting
(R342, R343, R415). -/
def State.receiveOpenOwn (s : State) (p : Pkt) : State :=
  if s.mode == 4 then s.reply p 0x0301
  else if p.version != 1 || !lengthOk p then s.reply p 0x0101
  else
    let p := splitAtLength p
    let n := p.params.length
    if n < 8 then s.reply p 0x0104
    else
      let ch := beAt p.params (n - 8) 8
      if !s.challengeOk ch then s.reply p 0x0206
      else
        let s := s.spend ch
        if s.cmd.responsive then s.openTail p
        else if (slotOf p.slot).any fun k => 16 ≤ s.outstanding k then s.reply p 0x0401
        else s.waitFw p

/-- Receive a SESSION_OPEN; one in another form is refused as R329 says. -/
def State.receiveOpen (s : State) (p : Pkt) : State :=
  if p.opcode != 0x10 || !pktSigned p || pktOpen p || p.flags.getLsbD 0 || p.flags.getLsbD 1 || !s.alive then
    s.receive 0x10 p fun s _ _ => s
  else if !s.reaches p then (s.hearPkt p).missed p.fcsOk
  else (s.hearPkt p).receiveOpenOwn p

/-- SESSION_OPEN (R415). -/
def execSessionOpen (p : Pkt) (s : State) : Res := .next (if isEnrol p then s else s.receiveOpen p)

/-- ENROL (R414): SESSION_OPEN with ENROL set. -/
def execEnrol (p : Pkt) (s : State) : Res := .next (if isEnrol p then s.receiveOpen p else s)

/-- The firmware begins the packets that wait for it (R343), unless the hardware path has claimed them. -/
def State.runWaiting (s : State) : State :=
  let (run, late) := s.cmd.waiting.partition fun (t, p) => pktSigned p && s.now < t + ms 100
  run.foldl (fun s (_, p) => s.openTail p) { s with cmd := { s.cmd with waiting := late } }

/-- FW_CLAIM_TIMEOUT (R343): packets that have waited 100 ms are claimed by the hardware path. -/
def execFwClaimTimeout (s : State) : Res :=
  let (late, left) := s.cmd.waiting.partition fun (t, _) => t + ms 100 ≤ s.now
  let s := { s with cmd := { s.cmd with waiting := left } }
  .next (late.foldl (fun s (_, p) => (s.cmEvent 5).reply p 0x0F01) s)

/-! ### SESSION_CLOSE and EVENT_ACK (R335, R336) -/

/-- SESSION_CLOSE (R335). -/
def execSessionClose (p : Pkt) (s : State) : Res :=
  .next (s.receive 0x11 p fun s p k => s.withParams p 0 [] fun s => (s.reply p 0).endSession k)

/-- EVENT_ACK (R336): events up to ACK_SEQ are acknowledged. -/
def execEventAck (p : Pkt) (s : State) : Res :=
  .next (s.receive 0x12 p fun s p k => s.withParams p 8 [(4, 4)] fun s =>
    let n := beAt p.params 0 4
    (s.modSession k fun ss => { ss with events := ss.events.filter fun e => n < e.num.toNat }).reply p 0)

/-! ### The baton (R338, R340) -/

/-- A lease begins for slot `k`; `gen` when the baton changes hands or is taken (R338). -/
def State.lease (s : State) (k : Slot) (gen : Bool) : State :=
  { s with cmd := { s.cmd with
    baton := some k, batonEnd := s.now + ms s.cmd.leaseMs, batonReported := false
    batonGen := if gen then s.cmd.batonGen + 1 else s.cmd.batonGen } }

/-- The reply body of a baton command that began a lease. -/
def State.leaseBody (s : State) : Bytes := toBe 4 s.cmd.batonGen.toNat ++ toBe 4 s.cmd.leaseMs

/-- Begin a lease and reply. -/
def State.grantLease (s : State) (p : Pkt) (k : Slot) (gen : Bool) : State :=
  let s := s.lease k gen
  s.reply p 0 0 s.leaseBody

/-- BATON_TAKE (R338). -/
def execBatonTake (p : Pkt) (s : State) : Res :=
  .next (s.receive 0x13 p fun s p k => s.withParams p 0 [] fun s =>
    match s.cmd.baton with
    | none => s.grantLease p k true
    | some h => if h == k then s.grantLease p k false else s.reply p 0x0304)

/-- BATON_RENEW (R338). -/
def execBatonRenew (p : Pkt) (s : State) : Res :=
  .next (s.receive 0x14 p fun s p k => s.withParams p 0 [] fun s =>
    if s.cmd.baton == some k then s.grantLease p k false else s.reply p 0x0303)

/-- BATON_RELEASE (R338). -/
def execBatonRelease (p : Pkt) (s : State) : Res :=
  .next (s.receive 0x15 p fun s p k => s.withParams p 0 [] fun s =>
    if s.cmd.baton == some k then s.freeBaton.reply p 0 else s.reply p 0x0303)

/-- BATON_EXPIRE (R338): the lease runs out; the holder stays until it renews, releases or is broken. -/
def execBatonExpire (s : State) : Res :=
  match s.cmd.baton with
  | none => .next s
  | some k =>
    if s.now < s.cmd.batonEnd || s.cmd.batonReported then .next s
    else .next (({ s with cmd := { s.cmd with batonReported := true } }.cmEvent 1).batonEvent 1 k)

/-- A RENEW of slot `h` stands among the commands of this gate-die cycle and would be granted (R340). -/
def State.renewsNow (s : State) (h : Slot) : Bool :=
  s.pending.any fun i => match i with
    | .batonRenew q => (match execBatonRenew q s with | .next t => t.hasLease h | _ => false)
    | _ => false

/-- BATON_BREAK (R338, R340, R341): the other slot takes an expired baton, unless its holder renews it in the same gate-die cycle:
the RENEW takes effect first. -/
def execBatonBreak (p : Pkt) (s : State) : Res :=
  .next (s.receive 5 p fun s p k => s.withParams p 0 [] fun s =>
    match s.cmd.baton with
    | none => s.reply p 0x0303
    | some h =>
      if h == k then s.reply p 0x0303
      else if s.now < s.cmd.batonEnd || s.renewsNow h then s.reply p 0x0304
      else
        let s := (s.lease k true).cmEvent 2
        (s.reply p 0 0 s.leaseBody).batonEvent 2 h)

/-! ### The hardware path (R341-R344) -/

/-- STATUS_MIN (R344): a reply, with a fresh challenge. -/
def execStatusMin (p : Pkt) (s : State) : Res :=
  .next (s.receive 1 p fun s p _ => s.withParams p 0 [] fun s =>
    let (v, s) := s.newChallenge
    s.reply p 0 0 (toBe 1 s.mode ++ toBe 1 0 ++ toBe 2 0x4200 ++ toBe 8 s.gate.fw.toNat ++ toBe 8 Config.serial.toNat ++
      toBe 8 s.uptimeUs ++ toBe 8 s.batonReg ++ toBe 8 v.toNat ++ toBe 4 (b2n s.fwResponsive) ++ toBe 4 0))

/-- RESET (R341, R437): a reply, then a warm reset. -/
def execReset (p : Pkt) (s : State) : Res :=
  .next (s.receive 2 p fun s p _ => s.withParams p 0 [] fun s => (s.reply p 0).warmReset)

/-- HALT (R341): a reply, then DEPARTURE, every context torn down, and GATE_MODE 0x03. -/
def execHalt (p : Pkt) (s : State) : Res :=
  .next (s.receive 3 p fun s p _ => s.withParams p 0 [] fun s => (s.reply p 0).doHalt)

/-- ZEROIZE (R341, R344, R431): a reply, then steps 1 of R431. -/
def execZeroize (p : Pkt) (s : State) : Res :=
  .next (s.receive 4 p fun s p _ => s.withParams p 8 [(4, 4)] fun s =>
    if beAt p.params 0 4 != 0x5A45524F then s.reply p 0x0105
    else (s.reply p 0).zeroizeBegin)

/-- ZEROIZE_COMPLETE (R431): steps 2-4. -/
def execZeroizeComplete (s : State) : Res :=
  .next (if s.sec.zeroizing && s.bring.powered then s.zeroizeEnd else s)

end Sys2Proof.Machine
end

