-- ==== Sys2Proof/Machine/Hold.lean ====
section
/-!
DEFINITION. How stations pass between contexts (02_stations.md R41, 04_station_instructions.md R100,
12_partitions_contexts.md R358-R366): the state a station starts with, the save to the hamper and the read-back.
-/

namespace Sys2Proof.Machine

/-! ### Instruction-store lines (R40, R41) -/

/-- Line `line` of the stream of context-relative station `rel`, read from the stream's region. -/
def Ctx.streamLine (k : Ctx) (rel line : Nat) : ILine :=
  match k.itin.streams[rel]? with
  | none => ⟨line, [], 0⟩
  | some d =>
    let n := min 64 (d.words.length - 64 * line)
    ⟨line, (List.range n).map fun i => BitVec.ofNat 256 (leNat (rdBytes k.store (d.regionBase + 2048 * line + 32 * i) 32)), 0⟩

/-- Lines of the stream of context-relative station `rel`. -/
def Ctx.streamLines (k : Ctx) (rel : Nat) : Nat :=
  match k.itin.streams[rel]? with
  | some d => ceilDiv d.words.length 64
  | none => 0

/-- The line of bundle `i` and the 4 lines that follow it in the stream (R41). -/
def Ctx.lineWindow (k : Ctx) (rel i : Nat) : List Nat := ((List.range 5).map (i / 64 + ·)).filter (· < k.streamLines rel)

/-- The state a station has before a context's first bundle issues (R41, R100). -/
def Ctx.freshArch (k : Ctx) (rel : Nat) : Arch :=
  let entry := match k.itin.streams[rel]? with | some d => d.entry | none => 0
  { sregs := mset 0 (mset 0 [] 1 (BitVec.ofNat 64 rel)) 2 (BitVec.ofNat 64 k.itin.streams.length)
    istore := (k.lineWindow rel entry).map (k.streamLine rel)
    next := entry
    producers := (mget {} k.saved rel).producers }

/-! ### Holding -/

/-- The stations of context `c` take a STN_STATE code; no window of R52 in which that happens counts. -/
def State.stationsEnter (s : State) (c : Nat) (code : BitVec 8) : State :=
  s.foldNat (s.stnsOfCtx c) fun s st => s.modStn st fun t =>
    let t := t.noteHeld
    { t with state := code, ctx := some c, island := { t.island with wholeWin := false, ranWin := t.island.ranWin || code == 1 } }

/-- SLICE_US of context `c` in its next slice (R356, R375). -/
def State.sliceUs (s : State) (c : Nat) : Nat :=
  if (s.ctx c).sliceUs == 0 then bitsOf (s.part (partOfCtx c)).cfg.toNat 0 30 else (s.ctx c).sliceUs

/-- A slice of context `c` begins (R358, R375). -/
def State.beginSlice (s : State) (c : Nat) : State :=
  let n := s.sliceUs c
  s.modCtx c fun k => { k with
    sliceStart := s.now, sliceNow := n, blockNow := bitsOf (s.part (partOfCtx c)).cfg.toNat 30 10 }

/-- Every station of context `c` is set from its record, in context-relative order. -/
def State.loadStations (s : State) (c : Nat) (f : Nat → Arch) : State :=
  s.foldNat (List.range (s.stnCount c)) fun s rel => s.modArch (s.stnOfCtx c rel) fun _ => f rel

/-- A pre-emption starts: the stations stop and the save begins; holding time stands still (R362, R368). -/
def State.startSave (s : State) (c : Nat) : State :=
  let s := s.modPart (partOfCtx c) fun p => { p with preSince := p.preSince <|> some s.now }
  (s.modCtx c fun k => { k.account s.now with
    heldSince := none, state := .saving, blockSince := none, preempted := true }).stationsEnter c 2

/-- The station records of context `c` are in its hamper and its counters on its shelf (R360, R366). -/
def State.saveStations (s : State) (c : Nat) : State :=
  s.foldNat (List.range (s.stnCount c)) fun s rel =>
    let a := (s.stn (s.stnOfCtx c rel)).arch
    s.modCtx c fun k => { k with
      hamper := true
      saved := mset {} k.saved rel { a with tokens := [] }
      shelf := a.tokens.foldl (fun m (t, v) => mmod 0 m (64 * rel + t) (· + v.toNat)) k.shelf }

/-- The shelf of context `c` is added to its counters (R44, R360). -/
def State.unshelf (s : State) (c : Nat) : State :=
  (s.ctx c).shelf.foldl (fun s (i, n) => s.incToken c (i / 64) (i % 64) n .unattributed false none)
    (s.modCtx c fun k => { k with shelf := [] })

/-- The context runs from now on: its stations issue and its holding time counts (R368). -/
def State.nowRuns (s : State) (c : Nat) : State :=
  (s.modCtx c fun k => { k with
    state := .running, everHeld := true, heldSince := some s.now, blocked := none, blockSince := none, hamper := false
    saved := [] }).stationsEnter c 1

/-! ### The hamper (R365, R366) -/

/-- The fields of the hamper header. -/
def Ctx.hamperHeader (k : Ctx) : Bytes :=
  [0x4E, 0x47, 0x4B, 0x48] ++ toLe 2 1 ++ toLe 2 k.handle.toNat ++ toLe 8 k.step ++ toLe 4 k.itin.streams.length ++
    toLe 4 (b2n k.hamper + 2 * b2n (!k.resident)) ++ toLe 8 k.itin.footprintAt ++ toLe 8 k.itin.savedBytes ++ toLe 8 k.itin.logAt ++
    toLe 4048 0

/-- The open-block table as a record holds it: 16 entries of 16 bytes, tag, count, ELIGIBLE and in use (R154; DESIGN CHOICE, log entry 49:
R366 gives an entry's fields no places). -/
def Arch.blockTable (a : Arch) : Bytes :=
  (List.range 16).flatMap fun i => match a.openBlocks[i]? with
    | some o => toLe 8 o.tag ++ toLe 4 o.count ++ toLe 4 (1 + 2 * b2n o.eligible)
    | none => toLe 16 0

/-- The instruction store as a record holds it: 32 lines of 64 bundles, in the order in which they came (R41; DESIGN CHOICE, log entry
49: the spec gives a line no place of its own). -/
def Arch.storeImage (a : Arch) : Bytes :=
  (List.range 32).flatMap fun i =>
    let ws := match a.istore[i]? with | some l => l.words | none => []
    (List.range 64).flatMap fun j => toLe 32 (ws.getD j 0).toNat

/-- The contents of a station record whose place R366 fixes: record offset and bytes. Marks, queues and the weave's partial state,
whose layout is unspecified, are carried as they are. -/
def Arch.record (a : Arch) (tokens : List Nat) : List (Nat × Bytes) :=
  [(0, toLe 4 a.next),
   (0x8, (List.range 32).flatMap fun r => toLe 8 (mget 0 a.sregs r).toNat),
   (0x108, tokens.flatMap (toLe 2)),
   (0x188, ((List.range 8).flatMap fun i => toLe 4 (a.retStack.getD i 0)) ++ toLe 4 a.retStack.length),
   (0x1B0, toLe 8 (a.quota.getD (2 ^ 64 - 1))),
   (0x200, a.blockTable),
   (0x1000, (List.range 64).flatMap fun v => toLe 512 (mget 0 a.vregs v).toNat),
   (0x9000, (List.range 32768).flatMap fun i => toLe 4 (mget 0 a.accs i).toNat),
   (0x40000, rdBytes a.saddle 0 0x40000),
   (0x80000, a.storeImage)]

/-- The header, the context record and the station records of context `c` move (R366). -/
def State.recordTraffic (s : State) (c : Nat) : State := s.hamperTraffic c 0 (s.ctx c).itin.footprintAt

/-- The token shelf of context `c` moves: 128 bytes in each of its slices (R360). -/
def State.shelfTraffic (s : State) (c : Nat) : State :=
  s.foldNat (s.stnsOfCtx c) fun s st =>
    (s.modStn st fun t => t.sliceBytes 3 128).charge (partOfCtx c) (some c) (12 * 128) (s.stn st).island.target

/-- The footprint bytes that a hamper holds, in each slice of context `c`, move in the autonomous class (R168, R365). -/
def State.footprintTraffic (s : State) (c : Nat) : State :=
  let it := (s.ctx c).itin
  s.foldNat (List.range (s.stnCount c)) fun s j =>
    let n := 128 + ((List.range it.regions.length).map fun i =>
      match it.regions[i]? with | some r => if r.kind == 2 then 0 else it.regionBytesAt i r j | none => 0).sum
    let st := s.stnOfCtx c j
    (s.modStn st fun t => t.sliceBytes 3 n).charge (partOfCtx c) (some c) (12 * n) (s.stn st).island.target

/-- The footprint of context `c` moves between its slices and its hamper. -/
def State.swapTraffic (s : State) (c : Nat) : State :=
  let it := (s.ctx c).itin
  (s.hamperTraffic c it.footprintAt it.savedBytes).footprintTraffic c

/-! ### Upper copies of sealed pages (R366) -/

/-- Where the upper copies of sealed pages lie: the filled staging frames, and the frames of sealed bundles that have still to be
freed, each with its page number. -/
def Ctx.upperCopies (k : Ctx) : List (Nat × Nat) :=
  match k.itin.kv with
  | none => []
  | some v => (k.walk.staged.map fun (st, f, n) => (v.stageBase + (st * v.stageFrames + f) * 65536, n)) ++
      k.walk.freeAtStep.flatMap fun (g, b) => match b with
        | some b => (List.range v.layers).map fun l => (v.frame g l, b + l)
        | none => []

/-- A swap-out drops the bytes of the weights-window regions, which are fetched again, and the upper copies of sealed pages, which
the walkers stage again (R362, R365, R366). -/
def Ctx.dropCopies (k : Ctx) : Ctx :=
  let l := k.upperCopies
  { k with
    walk := { k.walk with dropped := !l.isEmpty }
    store := k.store.filter fun (a, _) =>
      !(k.itin.regions.any fun r => r.kind == 2 && r.holds a 1) && !l.any fun (o, _) => o ≤ a && a < o + 65536 }

/-- The walkers stage the dropped pages again; a page that cannot be read ends the context (R184, R196, R364, R366). -/
def State.restage (s : State) (c : Nat) : State :=
  if !(s.ctx c).walk.dropped then s
  else
    let p := partOfCtx c
    let l := (s.ctx c).upperCopies
    let s := s.modCtx c fun k => { k with walk := { k.walk with dropped := false } }
    l.foldl (fun s (a, n) => match s.page p n with
      | some g => if g.poison || !g.checks 0 65536 then s.pageFails p n (!g.poison) [c]
                  else (s.pageFetch p n (some c)).put c a g.data
      | none => s.pageFails p n false [c]) s

end Sys2Proof.Machine
end

