-- ==== Sys2Proof/Machine/Steps.lean ====
section
/-!
DEFINITION. Steps and barriers (04_station_instructions.md R108-R111, 03_number_formats.md R86-R91, 09_experts.md R269,
12_partitions_contexts.md R368-R372): what the end of a step records, its release, the last FINISH, barrier releases, the
watchdog and the end of a teardown.
-/

namespace Sys2Proof.Machine

/-! ### Quotas and the start of a step (R86, R87) -/

/-- The detour quota of station `i` of `n` (R87). -/
def quotaOf (cap n i : Nat) : Option Nat := if cap == 65535 then none else some (cap / n + b2n (i < cap % n))

/-- Detours that have ended their step's counts begin anew: a replaced policy takes effect, quotas are divided, the watchdog
is armed (R108 steps 4-6). -/
def State.beginStep (s : State) (c : Nat) : State :=
  let s := s.modCtx c fun k =>
    let k := k.account s.now
    { k with
      policy := k.newPolicy.getD k.policy, newPolicy := none, sum := { policyNew := k.newPolicy.isSome }
      stepStart := s.now, stepRun := 0, extNs := 0, breach := false, preempted := false, margin := s.sched.marginPct }
  let k := s.ctx c
  let n := s.stnCount c
  s.foldNat (List.range n) fun s i => s.modArch (s.stnOfCtx c i) fun a => { a with quota := quotaOf k.policy.cap n i }

/-! ### The end of a step (R91, R269, R368) -/

/-- The summary record (R91). -/
def summaryRecord (k : Ctx) : Bytes :=
  let m := k.sum
  toLe 8 k.step ++ toLe 4 m.closed ++ toLe 4 m.overT ++ toLe 4 m.detoured ++ toLe 4 m.unrecovered ++ toLe 4 m.ineligible ++
    toLe 4 m.nonfinite ++ toLe 8 m.satTotal ++ toLe 8 m.flushTotal ++ toLe 4 m.maxSat ++ toLe 4 m.maxFlush ++
    toLe 2 k.policy.cap ++ toLe 2 k.policy.allow ++ toLe 4 (b2n m.storm + 2 * b2n m.policyNew + 4 * b2n m.wideRef)

/-- The histogram record (R269). -/
def histRecord (k : Ctx) (p : StepPlan) : Bytes :=
  let room := (p.histSlotBytes - 32) / 8
  let l := k.moe.counts.take room
  let flags := b2n (room < k.moe.counts.length) + 2 * b2n k.moe.planLate + 4 * b2n k.moe.cancelled + 8 * b2n k.moe.overrun
  toLe 8 k.step ++ toLe 4 l.length ++ toLe 4 flags ++ toLe 2 k.moe.epoch.toNat ++ toLe 14 0 ++
    l.flatMap fun (i, n) => toLe 2 (i / 65536) ++ toLe 2 (i % 65536) ++ toLe 4 n

/-- Write the summary record of the ending step (R91). -/
def State.writeSummary (s : State) (c : Nat) : State :=
  let k := s.ctx c
  match k.itin.summary with
  | none => s
  | some (base, n) => s.put c (base + 64 * (k.step % n)) (summaryRecord k)

/-- Write the histogram record and send STEP_PLAN, in step-plan mode (R269, R337). -/
def State.writeHist (s : State) (c : Nat) : State :=
  let k := s.ctx c
  match k.itin.stepPlan with
  | none => s
  | some p =>
    if !k.itin.stepPlanMode then s
    else
      let slot := k.step % p.histSlots
      (s.put c (p.histBase + slot * p.histSlotBytes) (histRecord k p)).postEvent 0x8005 k.handle
        (toBe 2 k.handle.toNat ++ toBe 2 0 ++ toBe 4 slot ++ toBe 8 k.step)

/-- FLAGS of STEP_STATUS (R368); VOID is set by every case of R54 in which a step ends: a floor breach, a detour storm,
a pre-emption, a wait on the outside and a reduced HBM rate. -/
def statusFlags (k : Ctx) : Nat :=
  b2n k.sum.storm + 2 * b2n k.breach + 4 * b2n k.sum.wideRef + 8 * b2n (k.sum.unrecovered != 0) + 16 * b2n k.moe.planLate +
    32 * b2n (k.breach || k.sum.storm || k.preempted || k.extNs != 0 || k.rateCut)

/-- The body of STEP_STATUS (R368). -/
def statusBody (k : Ctx) (now : Nat) : Bytes :=
  let shown := k.itin.summary.isSome
  toBe 2 k.handle.toNat ++ toBe 2 (statusFlags k) ++ toBe 2 k.bound ++ toBe 2 0 ++ toBe 8 k.step ++
    toBe 8 (k.itin.bounds.getD k.bound 0 + k.policy.boundExt) ++ toBe 8 (now - k.stepStart) ++ toBe 8 k.stepRun ++
    toBe 8 k.extNs ++ toBe 4 (if shown then k.sum.detoured else 0) ++ toBe 4 (if shown then k.sum.unrecovered else 0)

/-- Send STEP_STATUS when FLAGS or INTERVAL call for it (R368). -/
def State.sendStatus (s : State) (c : Nat) : State :=
  let k := s.ctx c
  if statusFlags k != 0 || k.step % k.interval == 0 then s.postEvent 0x8001 k.handle (statusBody k s.now) else s

/-- The step ends: its times are fixed, its records written and its status sent (R108 steps 1 and 2). -/
def State.endStep (s : State) (c : Nat) : State :=
  let s := s.modCtx c (·.account s.now)
  let s := if (s.ctx c).breach then s.modPart (partOfCtx c) fun p =>
    { p with gov := { p.gov with breachSteps := satAdd 32 p.gov.breachSteps 1 } } else s
  ((s.writeSummary c).writeHist c).sendStatus c

/-! ### STEP_RELEASE (R108) -/

/-- The bounds that the stations of context `c` name at STEP. -/
def State.stepBounds (s : State) (c : Nat) : List Nat :=
  (s.stnsOfCtx c).filterMap fun st => match (s.stn st).arch.run with | .atStep b => some b | _ => none

/-- Every station of context `c` has issued STEP for this step, or FINISH, and one at least a STEP. -/
def State.stepArrived (s : State) (c : Nat) : Bool :=
  !(s.stepBounds c).isEmpty &&
    (s.stnsOfCtx c).all fun st => match (s.stn st).arch.run with | .atStep _ | .finished => true | _ => false

/-- STEPs of one step that name different bounds (R108). -/
def State.stepMismatch (s : State) (c : Nat) : Bool :=
  match s.stepBounds c with
  | [] => false
  | b :: rest => rest.any (· != b)

/-- After a FINISH that leaves the STEPs of the other stations with different bounds, fault 0x21 falls on the STEP that arrived
last (R108). It has issued, so the fault is one after issue (DEDUCED, log entry 46); a STEP that itself completes the arrivals
faults at issue. -/
def State.checkStep (s : State) (c : Nat) : State :=
  if s.stepArrived c && s.stepMismatch c then
    match (s.ctx c).lastStep with
    | some (rel, b) => s.lateFault c rel b 2 0x21
    | none => s
  else s

/-- A STEP of context-relative station `rel` with this bound is the last arrival of its step, and some station has named another
bound (R108). -/
def State.stepClash (s : State) (c rel bound : Nat) : Bool :=
  ((List.range (s.stnCount c)).all fun i => i == rel ||
    (match (s.stn (s.stnOfCtx c i)).arch.run with | .atStep _ | .finished => true | _ => false)) &&
    (s.stepBounds c).any (· != bound)

/-- Frame groups are freed: none of their frames has a writable mark (R212). -/
def Ctx.freeFrames (k : Ctx) (gs : List Nat) : Ctx :=
  match k.itin.kv with
  | none => k
  | some v =>
    { k with walk := { k.walk with
      frames := k.walk.frames.filter fun g => !gs.contains g
      writable := k.walk.writable.filter fun x =>
        !gs.any fun g => v.frame g 0 / 65536 ≤ x && x < v.frame (g + 1) 0 / 65536 } }

/-- What a step release gives back to the engines: frame groups that no read is using are freed, a release of 0xFE is counted, and
the dispatch engine's counts of the step begin anew (R183, R190, R227, R229, R269, R271). -/
def Ctx.nextStep (k : Ctx) (bound : Nat) (busy : List Nat) : Ctx :=
  let gs := k.walk.freeAtStep.map (·.1)
  { k with
    step := k.step + 1, bound := bound, lastStep := none
    walk := { (k.freeFrames (gs.filter fun g => !busy.contains g)).walk with
      freeAtStep := [], freeWhenRead := k.walk.freeWhenRead ++ busy }
    caravan := { k.caravan with releases := mmod 0 k.caravan.releases 0xFE (· + 1) }
    moe := { k.moe with counts := [], planTaken := false, planLate := false, cancelled := false, overrun := false } }

/-- A station whose next bundle lies beyond its stream faults with 0x1F (R99). -/
def State.streamEnd (s : State) (c rel : Nat) : State :=
  let a := (s.stn (s.stnOfCtx c rel)).arch
  let n := match (s.ctx c).itin.streams[rel]? with | some d => d.words.length | none => 0
  if (s.ctx c).state == .running && a.run == .issuing && n ≤ a.next then s.programFault c rel a.next 0x1F else s

/-- Frame groups of context `c`, of some, that an incomplete transfer or weave instruction of a station reads (R183). -/
def State.busyFrames (s : State) (c : Nat) (gs : List Nat) : List Nat :=
  match (s.ctx c).itin.kv with
  | none => []
  | some v => gs.filter fun g => (s.stnsOfCtx c).any fun st =>
      let a := (s.stn st).arch
      (a.inflight.any fun x => match x.kind with
        | .xld ca _ bs _ => ca < v.frame (g + 1) 0 && v.frame g 0 < ca + bs.length
        | _ => false) ||
      (a.weaveRun ++ a.weaveWait.toList).any fun j => j.own.any fun (lo, n) => lo < v.frame (g + 1) 0 && v.frame g 0 < lo + n

/-- Freed frame groups that waited for a read of them are given back once no read uses them (R183). -/
def State.freeRead (s : State) (c : Nat) : State :=
  let l := (s.ctx c).walk.freeWhenRead
  if l.isEmpty then s
  else
    let busy := s.busyFrames c l
    s.modCtx c fun k =>
      let k := k.freeFrames (l.filter fun g => !busy.contains g)
      { k with walk := { k.walk with freeWhenRead := busy } }

/-- The step of context `c` is released with this bound (R108). -/
def State.releaseStep (s : State) (c bound : Nat) : State :=
  let s := s.endStep c
  let busy := s.busyFrames c ((s.ctx c).walk.freeAtStep.map (·.1))
  let s := (s.modCtx c fun k => k.nextStep bound busy).beginStep c
  let s := s.foldNat (s.stnsOfCtx c) fun s st => s.modStn st fun t =>
    match t.arch.run with
    | .atStep _ => { t with arch := { t.arch with run := .issuing } }.noteWaits [0x1B]
    | _ => t
  let s := s.foldNat (List.range (s.stnCount c)) fun s rel => s.streamEnd c rel
  if (s.ctx c).parkPending && (s.ctx c).state == .running then s.startSave c else s

/-- STEP_RELEASE (R108). -/
def execStepRelease (c : Nat) (s : State) : Res :=
  if (s.ctx c).state != .running || 128 ≤ c || !s.stepArrived c || s.stepMismatch c then .next s
  else .next (s.releaseStep c ((s.stepBounds c).headD 0))

/-! ### FINISH (R111, R373) -/

/-- The COMPLETION event's body (R373). -/
def completionBody (k : Ctx) : Bytes := toBe 2 k.handle.toNat ++ toBe 6 0 ++ toBe 8 k.step ++ toBe 8 k.lifeRun

/-- The stores that a context's stations still have in flight become visible, in issue order: a FINISH does not call back a
transfer that has issued (R111, R117). -/
def State.settleStores (s : State) (c : Nat) : State :=
  s.foldNat (s.stnsOfCtx c) fun s st => (s.stn st).arch.inflight.foldl (fun s x =>
    match x.kind with
    | .xst sa ca bs .. =>
      let a := (s.stn st).arch
      let (bs, s) := s.race sa bs (a.writes.drop x.since) (rdBytes a.saddle sa bs.length)
      (s.put c ca bs).ringBytes c st ca bs.length true
    | _ => s) s

/-- Every station has issued FINISH: the last step ends and the context is FINISHED, or PARKED when a PARK is pending (R111,
R356). -/
def State.completeCtx (s : State) (c : Nat) : State :=
  let s := ((s.settleStores c).endStep c).leaveStations c
  let s := s.modCtx c fun k => { k with
    complete := true, state := if k.parkPending then .parked else .finished, parkPending := false, saved := [], hamper := false }
  s.postEvent 0x8003 (s.ctx c).handle (completionBody (s.ctx c))

/-- After a FINISH: the context completes, or the others' step or barriers may go on. -/
def State.afterFinish (s : State) (c : Nat) : State :=
  if (s.stnsOfCtx c).all fun st => (s.stn st).arch.run == .finished then s.completeCtx c else s.checkStep c

/-! ### Barriers (R109) -/

/-- Member `i` (context-relative) of group `g` has an arrival that is not released. -/
def Ctx.barWaits (k : Ctx) (g i : Nat) : List (Nat × Nat) := mget [] k.barPend (1024 * g + i)

/-- A write or send that station `st` issued before order number `n` is not visible yet (R109). -/
def State.writesOpen (s : State) (st n : Nat) : Bool :=
  (s.stn st).arch.inflight.any fun x => x.ord < n && (match x.kind with
    | .xst .. | .send .. | .halo .. => true
    | .xld .. | .note .. => false)

/-- The members of group `g` have all arrived for its next generation, and what they wrote before is visible (R109): before
the arrival's bundle, or for a member that has issued FINISH before that. -/
def State.barReady (s : State) (c : Nat) (d : BarrierDecl) : Bool :=
  let k := s.ctx c
  d.members.any (fun i => !(k.barWaits d.group i).isEmpty) &&
    d.members.all fun i =>
      match k.barWaits d.group i with
      | (_, n) :: _ => !s.writesOpen (s.stnOfCtx c i) n
      | [] =>
        let a := (s.stn (s.stnOfCtx c i)).arch
        a.run == .finished && !s.writesOpen (s.stnOfCtx c i) a.issued

/-- The counter of member `i` that a release of group `g` increments: the one its arrival names, else the one it named last,
else the one the group names (R109). -/
def Ctx.barToken (k : Ctx) (d : BarrierDecl) (i : Nat) : Nat :=
  match k.barWaits d.group i with
  | (t, _) :: _ => t
  | [] =>
    match mget 0 k.barTok (1024 * d.group + i) with
    | t + 1 => t
    | 0 => ((d.members.flatMap fun j => (k.barWaits d.group j).take 1).map (·.1)).headD 0

/-- One generation of a barrier group is released (R109, R190). -/
def State.releaseBarrier (s : State) (c : Nat) (d : BarrierDecl) : State :=
  let k := s.ctx c
  let toks := d.members.map fun i => (i, k.barToken d i)
  let s := s.modCtx c fun k => { k with
    barPend := d.members.foldl (fun m i => mmod [] m (1024 * d.group + i) (·.drop 1)) k.barPend
    caravan := { k.caravan with releases := mmod 0 k.caravan.releases d.group (· + 1) } }
  toks.foldl (fun s (i, t) => s.incToken c i t 1 .barrier false none) s

/-- BARRIER_RELEASE (R109). -/
def execBarrierRelease (c : Nat) (g : BitVec 4) (s : State) : Res :=
  match (s.ctx c).itin.barriers.find? fun d => d.group == g.toNat with
  | none => .next s
  | some d => .next (if (s.ctx c).state == .running && c < 128 && s.barReady c d then s.releaseBarrier c d else s)

/-! ### The watchdog (R90, R369) -/

/-- The step's watchdog count exceeds its limit: nanoseconds against cycles at 1.8 GHz, both times 180. -/
def watchdogOver (k : Ctx) : Bool :=
  let limit := k.margin * (k.itin.bounds.getD k.bound 0 + k.policy.boundExt) +
    100 * (k.policy.detourCycles * (k.sum.detoured - k.policy.allow))
  limit < (k.stepRun - k.extNs) * 180

/-- WATCHDOG_EXPIRE (R369): a floor shortfall in the step stops the watchdog, and a release that is due stands. -/
def execWatchdogExpire (c : Nat) (s : State) : Res :=
  let k := (s.ctx c).account s.now
  if k.state != .running || 128 ≤ c || k.breach || !watchdogOver k || s.stepArrived c then .next s
  else .next (s.beginTeardown c 2)

/-- TEARDOWN_COMPLETE (R372): zeroing and returns end. -/
def execTeardownComplete (c : Nat) (s : State) : Res :=
  .next (if (s.ctx c).state == .tearingDown && c < 128 then (s.finishTeardown c).serveWaiting else s)

end Sys2Proof.Machine
end

