-- ==== Sys2Proof/Machine/Operands.lean ====
section
/-!
DEFINITION. What a slot reads and writes (02_stations.md R35-R40, 04_station_instructions.md R100): registers with their
pending-write marks, saddlebag addresses, and the station a bundle issues at.
-/

namespace Sys2Proof.Machine

/-! ### Registers and marks (R35, R38, R100) -/

/-- A vector register. -/
def Arch.vreg (a : Arch) (v : VReg) : BitVec 4096 := mget 0 a.vregs v.toNat

/-- Element `i` of an accumulator. -/
def Arch.accAt (a : Arch) (k : BitVec 2) (i : Nat) : BitVec 32 := mget 0 a.accs (8192 * k.toNat + i)

/-- The mark of a write in flight is set (R38). -/
def Arch.mark (a : Arch) (m : Mark) : Arch := { a with marks := if a.marks.contains m then a.marks else m :: a.marks }

/-- A mark clears. -/
def Arch.unmark (a : Arch) (m : Mark) : Arch := { a with marks := a.marks.filter (· != m) }

/-- The value of a scalar register changes; a write to s0 has no effect (R100). -/
def Arch.putS (a : Arch) (d : Reg) (v : Word) : Arch :=
  if d = 0 then a else { a with sregs := mset 0 a.sregs d.toNat v }

/-- An instruction writes a scalar register: its value and its pending-write mark (R38). -/
def Arch.setS (a : Arch) (d : Reg) (v : Word) : Arch := if d = 0 then a else (a.putS d v).mark (.s d)

/-- An instruction writes a vector register (R38). -/
def Arch.setV (a : Arch) (d : VReg) (v : BitVec 4096) : Arch :=
  { a with vregs := mset 0 a.vregs d.toNat v }.mark (.v d)

/-- Operations of the station that read memory as they go are incomplete: transfers, sends and weave instructions (R46). -/
def Arch.reading (a : Arch) : Bool := !a.inflight.isEmpty || !a.weaveRun.isEmpty || a.weaveWait.isSome

/-- Saddlebag bytes written; while an operation may still read them the write is noted (R46), and they are no longer a
substituted tensor's (R128). -/
def Arch.store (a : Arch) (addr : Nat) (bs : Bytes) : Arch :=
  { a with saddle := wrBytes a.saddle addr bs, wide := cutRanges a.wide addr bs.length
           writes := if a.reading then a.writes ++ [(addr, bs)] else [] }

/-- A VQ that names `tag` is about to write over these bytes: what they hold is kept while its mark is set (R163). -/
def Arch.over (a : Arch) (tag : Nat) (ws : List (Nat × Bytes)) : Arch :=
  { a with quantised := (a.quantised.filter fun q => a.pending (.tag q.1)) ++ ws.map fun w => (tag, w.1, rdBytes a.saddle w.1 w.2.length) }

/-- What the bytes that VQs within their latency have written held before (R163). -/
def Arch.unsettled (a : Arch) : List (Nat × Bytes) := (a.quantised.filter fun q => a.pending (.tag q.1)).map (·.2)

/-- A saddlebag `m` as a transfer's source read sees it: bytes that a VQ within its latency has written are old or new (R46, R163). -/
def Arch.source (a : Arch) (d : Nat) (m : Mem) : Mem := racedMem d m a.unsettled

/-- The free value of such a read is used up, when it races. -/
def State.sourced (s : State) (a : Arch) : State := if a.unsettled.isEmpty then s else { s with free := s.free + 1 }

/-- The fault of reading a scalar register (R38). -/
def Arch.rdS (a : Arch) (r : Reg) : List Nat := if a.pending (.s r) then [0x10] else []
/-- The fault of writing a scalar register. -/
def Arch.wrS (a : Arch) (r : Reg) : List Nat := if a.pending (.s r) then [0x11] else []
/-- The fault of reading a vector register. -/
def Arch.rdV (a : Arch) (v : VReg) : List Nat := if a.pending (.v v) then [0x10] else []
/-- The fault of writing a vector register. -/
def Arch.wrV (a : Arch) (v : VReg) : List Nat := if a.pending (.v v) then [0x11] else []
/-- The fault of reading an accumulator. -/
def Arch.rdA (a : Arch) (k : BitVec 2) : List Nat := if a.pending (.acc k) then [0x10] else []
/-- The fault of writing an accumulator. -/
def Arch.wrA (a : Arch) (k : BitVec 2) : List Nat := if a.pending (.acc k) then [0x11] else []

/-- A fault code when a test holds. -/
def faultIf (p : Bool) (code : Nat) : List Nat := if p then [code] else []

/-! ### Saddlebag addresses (R40) -/

/-- Bytes of a saddlebag. -/
def saddleSize : Nat := 0x40000

/-- The fault of a saddlebag range of `n` bytes at `addr` (R40). -/
def saddleRange (addr n : Nat) : List Nat := faultIf (saddleSize < addr + n) 0x12

/-- The fault of an address that is not a multiple of `n`. -/
def aligned (addr n : Nat) : List Nat := faultIf (addr % n != 0) 0x13

/-- A register plus a signed number, modulo 2^64. -/
def plus (v : Word) (i : Int) : Nat := (v + BitVec.ofInt 64 i).toNat

/-! ### The bundle's surroundings -/

/-- Where and from what state a bundle issues: context, context-relative and package station, bundle index, the station's
state and the context as they stand before the bundle (R39: every slot reads them). -/
structure Site where
  c : Nat
  rel : Nat
  st : Nat
  idx : Nat
  a : Arch
  k : Ctx

/-- The site of package station `st` with its next bundle. -/
def State.site (s : State) (st c : Nat) : Site :=
  ⟨c, s.relStn c st, st, (s.stn st).arch.next, (s.stn st).arch, s.ctx c⟩

/-- Bundles of the site's stream. -/
def Site.length (x : Site) : Nat := match x.k.itin.streams[x.rel]? with | some d => d.words.length | none => 0

end Sys2Proof.Machine
end

