-- ==== Sys2Proof/Machine/SlotS.lean ====
section
/-!
DEFINITION. The S slot (04_station_instructions.md R100-R111): the values its operations compute, the faults a station finds
at issue, the next bundle, and what an operation changes.
-/

namespace Sys2Proof.Machine

/-! ### Values (R102) -/

/-- A signed comparison `a < b`. -/
abbrev slt (a b : Word) : Bool := decide (a.toInt < b.toInt)

/-- D of an SR operation: arithmetic wraps, shift counts use the low 6 bits. -/
def srVal (f : SrOp) (a b : Word) : Word :=
  match f with
  | .add => a + b
  | .sub => a - b
  | .and => a &&& b
  | .or => a ||| b
  | .xor => a ^^^ b
  | .shl => a <<< (b.toNat % 64)
  | .shr => a >>> (b.toNat % 64)
  | .sra => a.sshiftRight (b.toNat % 64)
  | .mul => a * b
  | .mulhu => BitVec.ofNat 64 (a.toNat * b.toNat / 2 ^ 64)
  | .min => if slt b a then b else a
  | .max => if slt a b then b else a
  | .minu => if b.toNat < a.toNat then b else a
  | .maxu => if a.toNat < b.toNat then b else a
  | .slt => if slt a b then 1 else 0
  | .sltu => if a.toNat < b.toNat then 1 else 0

/-- D of a register-immediate operation. -/
def siVal (f : SiOp) (a : Word) (imm : BitVec 30) : Word :=
  let i : Word := imm.signExtend 64
  match f with
  | .addi => a + i
  | .andi => a &&& i
  | .ori => a ||| i
  | .xori => a ^^^ i
  | .shli => a <<< (imm.toNat % 64)
  | .shri => a >>> (imm.toNat % 64)
  | .srai => a.sshiftRight (imm.toNat % 64)
  | .li => i
  | .lim => BitVec.ofNat 64 (fld (a.toNat / 2 ^ 60) 60 4 + fld imm.toNat 30 30 + a.toNat % 2 ^ 30)
  | .lit => BitVec.ofNat 64 (fld imm.toNat 60 4 + a.toNat % 2 ^ 60)

/-- A conditional branch is taken. -/
def brTaken (f : SbOp) (a b : Word) : Bool :=
  match f with
  | .beq => a == b
  | .bne => a != b
  | .blt => slt a b
  | .bge => !slt a b
  | .bltu => a.toNat < b.toNat
  | .bgeu => b.toNat ≤ a.toNat

/-- The operation reads A (LI does not). -/
def siReads : SiOp → Bool
  | .li => false
  | _ => true

/-- Bytes that a saddlebag access moves. -/
def smBytes : SmOp → Nat
  | .ld | .st => 8
  | .ldw | .stw => 4

/-- The access is a load. -/
def smLoads : SmOp → Bool
  | .ld | .ldw => true
  | _ => false

/-- A branch target: this bundle plus OFF (R103). -/
def target (idx : Nat) (off : BitVec 30) : Nat := ((idx : Int) + off.toInt).toNat

/-- The special values of RDSPEC (R104). -/
def Site.special (x : Site) (s : State) (sel : Nat) : Word :=
  match sel with
  | 0 => BitVec.ofNat 64 x.st
  | 1 => BitVec.ofNat 64 x.rel
  | 2 => BitVec.ofNat 64 x.k.itin.streams.length
  | 3 => x.k.handle.setWidth 64
  | 4 => BitVec.ofNat 64 x.k.step
  | 5 => (s.stn x.st).tally.cycles
  | 6 => match x.a.quota with | none => BitVec.allOnes 64 | some q => BitVec.ofNat 64 q
  | _ => BitVec.ofNat 64 (partOfCtx x.c)

/-- The station is a member of barrier group `g` (R109). -/
def Site.member (x : Site) (g : Nat) : Bool := x.k.itin.barriers.any fun d => d.group == g && d.members.contains x.rel

/-! ### Faults at issue (R99, R102) -/

/-- What the S slot finds at issue. STEP and FINISH see the open-block table as it stood before the bundle, as R39 has every slot
read before any writes: a VQ beside them opens or closes its block after the check (DEDUCED, log entry 46). -/
def Site.sFaults (x : Site) (s : State) (op : SOp) : List Nat :=
  let a := x.a
  match op with
  | .nop | .jmp _ | .tinc .. => []
  | .sr _ d r q => a.rdS r ++ a.rdS q ++ a.wrS d
  | .chk r q => a.rdS r ++ a.rdS q ++ faultIf ((a.sreg q).toNat ≤ (a.sreg r).toNat) 0x23
  | .si f d r _ => (if siReads f then a.rdS r else []) ++ a.wrS d
  | .mem f d r imm =>
    let n := smBytes f
    let addr := plus (a.sreg r) imm.toInt
    a.rdS r ++ (if smLoads f then a.wrS d else a.rdS d) ++ saddleRange addr n ++ aligned addr n
  | .br _ r q _ => a.rdS r ++ a.rdS q
  | .call _ => faultIf (8 ≤ a.retStack.length) 0x1E
  | .ret =>
    match a.retStack with
    | [] => [0x1E]
    | i :: _ => faultIf (x.length ≤ i) 0x1D
  | .twait r _ => a.rdS r ++ faultIf (65535 < (a.sreg r).toNat) 0x19
  | .tread d _ | .ldshp d .. | .rdspec d _ => a.wrS d
  | .step n => faultIf (!a.openBlocks.isEmpty) 0x31 ++ faultIf (s.stepClash x.c x.rel n.toNat) 0x21
  | .finish => faultIf (!a.openBlocks.isEmpty) 0x31
  | .bar _ g => faultIf (!x.member g.toNat) 0x20

/-! ### The next bundle (R103) -/

/-- A branch is taken. -/
def Site.taken (x : Site) (op : SOp) : Bool :=
  match op with
  | .br f r q _ => brTaken f (x.a.sreg r) (x.a.sreg q)
  | .jmp _ | .call _ | .ret => true
  | _ => false

/-- The index of the bundle that follows. -/
def Site.next (x : Site) (op : SOp) : Nat :=
  match op with
  | .br _ _ _ off => if x.taken op then target x.idx off else x.idx + 1
  | .jmp off | .call off => target x.idx off
  | .ret => x.a.retStack.headD 0
  | _ => x.idx + 1

/-! ### Effects -/

/-- What the S slot writes in the station: registers, saddlebag, return stack. -/
def Site.sWrites (x : Site) (s : State) (op : SOp) (a : Arch) : Arch :=
  match op with
  | .sr f d r q => a.setS d (srVal f (x.a.sreg r) (x.a.sreg q))
  | .si f d r imm => a.setS d (siVal f (x.a.sreg r) imm)
  | .mem f d r imm =>
    let addr := plus (x.a.sreg r) imm.toInt
    if smLoads f then a.setS d (BitVec.ofNat 64 (leNat (rdBytes x.a.saddle addr (smBytes f))))
    else a.store addr (toLe (smBytes f) (x.a.sreg d).toNat)
  | .call _ => { a with retStack := (x.idx + 1) :: a.retStack }
  | .ret => { a with retStack := a.retStack.drop 1 }
  | .tread d t => a.setS d (BitVec.ofNat 64 (a.token t.toNat))
  | .rdspec d sel => a.setS d (x.special s sel.toNat)
  | .ldshp d t k =>
    match x.k.itin.shapes.find? fun e => e.slot == k.toNat with
    | none => a
    | some e =>
      let w := BitVec.ofNat 64 (leNat (rdBytes x.k.store e.addr 8))
      let a := { a with shapes := a.shapes ++ [⟨d, t.toNat, k.toNat, w, x.idx⟩]
                        producers := mset .unattributed a.producers t.toNat .shape }
      if d = 0 then a else a.mark (.s d)
  | .bar t _ => { a with producers := mset .unattributed a.producers t.toNat .barrier }
  | _ => a

/-- TINC adds N to a counter of its own station: a fault after issue when it would pass 65,535 (R44). -/
def Site.tinc (x : Site) (t : Tok) (n : BitVec 16) (s : State) : State :=
  s.incToken x.c x.rel t.toNat n.toNat .unattributed false (some (x.rel, x.idx, 2))

/-- BAR: an arrival of the station at its group, after the writes that it issued before (R109). -/
def Site.bar (x : Site) (t : Tok) (g : BitVec 4) (s : State) : State :=
  let key := 1024 * g.toNat + x.rel
  s.modCtx x.c fun k => { k with
    barPend := mmod [] k.barPend key (· ++ [(t.toNat, x.a.issued)]), barTok := mset 0 k.barTok key (t.toNat + 1) }

/-- What the S slot does beyond its own station once every slot has written: token increments, barriers, the end of a step or
of the stream. -/
def Site.sAfter (x : Site) (op : SOp) (s : State) : State :=
  match op with
  | .tinc t n => x.tinc t n s
  | .bar t g => x.bar t g s
  | .step b =>
    let s := s.modArch x.st fun a => { a with run := .atStep b.toNat }
    s.modCtx x.c fun k => { k with lastStep := some (x.rel, x.idx) }
  | .finish => (s.modArch x.st fun a => { a with run := .finished }).afterFinish x.c
  | _ => s

end Sys2Proof.Machine
end

