-- ==== Sys2Proof/Machine/Caravan.lean ====
section
/-!
DEFINITION. The caravan engine (07_central_store.md R185-R192, 09_experts.md R252): which group begins next, what it fetches,
when it completes, and what a restore fetches again.
-/

namespace Sys2Proof.Machine

/-- The caravan group of lane `j` of phase `p` of group `g` in layer `l` (R252). -/
def StepPlan.laneGroup (p : StepPlan) (l g phase j : Nat) : Nat :=
  p.caravanBase + ((l * p.groups.length + g) * 2 + phase) * p.lanes + j

/-- The caravan group fills a lane (R252). -/
def Itin.isLane (it : Itin) (g : Nat) : Bool :=
  match it.stepPlan with
  | none => false
  | some p => p.caravanBase ≤ g && g < p.caravanBase + p.moeLayers * p.groups.length * 2 * p.lanes

/-- Releases of a source since the context's first residency (R190). -/
def Ctx.releaseCount (k : Ctx) (src : Nat) : Nat := mget 0 k.caravan.releases src

/-- The conditions of R190 and R252 for the next group hold. -/
def Ctx.groupMayBegin (k : Ctx) (d : GroupDecl) : Bool :=
  (d.releaseSrc == 0xFF || k.caravan.pass * d.passStride + d.releaseAt ≤ k.releaseCount d.releaseSrc) &&
    (!k.itin.isLane k.caravan.next || k.caravan.laneReady.contains k.caravan.next)

/-- The engine works for the context: it runs, or has been made resident and has not held its stations yet (R190, R191). -/
def Ctx.caravanRuns (k : Ctx) : Bool :=
  k.resident && (k.state == .running || (!k.everHeld && (k.state == .ready || k.state == .parked)))

/-- The `v` of each entry of a group as its slots stand now (R188); 1 for a direct entry. -/
def Ctx.resolve (k : Ctx) : List EntryDecl → Except Nat (List Nat)
  | [] => .ok []
  | e :: rest =>
    match (if e.indirect then k.shape e.slot else .ok 1) with
    | .error x => .error x
    | .ok v =>
      match k.resolve rest with
      | .error x => .error x
      | .ok vs => .ok (v :: vs)

/-- The position after the next group begins: the schedule repeats when it is cyclic (R190). -/
def CaravanRun.advance (r : CaravanRun) (c : Caravan) : CaravanRun :=
  let r := { r with next := r.next + 1, laneReady := r.laneReady.erase r.next }
  if c.cyclic && c.groups.length ≤ r.next then { r with next := 0, pass := r.pass + 1 } else r

/-- Granules of an image range that another package holds, with their homes (R186). -/
def State.awayGranules (s : State) (c o n : Nat) : List (Nat × Nat) :=
  (granules o n).filterMap fun i => (s.awayHome c (i * 4096)).map fun h => (i, h)

/-- Granules of a group that another package holds. -/
def State.groupAway (s : State) (c : Nat) (v : Caravan) (r : GroupRun) : List (Nat × Nat) :=
  (((s.ctx c).itin.fills v r.group r.vs).flatMap fun (o, _, n, _) => s.awayGranules c o n).dedup

/-- The engine asks the homes of a group's granules for those that another package holds, through the partition's drovers (R186,
R301). -/
def State.askGroup (s : State) (c : Nat) (v : Caravan) (r : GroupRun) : State :=
  let l := s.groupAway c v r
  if l.isEmpty then s
  else
    let s := s.modCtx c fun k => { k with caravan := { k.caravan with
      fetched := k.caravan.fetched.filter fun x => l.all fun y => y.1 != x.1 } }
    l.foldl (fun s (i, h) => s.engineSend c h 0x03 0 0 (imageWindow + 4096 * i) [] (.fetch i)) s

/-- Every granule of the group that another package holds has come. -/
def State.groupHere (s : State) (c : Nat) (v : Caravan) (r : GroupRun) : Bool :=
  (s.groupAway c v r).all fun (i, _) => (s.ctx c).caravan.fetched.any fun x => x.1 == i

/-- Count the HBM bytes of an image range that this package holds (R193). -/
def State.homeTraffic (s : State) (c o n : Nat) : State :=
  match s.imageOf c with
  | none => s
  | some g => (pieces o n).foldl (fun s (x, _, m) =>
    if (s.awayHome c x).isNone then s.imageTraffic (partOfCtx c) g.regions 1 x m (some c) else s) s

/-- Fetch one range into the store, noted when it is a substituted tensor's; a poisoned granule tears the context down (R128,
R190, R196). -/
def State.fill (s : State) (c o dst n : Nat) (wide : Bool) : State :=
  match s.imageOf c with
  | none => s
  | some g =>
    if g.poisoned o n then s.beginTeardown c 5
    else
      let (d, s) := s.draw
      ((s.homeTraffic c o n).put c dst (s.imageSeen c d o n)).modCtx c fun k => if wide then { k with wide := k.wide ++ [(dst, n)] } else k

/-- Fetch every range of a group. -/
def State.fillGroup (s : State) (c : Nat) (v : Caravan) (r : GroupRun) : State :=
  ((s.ctx c).itin.fills v r.group r.vs).foldl (fun s (o, dst, n, wide) => s.fill c o dst n wide) s

/-- Stations that a group notifies (R187). -/
def Itin.notified (it : Itin) (d : GroupDecl) : List Nat :=
  if d.notifyGroup == 0xFF then List.range it.streams.length
  else match it.barriers.find? fun b => b.group == d.notifyGroup with
    | some b => b.members
    | none => []

/-- Destination ranges of a group overlap those of a later one. -/
def overlapped (a b : List (Nat × Nat × Nat × Bool)) : Bool :=
  a.any fun (_, x, n, _) => b.any fun (_, y, m, _) => x < y + m && y < x + n

/-- Groups that are still live: not complete, or not overwritten by a later begun group (R191). -/
def Itin.stillLive (it : Itin) (v : Caravan) (l : List GroupRun) : List GroupRun :=
  l.zipIdx.filterMap fun (r, i) =>
    if r.done && (l.drop (i + 1)).any fun q => overlapped (it.fills v r.group r.vs) (it.fills v q.group q.vs) then none
    else some r

/-- A begun group is complete: its bytes are visible and its notifications are delivered (R45, R190). -/
def State.completeGroup (s : State) (c : Nat) (v : Caravan) (r : GroupRun) : State :=
  let s := s.fillGroup c v r
  if (s.ctx c).state == .tearingDown then s
  else
    let s := s.modCtx c fun k => { k with caravan := { k.caravan with
      live := k.itin.stillLive v (k.caravan.live.map fun q => if q == r then { q with done := true, notified := true } else q) } }
    match v.groups[r.group]? with
    | none => s
    | some d => if r.notified then s else s.incEach c ((s.ctx c).itin.notified d) d.notifyToken .caravan

/-- CARAVAN_GROUP_BEGIN (R190, R252): the next group of the schedule begins; one whose entries are all skipped completes at
once. A bad shape word is a program fault of no station (R188). -/
def execCaravanGroupBegin (c : Nat) (s : State) : Res :=
  let k := s.ctx c
  match k.itin.caravan with
  | none => .next s
  | some v =>
    match v.groups[k.caravan.next]? with
    | none => .next s
    | some d =>
      if 128 ≤ c || !k.caravanRuns || !k.groupMayBegin d then .next s
      else
        let es := v.entriesOf k.caravan.next
        let read := (es.filter (·.indirect)).foldl (fun s e => s.shapeTraffic c e.slot) (s.seenStore c)
        match (s.seenCtx c).resolve es with
        | .error e => .next (read.programFault c (s.stnCount c) 0 e)
        | .ok vs =>
          let r : GroupRun := { group := k.caravan.next, pass := k.caravan.pass, vs := vs }
          let l := k.itin.fills v r.group vs
          let s := read.modCtx c fun k => { k with
            caravan := { k.caravan.advance v with live := k.itin.stillLive v (k.caravan.live ++ [r]) } }
          .next (if l.isEmpty then s.completeGroup c v r else s.askGroup c v r)

/-- Stacks of this package that hold granules of a group. -/
def State.groupStacks (s : State) (c : Nat) (v : Caravan) (r : GroupRun) : List Nat :=
  ((s.ctx c).itin.fills v r.group r.vs).flatMap fun (o, _, n, _) =>
    match s.imageOf c with
    | none => []
    | some g => ((granules o n).filter fun i => (s.awayHome c (i * 4096)).isNone).map fun i =>
        (s.imagePlace (partOfCtx c) g.regions (i * 4096)).2.1

/-- An earlier begun group that shares a stack is not complete: groups that share stacks complete in order (R190). -/
def State.groupWaits (s : State) (c : Nat) (v : Caravan) (earlier : List GroupRun) (r : GroupRun) : Bool :=
  let mine := s.groupStacks c v r
  earlier.any fun q => !q.done && (s.groupStacks c v q).any mine.contains

/-- CARAVAN_GROUP_COMPLETE (R190): every byte of the i-th live group is visible; granules of other packages must have come. -/
def execCaravanGroupComplete (c i : Nat) (s : State) : Res :=
  let k := s.ctx c
  match k.itin.caravan, k.caravan.live[i]? with
  | some v, some r =>
    if 128 ≤ c || !k.caravanRuns || r.done || s.groupWaits c v (k.caravan.live.take i) r || !s.groupHere c v r then .next s
    else .next (s.completeGroup c v r)
  | _, _ => .next s

/-- A restore asks the homes again for the granules of every live group that other packages hold, in schedule order (R186, R191). -/
def State.askAgain (s : State) (c : Nat) : State :=
  match (s.ctx c).itin.caravan with
  | none => s
  | some v => (s.ctx c).caravan.live.foldl (fun s r => s.askGroup c v r)
      (s.modCtx c fun k => { k with caravan := { k.caravan with fetched := [] } })

/-- The granules that other packages hold have come for every live group that had been notified (R191). -/
def State.againHere (s : State) (c : Nat) : Bool :=
  match (s.ctx c).itin.caravan with
  | none => true
  | some v => ((s.ctx c).caravan.live.filter (·.done)).all (s.groupHere c v)

/-- On restore the engine fetches every live group again; those that had been notified are complete before the stations are
released (R191). -/
def State.refetch (s : State) (c : Nat) : State :=
  match (s.ctx c).itin.caravan with
  | none => s
  | some v => ((s.ctx c).caravan.live.filter (·.done)).foldl (fun s r => s.fillGroup c v r) s

end Sys2Proof.Machine
end

