-- ==== Sys2Proof/Machine/Routing.lean ====
section
/-!
DEFINITION. The dispatch engine at the origin (09_experts.md R252-R260, R264-R272): route entries, the borrow decision, the
lanes it lists, what it ships, plans, and borrow requests.
-/

namespace Sys2Proof.Machine

/-! ### Groups, areas, faults -/

/-- Stations of an expert group, context-relative. -/
def ExpertGroup.stations (g : ExpertGroup) : List Nat := (List.range g.count).map (g.first + ·)

/-- This package's PEERS index and the number of PEERS entries (R314). -/
def Ctx.peerCount (k : Ctx) : Nat := match k.itin.peers with | some x => x.ids.length | none => 1

/-- The PEERS indexes of the other packages. -/
def Ctx.others (k : Ctx) : List Nat := (List.range k.peerCount).filter (· != k.selfPeer)

/-- A dispatch request faults after issue (R265, R282). -/
def State.dispFault (s : State) (c : Nat) (r : DispReq) (code : Nat) : State :=
  (s.moEvent 0).lateFault c r.station r.bundle 3 code

/-- The engine works for context `c`: it runs and has a STEPPLAN section. -/
def State.engine (s : State) (c : Nat) : Option StepPlan :=
  if (s.ctx c).state == .running && c < 128 then (s.ctx c).itin.stepPlan else none

/-- Change the engine's state for a context. -/
def State.modMoe (s : State) (c : Nat) (f : MoeRun → MoeRun) : State := s.modCtx c fun k => { k with moe := f k.moe }

/-- The engine takes a request from the queue. -/
def State.takeReq (s : State) (c : Nat) (r : DispReq) : State := s.modMoe c fun m => { m with queue := m.queue.erase r }

/-- The `n` bytes at `a` lie in one working region. -/
def Ctx.inWorking (k : Ctx) (a n : Nat) : Bool :=
  match k.region a n with
  | some r => r.kind == 3
  | none => false

/-- A request's counter rises at a list of stations (R258, R259). -/
def State.dispToken (s : State) (c : Nat) (rels : List Nat) (t : Nat) : State := s.incEach c rels t .dispatch

/-- DONE_TOKEN rises at the issuing station (R258). -/
def State.dispDone (s : State) (c : Nat) (r : DispReq) : State := s.incToken c r.station r.doneToken 1 .dispatch false none

/-! ### ROUTE (R257, R259 step 1) -/

/-- Entry `i` of a route table (R257): its token slot, its experts, and whether its reserved bytes are zero. -/
def Ctx.routeEntry (k : Ctx) (table i : Nat) : Nat × Nat × List Nat × Bool :=
  let b := rdBytes k.store (table + 32 * i) 32
  let n := leAt b 4 1
  (leAt b 0 4, n, (List.range (min n 8)).map (fun j => leAt b (8 + 2 * j) 2),
    zeroAt b 5 3 && zeroAt b 24 8 && zeroAt b (8 + 2 * min n 8) (16 - 2 * min n 8))

/-- The fault of a route entry (R265). -/
def Ctx.routeFault (k : Ctx) (p : StepPlan) (g : ExpertGroup) (e : Nat × Nat × List Nat × Bool) : Option Nat :=
  let (slot, n, xs, clean) := e
  if !clean then some 0x44
  else if n == 0 || p.topK < n || xs.any (p.experts ≤ ·) || xs.dedup.length != xs.length then some 0x45
  else
    match k.itin.regions.find? fun r => r.holds g.actBase 1 with
    | some r => if r.holds (g.actBase + slot * p.actBytes) p.actBytes then none else some 0x45
    | none => some 0x45

/-- The pairs of route entry `i` (R253). -/
def pairsOf (p : StepPlan) (group i slot : Nat) (xs : List Nat) : List Pair :=
  xs.zipIdx.map fun (e, j) => ⟨group, i * p.topK + j, e, slot⟩

/-- The routing of a layer in a step, and a place for it when there is none. -/
def MoeRun.route (m : MoeRun) (layer step : Nat) : RouteRun :=
  (m.routes.find? fun r => r.layer == layer && r.step == step).getD { layer := layer, step := step }

/-- Put a layer's routing in its place. -/
def MoeRun.putRoute (m : MoeRun) (r : RouteRun) : MoeRun :=
  if m.routes.any fun q => q.layer == r.layer && q.step == r.step
  then { m with routes := m.routes.map fun q => if q.layer == r.layer && q.step == r.step then r else q }
  else { m with routes := m.routes ++ [r] }

/-- A group's route entries are read and its pairs counted. -/
def State.routeGroup (s : State) (c : Nat) (p : StepPlan) (g : ExpertGroup) (r : DispReq) : State :=
  let k := s.ctx c
  let s := s.takeReq c r
  let run := k.moe.route r.layer r.step
  if run.reqs.any fun q => q.group == r.group then s.dispFault c r 0x47
  else
    let k := s.seenCtx c
    let s := (s.seenStore c).shapeTraffic c r.countSlot
    match k.shape r.countSlot with
    | .error e => s.dispFault c r e
    | .ok n =>
      if p.routeMax < n then s.dispFault c r 0x45
      else if n != 0 && !k.inWorking r.table (32 * n) then s.dispFault c r 0x44
      else
        let s := s.storeTraffic c 2 r.table (32 * n)
        let es := (List.range n).map (k.routeEntry r.table)
        match es.findSome? (k.routeFault p g) with
        | some e => s.dispFault c r e
        | none =>
          let ps := es.zipIdx.flatMap fun ((slot, _, xs, _), i) => pairsOf p r.group i slot xs
          s.modMoe c fun m => ({ m with
            counts := ps.foldl (fun t (x : Pair) => mmod 0 t (r.layer * 65536 + x.expert) (· + 1)) m.counts }).putRoute
              { run with reqs := run.reqs ++ [r], pairs := run.pairs ++ ps }

/-- ROUTE (R259 step 1): the engine takes a group's request. -/
def execRoute (c group : Nat) (s : State) : Res :=
  match s.engine c with
  | none => .next s
  | some p =>
    match (s.ctx c).moe.queue.find? fun r => r.op == 1 && r.group == group, p.groups[group]? with
    | some r, some g => .next (s.routeGroup c p g r)
    | _, _ => .next s

/-! ### Plans (R268-R271) -/

/-- The plan of the present step is settled: taken, not needed, or posted (R271); none while the first ROUTE waits. -/
def State.takePlan (s : State) (c : Nat) : Option State :=
  let k := s.ctx c
  let taken (s : State) : State := s.modMoe c fun m => { m with planTaken := true, planNext := k.step + 1 }
  if !k.itin.stepPlanMode || k.moe.planTaken then some s
  else if k.step == 0 then some (taken s)
  else
    match k.moe.planStore.find? fun x => x.1 == k.step with
    | none => none
    | some (_, l) =>
      let s := s.modPart (partOfCtx c) fun q => { q with plansApplied := satAdd 32 q.plansApplied 1 }
      some (taken (s.modMoe c fun m => { m with plan := l, planStore := m.planStore.filter fun x => k.step < x.1 }))

/-- PLAN_DEADLINE (R271): no plan has been posted by the deadline, and the plan in force stays. -/
def execPlanDeadline (c : Nat) (s : State) : Res :=
  match s.engine c with
  | none => .next s
  | some p =>
    let k := s.ctx c
    let posted := k.moe.planStore.any fun x => x.1 == k.step
    if !k.itin.stepPlanMode || k.step == 0 || k.moe.planTaken || posted || s.now < k.stepStart + p.deadlineNs then .next s
    else
      let s := s.modMoe c fun m => { m with planTaken := true, planLate := true, planNext := k.step + 1 }
      .next ((s.moEvent 4).modPart (partOfCtx c) fun q => { q with plansLate := satAdd 32 q.plansLate 1 })

/-! ### The borrow decision (R260) -/

/-- decide of R260; `quota` none is unlimited. -/
def decideExpert (count : Nat) (homeIsSelf borrowedLast : Bool) (quota : Option Nat) (threshold hysteresis : Nat) : Decision :=
  if homeIsSelf then .local_
  else if threshold < count + (if borrowedLast then hysteresis else 0) then .borrow
  else match quota with
    | some q => if q < count then .borrow else .ship
    | none => .ship

/-- The quota of an expert under the plan in force (R268, R270). -/
def Ctx.quota (k : Ctx) (layer expert : Nat) : Option Nat :=
  if !k.itin.stepPlanMode then none
  else match k.moe.plan.find? fun q => q.layer == layer && q.expert == expert with
    | some q => if q.quota == 0xFFFF then none else some q.quota
    | none => some 0

/-- Experts with pairs in a layer, ascending, with their counts. -/
def RouteRun.experts (r : RouteRun) : List (Nat × Nat) :=
  ((r.pairs.map (·.expert)).dedup.mergeSort (· ≤ ·)).map fun e => (e, (r.pairs.filter (·.expert == e)).length)

/-- The decisions of a layer. -/
def Ctx.decisions (k : Ctx) (p : StepPlan) (r : RouteRun) : List (Nat × Decision) :=
  let q := r.reqs.headD ⟨0, 0, 0, 0, 0, 0, 0, 0, 0, 0, 0, 0, 0, 0⟩
  r.experts.map fun (e, n) =>
    let home := match p.home r.layer e with | some h => h.home | none => 0
    (e, decideExpert n (home == k.selfPeer) (k.moe.history.contains (r.layer * 65536 + e)) (k.quota r.layer e) q.threshold q.hysteresis)

/-- What was decided for an expert. -/
def decided (l : List (Nat × Decision)) (e : Nat) : Decision :=
  match l.find? (·.1 == e) with
  | some (_, d) => d
  | none => .ship

/-- The experts that take local lanes of a group, ascending (R259 step 3). -/
def RouteRun.lanesOf (r : RouteRun) (l : List (Nat × Decision)) (group : Nat) : List Nat :=
  ((r.pairs.filter fun x => x.group == group && decided l x.expert != .ship).map (·.expert)).dedup.mergeSort (· ≤ ·)

/-- The shipped pairs of a layer with their homes, in group, entry and choice order (R259 step 4). -/
def RouteRun.shipList (r : RouteRun) (p : StepPlan) (l : List (Nat × Decision)) : List (Pair × Nat) :=
  (List.range p.groups.length).flatMap fun g =>
    (r.pairs.filter fun x => x.group == g && decided l x.expert == .ship).map fun x =>
      (x, match p.home r.layer x.expert with | some h => h.home | none => 0)

/-! ### Lists (R252, R253, R259 step 3) -/

/-- A lane descriptor (R253). -/
def laneDescriptor (expert flags rows tensor home : Nat) (epoch : BitVec 16) : Bytes :=
  toLe 2 expert ++ toLe 2 flags ++ toLe 4 rows ++ toLe 4 tensor ++ toLe 2 home ++ toLe 2 epoch.toNat ++ toLe 16 0

/-- The slots and rows of one local lane of a group. -/
def State.listLocal (s : State) (c : Nat) (p : StepPlan) (g : ExpertGroup) (run : RouteRun) (l : List (Nat × Decision))
    (group j e : Nat) : State :=
  let k := s.ctx c
  let rows := run.pairs.filter fun x => x.group == group && x.expert == e
  let borrowed := decided l e == .borrow
  let (home, ord, tensor) := match p.home run.layer e with | some h => (h.home, h.ordinal, h.tensor) | none => (0, 0, 0)
  let s := s.put c (g.listBase + 32 * j)
    (laneDescriptor e (b2n borrowed) rows.length (if borrowed then g.borrowTensor + j else tensor) home k.moe.epoch)
  let s := s.put c (g.listBase + 64 * p.lanes + 8 * j * p.routeMax) (rows.flatMap fun x => toLe 4 x.slot ++ toLe 4 x.index)
  let s := s.modMoe c fun m => { m with
    lent := (m.lent.filter fun x => x.group != group || x.lane != j) ++ if borrowed then [⟨group, j, run.layer, e, home⟩] else [] }
  (s.putShape c (g.slotBase + 2 + j) (if borrowed then 0 else ord + 1)).putShape c (g.slotBase + 2 + p.lanes + j) rows.length

/-- One group's local lanes, slots, SHIP_SLOT and counters (R259 step 3). -/
def State.listGroup (s : State) (c : Nat) (p : StepPlan) (run : RouteRun) (l : List (Nat × Decision)) (group : Nat) : State :=
  match p.groups[group]?, run.reqs.find? fun q => q.group == group with
  | some g, some r =>
    let es := run.lanesOf l group
    let shipped := (run.pairs.filter fun x => x.group == group && decided l x.expert == .ship).length
    let s := es.zipIdx.foldl (fun s (e, j) => s.listLocal c p g run l group j e) s
    let s := s.foldNat (List.range (p.lanes - es.length)) fun s i =>
      (s.putShape c (g.slotBase + 2 + es.length + i) 0).putShape c (g.slotBase + 2 + p.lanes + es.length + i) 0
    let s := ((s.putShape c g.slotBase es.length).putShape c g.shipSlot shipped).modCtx c fun k => { k with
      caravan := { k.caravan with
        laneReady := (k.caravan.laneReady ++ (List.range p.lanes).map (p.laneGroup run.layer group 0)).dedup } }
    let s := s.dispToken c g.stations r.listToken
    (es.filter fun e => decided l e != .borrow).foldl (fun s _ => s.dispToken c g.stations r.laneToken) s
  | _, _ => s

/-- The borrowed experts of a layer with the lanes that hold them. -/
def RouteRun.borrowRuns (r : RouteRun) (p : StepPlan) (l : List (Nat × Decision)) : List BorrowRun :=
  (l.filter fun x => x.2 == .borrow).map fun (e, _) =>
    { step := r.step, layer := r.layer, expert := e
      lanes := (List.range p.groups.length).filterMap fun g =>
        let j := (r.lanesOf l g).findIdx (· == e)
        if j < (r.lanesOf l g).length then
          some (g, j, match r.reqs.find? fun q => q.group == g with | some q => q.laneToken | none => 0)
        else none }

/-- The first request that breaks a limit of R265, with the fault: too many lanes, or too many records for one home. -/
def RouteRun.limitFault (r : RouteRun) (p : StepPlan) (l : List (Nat × Decision)) : Option DispReq :=
  let ships := r.shipList p l
  let beyond := ships.zipIdx.find? fun ((_, h), i) => p.shipMax ≤ ((ships.take i).filter fun x => x.2 == h).length
  match r.reqs.find? fun q => p.lanes < (r.lanesOf l q.group).length with
  | some q => some q
  | none =>
    match beyond with
    | some ((x, _), _) => r.reqs.find? fun q => q.group == x.group
    | none => none

/-- Decide and list a layer (R259 steps 2 and 3). -/
def State.listLayer (s : State) (c : Nat) (p : StepPlan) (run : RouteRun) : State :=
  let l := (s.ctx c).decisions p run
  match run.limitFault p l with
  | some q => s.dispFault c q 0x46
  | none =>
    let bit (e : Nat) : Nat := run.layer * 65536 + e
    let new := (l.filter fun x => x.2 == Decision.borrow).map fun x => bit x.1
    let s := s.modMoe c fun m => ({ m with
      history := (m.history.filter fun h => !l.any fun x => bit x.1 == h) ++ new
      borrows := m.borrows ++ run.borrowRuns p l }).putRoute { run with listed := true, ships := run.shipList p l }
    s.foldNat (List.range p.groups.length) fun s g => s.listGroup c p run l g

/-! ### Shipping (R259 step 4, R262) -/

/-- The 64-byte header of an arrival or return record (R262). -/
def recordHeader (origin : Nat) (epoch : BitVec 16) (layer expert pair group flags step : Nat) : Bytes :=
  toLe 2 origin ++ toLe 2 epoch.toNat ++ toLe 2 layer ++ toLe 2 expert ++ toLe 4 pair ++ toLe 1 group ++ toLe 1 flags ++
    toLe 2 0 ++ toLe 8 step ++ toLe 40 0

/-- Where slot `n` of source `s`'s slab for a layer lies (R262). -/
def arrivalAddr (p : StepPlan) (peers layer source n : Nat) : Nat :=
  p.arrivalBase + (layer % 2 * peers + source) * p.shipMax * (64 + p.actBytes) + n * (64 + p.actBytes)

/-- A shipped pair's arrival record leaves for its home, as record `n` for it. -/
def State.shipPair (s : State) (c : Nat) (p : StepPlan) (run : RouteRun) (x : Pair) (home n : Nat) : State :=
  let k := s.ctx c
  let from_ := match p.groups[x.group]? with | some g => g.actBase + x.slot * p.actBytes | none => 0
  let act := rdBytes (s.storeSeen c) from_ p.actBytes
  let s := (s.seenStore c).storeTraffic c 2 from_ p.actBytes
  let s := s.modMoe c fun m => { m with await := m.await ++ [⟨run.step, run.layer, x.group, x.index, x.expert, home⟩] }
  let s := s.modPart (partOfCtx c) fun q => { q with shipped := satAdd 32 q.shipped 1 }
  s.engineSend c home 0x20 0 0 (arrivalAddr p k.peerCount run.layer k.selfPeer n)
    (recordHeader k.selfPeer k.moe.epoch run.layer x.expert x.index x.group 0 run.step ++ act)

/-- Every pair shipped two layers before, or in an earlier step, has its result, and none of those layers has still to ship
(R259 step 4). -/
def MoeRun.mayShip (m : MoeRun) (r : RouteRun) : Bool :=
  let before (step layer : Nat) : Bool := step < r.step || (step == r.step && layer + 2 == r.layer)
  (m.await.all fun a => !before a.step a.layer) && m.routes.all fun q => !(q.listed && !q.shipped && before q.step q.layer)

/-- A layer's records and notices leave, and DONE_TOKEN rises at each issuing station (R259 steps 4 and 6). -/
def State.shipLayer (s : State) (c : Nat) (p : StepPlan) (run : RouteRun) : State :=
  let l := run.ships
  let s := l.zipIdx.foldl (fun s ((x, h), i) =>
    s.shipPair c p run x h ((l.take i).filter fun y => y.2 == h).length) s
  let s := s.foldNat ((s.ctx c).others) fun s h =>
    s.engineSend c h 0x21 0 0 0 (toBe 8 run.step ++ toBe 2 run.layer ++ toBe 4 (l.filter fun y => y.2 == h).length ++ toBe 2 0)
  let s := s.modMoe c fun m =>
    let m := m.putRoute { run with shipped := true }
    { m with routes := m.routes.filter fun q => run.step ≤ q.step || !q.shipped }
  run.reqs.foldl (fun s r => s.dispDone c r) s

/-- ROUTE_PROCEED (R259 steps 2-4, R271): the first layer that every group has routed is decided and listed; the first listed
layer that may ship does. -/
def execRouteProceed (c : Nat) (s : State) : Res :=
  match s.engine c with
  | none => .next s
  | some p =>
    let m := (s.ctx c).moe
    match m.routes.find? fun r => !r.listed && r.reqs.length == p.groups.length with
    | some r =>
      match s.takePlan c with
      | none => .next s
      | some s =>
        let s := s.listLayer c p r
        let m := (s.ctx c).moe
        let r := m.route r.layer r.step
        .next (if r.listed && m.mayShip r then s.shipLayer c p r else s)
    | none =>
      match m.routes.find? fun r => r.listed && !r.shipped && m.mayShip r with
      | some r => .next (s.shipLayer c p r)
      | none => .next s

/-! ### Borrow requests (R259 step 5) -/

/-- BORROW_REQUEST_SEND (R259 step 5): every lane that holds the expert has had its caravan group begun. -/
def execBorrowRequestSend (c layer expert : Nat) (s : State) : Res :=
  match s.engine c with
  | none => .next s
  | some p =>
    let k := s.ctx c
    match k.moe.borrows.find? fun b => b.layer == layer && b.expert == expert && !b.sent, p.home layer expert with
    | some b, some h =>
      if b.lanes.any fun (g, j, _) => k.caravan.laneReady.contains (p.laneGroup layer g 0 j) then .next s
      else
        let s := s.modMoe c fun m => { m with borrows := m.borrows.map fun x => if x == b then { x with sent := true } else x }
        let s := s.modPart (partOfCtx c) fun q => { q with borrows := satAdd 32 q.borrows 1 }
        .next (s.engineSend c h.home 0x22 0 0 0
          (toBe 8 b.step ++ toBe 2 layer ++ toBe 2 expert ++ toBe 2 k.moe.epoch.toNat ++ toBe 2 0))
    | _, _ => .next s

end Sys2Proof.Machine
end

