-- ==== Sys2Proof/Machine/Special.lean ====
section
/-!
DEFINITION. The special functions (05_weave_and_vector.md R149): the exact mathematical result rounded once. A reciprocal or a
root is cut below its last bit with a sticky bit; a transcendental result is enclosed between two fixed-point bounds, narrowed
until both round to one pattern (log entry 10). No transcendental value of a nonzero operand is a tie, so the loop ends.
-/

namespace Sys2Proof.Machine

/-! ### Algebraic functions -/

/-- A truncated integer `q` times `2^e` with a sticky bit for what was cut. -/
def sticky (s : Bool) (q : Nat) (e : Int) (cut : Bool) : Num := .fin s (2 * q + b2n cut) (e - 1)

/-- 1 / x (R149). -/
def recip : Num → Num
  | .nan => .nan
  | .inf s => .fin s 0 0
  | .fin s m e =>
    if m == 0 then .inf s
    else
      let k := 64 + Nat.log2 m
      sticky s (2 ^ k / m) (-e - k) (2 ^ k % m != 0)

/-- The integer square root, bit by bit from `2^(n-1)`. -/
def isqrtFrom (v : Nat) : Nat → Nat → Nat
  | 0, r => r
  | n + 1, r => let t := r + 2 ^ n; isqrtFrom v n (if t * t ≤ v then t else r)

/-- The integer square root. -/
def isqrt (v : Nat) : Nat := isqrtFrom v (Nat.log2 v / 2 + 1) 0

/-- 1 / sqrt x (R149). -/
def rsqrt : Num → Num
  | .nan => .nan
  | .inf s => if s then .nan else .zero
  | .fin s m e =>
    if m == 0 then .inf s
    else if s then .nan
    else
      let (m, e) := if e % 2 == 0 then (m, e) else (2 * m, e - 1)
      let k := 64 + Nat.log2 m
      let v := 2 ^ (2 * k) / m
      let r := isqrt v
      sticky false r (-(e / 2) - k) (r * r * m != 2 ^ (2 * k))

/-! ### Fixed-point enclosures -/

/-- A real between `lo / 2^w` and `hi / 2^w`. -/
structure Encl where
  lo : Int
  hi : Int
deriving DecidableEq, Repr

/-- Sum of the series `t_i = t_(i-1) * n / (i * d)` from `i`, each term cut down. -/
def expSeries (n d : Nat) : Nat → Nat → Nat → Nat → Nat
  | 0, _, _, acc => acc
  | fuel + 1, i, t, acc =>
    let t := t * n / (i * d)
    if t == 0 then acc else expSeries n d fuel (i + 1) t (acc + t)

/-- exp(n / d) for `0 <= n / d <= 110`, at scale `2^w`: the cut terms lose less than `2^200`. -/
def expPos (w n d : Nat) : Encl :=
  let s := expSeries n d 2000 1 (2 ^ w) (2 ^ w)
  ⟨s, s + 2 ^ 200⟩

/-- The reciprocal of a positive enclosure. -/
def Encl.inv (w : Nat) (x : Encl) : Encl := ⟨2 ^ (2 * w) / x.hi, 2 ^ (2 * w) / x.lo + 1⟩

/-- exp(-n / d). -/
def expNeg (w n d : Nat) : Encl := (expPos w n d).inv w

/-- Sum of `t^(2i+1) / (2i+1)` with `p = t^(2i+1)` at scale `2^w` and `t = n / d`, each term cut down. -/
def atanhSeries (n d : Nat) : Nat → Nat → Nat → Nat → Nat
  | 0, _, _, acc => acc
  | fuel + 1, i, p, acc =>
    if p == 0 then acc else atanhSeries n d fuel (i + 2) (p * n * n / (d * d)) (acc + p / i)

/-- 2 atanh(n / d) for `0 <= n / d <= 1 / 3`: the cut terms lose less than `2^30`. -/
def twoAtanh (w n d : Nat) : Encl :=
  let s := 2 * atanhSeries n d 2000 1 (2 ^ w * n / d) 0
  ⟨s, s + 2 ^ 30⟩

/-- ln of `m * 2^e`: `m / 2^L` lies in `[1, 2)`, and ln 2 is 2 atanh(1/3). -/
def lnEncl (w m : Nat) (e : Int) : Encl :=
  let l := Nat.log2 m
  let z := twoAtanh w (m - 2 ^ l) (m + 2 ^ l)
  let t := twoAtanh w 1 3
  let k := e + l
  if 0 ≤ k then ⟨z.lo + k * t.lo, z.hi + k * t.hi⟩ else ⟨z.lo + k * t.hi, z.hi + k * t.lo⟩

/-- tanh(n / d) = (1 - q) / (1 + q) with q = exp(-2 n / d). -/
def tanhEncl (w n d : Nat) : Encl :=
  let q := expNeg w (2 * n) d
  let one : Int := 2 ^ w
  ⟨(one - q.hi) * one / (one + q.hi), (one - q.lo) * one / (one + q.lo) + 1⟩

/-- The code of the real that `enc` encloses ever more narrowly: widths double until both ends round alike. -/
def roundEncl (f : FpFmt) (neg : Bool) (enc : Nat → Encl) : Nat → Nat → Nat
  | 0, w => f.encode ((Num.ofInt (enc w).lo (-w)).withSign neg)
  | fuel + 1, w =>
    let x := enc w
    let a := Num.ofInt x.lo (-w)
    let b := Num.ofInt x.hi (-w)
    let code (y : Num) : Nat := f.encode (if neg then y.negate else y)
    if code a == code b then code a else roundEncl f neg enc fuel (2 * w)

/-- Round an enclosure of a positive real, from 512 bits below the point. -/
def roundPos (f : FpFmt) (neg : Bool) (enc : Nat → Encl) : Nat := roundEncl f neg enc 6 512

/-- The operand as a fraction: numerator and denominator. -/
def fraction (m : Nat) (e : Int) : Nat × Nat := if 0 ≤ e then (m * 2 ^ e.toNat, 1) else (m, 2 ^ (-e).toNat)

/-- e^x (R149). Beyond 110 the result overflows or is flushed in every TYPE. -/
def vexp (f : FpFmt) (x : Num) : Nat :=
  match x with
  | .nan => f.encode .nan
  | .inf s => if s then 0 else f.encode (.inf false)
  | .fin s m e =>
    let (n, d) := fraction m e
    if m == 0 then f.encode (.ofInt 1 0)
    else if 110 * d < n then (if s then 0 else f.encode (.inf false))
    else roundPos f false fun w => if s then expNeg w n d else expPos w n d

/-- ln x (R149). -/
def vlog (f : FpFmt) (x : Num) : Nat :=
  match x with
  | .nan => f.encode .nan
  | .inf s => f.encode (if s then .nan else .inf false)
  | .fin s m e =>
    if m == 0 then f.encode (.inf true)
    else if s then f.encode .nan
    else if m == 2 ^ Nat.log2 m && e + Nat.log2 m == 0 then 0
    else roundEncl f false (fun w => lnEncl w m e) 6 512

/-- tanh x (R149). Beyond 60 the result rounds as 1 - 2^-100 does. -/
def vtanh (f : FpFmt) (x : Num) : Nat :=
  match x with
  | .nan => f.encode .nan
  | .inf s => f.encode (.ofInt (if s then -1 else 1) 0)
  | .fin s m e =>
    let (n, d) := fraction m e
    if m == 0 then f.encode (.fin s 0 0)
    else if 60 * d < n then f.encode (.fin s (2 ^ 100 - 1) (-100))
    else roundPos f s fun w => tanhEncl w n d

/-- The result of a special function's value rounded to an encoding. -/
def vrcp (f : FpFmt) (x : Num) : Nat := f.encode (recip x)
/-- 1 / sqrt x rounded (R149). -/
def vrsqrt (f : FpFmt) (x : Num) : Nat := f.encode (rsqrt x)

end Sys2Proof.Machine
end

