-- ==== Sys2Proof/Machine/SlotV.lean ====
section
/-!
DEFINITION. The V slot (05_weave_and_vector.md R146-R156, 03_number_formats.md R74-R91): lanes, arithmetic, reductions,
conversions, accumulator segments, quantise with its conversion blocks and the detour decision, dequantise.
-/

namespace Sys2Proof.Machine

/-! ### Lanes (R146) -/

/-- Lane `i` of `w` bits of a vector register. -/
def laneAt (w : Nat) (v : BitVec 4096) (i : Nat) : Nat := bitsOf v.toNat (w * i) w

/-- A vector register from lanes of `w` bits, lane 0 first. -/
def ofLanes (w : Nat) (l : List Nat) : BitVec 4096 := BitVec.ofNat 4096 (l.foldr (fun x n => n * 2 ^ w + x % 2 ^ w) 0)

/-- The encoding that a TYPE names: FP32, BF16 or FP16 (R148). -/
def laneFmt : Nat → Option FpFmt
  | 15 => some .f32
  | 11 => some .bf16
  | 12 => some .f16
  | _ => none

/-- Lanes of a register in an encoding. -/
def FpFmt.lanes (f : FpFmt) : Nat := 4096 / f.bits

/-- The values of a register's lanes. -/
def laneVals (f : FpFmt) (v : BitVec 4096) : List Num := (List.range f.lanes).map fun i => f.ieee (laneAt f.bits v i)

/-- A register from values, each rounded once (R146). -/
def ofVals (f : FpFmt) (l : List Num) : BitVec 4096 := ofLanes f.bits (l.map f.encode)

/-! ### Reductions (R150) -/

/-- The lanes combined in halves, `x[i]` with `x[i + w]`, from `w` down to 1. -/
def halves (step : Num → Num → Num) : Nat → Nat → List Num → Num
  | 0, _, l => l.headD .nan
  | fuel + 1, w, l =>
    if w == 0 then l.headD .nan
    else halves step fuel (w / 2) ((List.range w).map fun i => step (l.getD i .nan) (l.getD (i + w) .nan))

/-- A reduction of the 128 lanes. -/
def reduce (step : Num → Num → Num) (l : List Num) : Num := halves step 7 64 l

/-- `x` is larger than `y` as a number: zeros of both signs are equal (R150). -/
def larger (x y : Num) : Bool := y.lt x && !(x.isZero && y.isZero)

/-- The largest lane and its index, the lowest on a tie, or the first NaN (R150). -/
def maxIndex (l : List Num) : Num × Nat :=
  match l.findIdx? Num.isNan with
  | some i => (.nan, i)
  | none => l.zipIdx.foldl (fun (b : Num × Nat) (x : Num × Nat) => if larger x.1 b.1 then x else b) (l.headD .nan, 0)

/-! ### Elementwise operations (R148, R149) -/

/-- What a lane of an elementwise operation holds. -/
def laneOp (f : FpFmt) (op : VrOp) (a b c : Num) : Nat :=
  match op with
  | .vadd => f.encode (a.add b)
  | .vsub => f.encode (a.add b.negate)
  | .vmul => f.encode (a.mul b)
  | .vfma => f.encode ((a.mul b).add c)
  | .vmax => f.encode (a.max b)
  | .vmin => f.encode (a.min b)
  | .vabs => f.encode (a.withSign false)
  | .vneg => f.encode a.negate
  | .vsel => f.encode (if Num.zero.lt a then b else c)
  | .vexp => vexp f a
  | .vlog => vlog f a
  | .vrsqrt => vrsqrt f a
  | .vtanh => vtanh f a
  | .vrcp => vrcp f a
  | _ => f.encode a

/-! ### Conversions (R152) -/

/-- The value of a lane of a source format. -/
def srcVal (sty v : Nat) : Num := elemValue sty v

/-- The pair and PART are in the table of R152. -/
def cvtOk (sty ty part : Nat) : Bool :=
  match sty with
  | 15 => (ty == 11 || ty == 12) && part ≤ 1
  | 11 | 12 => ty == 15 && part ≤ 1
  | 13 | 14 => ty == 15 || ty == 11 || ty == 12
  | _ => false

/-- D of a conversion: 128 lanes converted, the other lanes of D unchanged (R152). -/
def cvt (sty ty part : Nat) (a d : BitVec 4096) : BitVec 4096 :=
  let sw := elemBits sty
  let w := elemBits ty
  let f := (laneFmt ty).getD .f32
  let src := if sty == 15 then 0 else 128 * part
  let dst := if sty == 15 then 128 * part else 0
  let new := (List.range 128).map fun i => f.encode (srcVal sty (laneAt sw a (src + i)))
  ofLanes w ((List.range (4096 / w)).map fun i => if dst ≤ i && i < dst + 128 then new.getD (i - dst) 0 else laneAt w d i)

/-! ### The VR format -/

/-- TYPE, STYPE, PART and LANE are ones that the operation allows (R148, R152). -/
def vrTypes (f : VrOp) (x : VrArgs) : Bool :=
  match f with
  | .vrsum | .vrmax | .vrmaxi => x.ty == 15
  | .vcvt => cvtOk x.sty.toNat x.ty.toNat x.part.toNat
  | .vbcast => match laneFmt x.ty.toNat with | some g => decide (x.lane.toNat < g.lanes) | none => false
  | _ => (laneFmt x.ty.toNat).isSome

/-- D of a VR operation with these sources and this old D. -/
def vrVal (f : VrOp) (x : VrArgs) (a b c d : BitVec 4096) : BitVec 4096 :=
  let g := (laneFmt x.ty.toNat).getD .f32
  let va := laneVals g a
  match f with
  | .vcvt => cvt x.sty.toNat x.ty.toNat x.part.toNat a d
  | .vbcast => ofVals g (List.replicate g.lanes (va.getD x.lane.toNat .nan))
  | .viota => ofVals g ((List.range g.lanes).map fun (i : Nat) => .ofInt i 0)
  | .vrsum => ofVals g (List.replicate 128 (reduce (fun p q => g.ieee (g.encode (p.add q))) va))
  | .vrmax => ofVals g (List.replicate 128 (reduce Num.max va))
  | .vrmaxi => let (v, i) := maxIndex va; ofLanes 32 [g.encode v, i]
  | _ =>
    let vb := laneVals g b
    let vc := laneVals g c
    ofLanes g.bits ((List.range g.lanes).map fun i => laneOp g f (va.getD i .nan) (vb.getD i .nan) (vc.getD i .nan))

/-- The sources of a VR operation (R148). -/
def vrRegs (f : VrOp) (x : VrArgs) : List VReg := [x.a, x.b, x.c].take (vrSources f)

/-! ### Quantise (R153) -/

/-- A format that VQ writes (R153). -/
def vqFmt (f : Nat) : Bool := isMx f || f == 9 || f == 10 || f == 13 || f == 14

/-- Element bytes of half a record. -/
def halfBytes (f : Nat) : Nat := 16 * elemBits f

/-- Where the bytes that hold half `h` of a record end (R153, R155). -/
def halfEnd (f h : Nat) : Nat :=
  if isMx f then recordLen f - 4 + 4 * h
  else if f == 7 then 134 + 2 * h
  else if f == 8 then 66 + 2 * h
  else halfBytes f * (h + 1)

/-- The conversions of 128 values to a format: scale bytes and elements. -/
def quantise (f : Nat) (given : Option Nat) (m : Num) (l : List Num) : List Nat × List Conv :=
  if isMx f then
    let bs := (List.range 4).map fun i => mxBlock f given ((l.drop (32 * i)).take 32)
    (bs.map (·.1), bs.flatMap (·.2))
  else if f == 9 || f == 10 then ([], l.map fun x => narrowInt (elemBits f) (x.mul m))
  else ([], l.map (narrowFloat f))

/-- The writes of half `h` of a record at `addr`. -/
def halfWrites (f h addr : Nat) (r : List Nat × List Conv) : List (Nat × Bytes) :=
  (addr + halfBytes f * h, packCodes (elemBits f) (r.2.map (·.code))) ::
    (if isMx f then [(addr + recordLen f - 8 + 4 * h, r.1.map (BitVec.ofNat 8))] else [])

/-- Lane 0 of MV as a multiplier (R153). -/
def vqScale (mv : BitVec 4096) : Num := f32 (BitVec.ofNat 32 (laneAt 32 mv 0))

/-- The form of a VQ is one that R153 allows. -/
def vqFormOk (q : VqOp) (mv : BitVec 4096) : Bool :=
  let f := q.fmt.toNat
  vqFmt f && (!q.shadow || f == 1) && (!q.xscale || (isMx f && laneAt 8 mv 0 != 255)) &&
    (!(f == 9 || f == 10) || ((vqScale mv).isFin && !(vqScale mv).isZero))

/-- VQ reads MV: a supplied scale or a multiplier. -/
def vqReadsMv (q : VqOp) : Bool := q.xscale || q.fmt == 9 || q.fmt == 10

/-- An opening form (R154). -/
def vqOpens (q : VqOp) : Bool := q.mode.getLsbD 0
/-- A closing form. -/
def vqCloses (q : VqOp) : Bool := q.mode.getLsbD 1

/-! ### Tags and the close of a block (R83-R87) -/

/-- A tag's fields (R84). -/
structure TagWord where
  step : Nat := 0
  closed : Bool := false
  nonfinite : Bool := false
  unrecovered : Bool := false
  detour : Bool := false
  overT : Bool := false
  eligible : Bool := false
  flush : Nat := 0
  sat : Nat := 0
deriving DecidableEq, Repr

/-- A tag from its word. -/
def TagWord.ofNat (v : Nat) : TagWord :=
  ⟨bitsOf v 32 16, bitOf v 31, bitOf v 30, bitOf v 29, bitOf v 28, bitOf v 27, bitOf v 26, bitsOf v 13 13, bitsOf v 0 13⟩

/-- The word of a tag. -/
def TagWord.toNat (t : TagWord) : Nat :=
  fld t.step 32 16 + fld (b2n t.closed) 31 1 + fld (b2n t.nonfinite) 30 1 + fld (b2n t.unrecovered) 29 1 +
    fld (b2n t.detour) 28 1 + fld (b2n t.overT) 27 1 + fld (b2n t.eligible) 26 1 + fld t.flush 13 13 + fld t.sat 0 13

/-- The decision at the close of a block: limits, eligibility and the station's quota (R87). -/
def TagWord.close (t : TagWord) (p : Policy) (step : Nat) (quota : Option Nat) : TagWord :=
  let ovr := decide (p.satLimit < t.sat) || decide (p.flushLimit < t.flush)
  let det := ovr && t.eligible && quota != some 0
  { t with step := step % 65536, closed := true, overT := ovr, detour := det, unrecovered := ovr && t.eligible && !det }

/-- The step's counts with a closed block (R91). -/
def StepSum.add (m : StepSum) (t : TagWord) : StepSum :=
  { m with
    closed := m.closed + 1, overT := m.overT + b2n t.overT, detoured := m.detoured + b2n t.detour
    unrecovered := m.unrecovered + b2n t.unrecovered, ineligible := m.ineligible + b2n (t.overT && !t.eligible)
    nonfinite := m.nonfinite + b2n t.nonfinite, satTotal := m.satTotal + t.sat, flushTotal := m.flushTotal + t.flush
    maxSat := max m.maxSat t.sat, maxFlush := max m.maxFlush t.flush }

/-- The step's detours first exceed ALLOW: a storm (R90). -/
def State.checkStorm (s : State) (c : Nat) : State :=
  let k := s.ctx c
  if k.sum.storm || k.sum.detoured ≤ k.policy.allow then s
  else
    let s := s.modCtx c fun k => { k with sum := { k.sum with storm := true } }
    let s := { s with tally := { s.tally with storms := s.tally.storms + 1 } }.gateEvent 0x0A 1
    if k.policy.stormEvent then
      s.postEvent 0x8004 k.handle (toBe 2 k.handle.toNat ++ toBe 2 k.policy.allow ++ toBe 4 k.sum.detoured ++ toBe 8 k.step)
    else s

/-! ### Faults at issue (R145) -/

/-- The accumulator segment of VRDACC and VWRACC (R151). -/
def Site.segment (x : Site) (seg : BitVec 6) (sr : Reg) : Nat := seg.toNat + (x.a.sreg sr).toNat

/-- The faults of a VQ (R83, R153, R154). One that names a tag whose pending-write mark is still set raises none: R85 orders the
tag's readers, and neither R99 nor R148 gives VQ a fault for it (DESIGN CHOICE, log entry 46). -/
def Site.vqFaults (x : Site) (q : VqOp) : List Nat :=
  let a := x.a
  let f := q.fmt.toNat
  let dr := (a.sreg q.dr).toNat
  let tr := (a.sreg q.tr).toNat
  let hr := (a.sreg q.hr).toNat
  let h := b2n q.half
  let blk := a.openBlocks.find? fun o => o.tag == tr
  a.rdV q.a ++ a.rdS q.dr ++ a.rdS q.tr ++ (if q.shadow then a.rdS q.hr else []) ++
    (if vqReadsMv q then a.rdV q.mv else []) ++ faultIf (!vqFormOk q (a.vreg q.mv)) 0x36 ++
    (if vqFmt f then saddleRange dr (halfEnd f h) else []) ++ (if q.shadow then saddleRange hr (halfEnd 4 h) else []) ++
    saddleRange tr 8 ++ aligned dr 8 ++ aligned tr 8 ++ (if q.shadow then aligned hr 8 else []) ++
    faultIf (if vqOpens q then blk.isSome || 16 ≤ a.openBlocks.length
      else match blk with
        | none => true
        | some o => o.eligible != q.shadow || 4096 < o.count + 128) 0x31

/-- A format that VDQ reads (R155). -/
def vdqFmt (f : Nat) : Bool := 1 ≤ f && f ≤ 10 || f == 13 || f == 14

/-- What the V slot finds at issue. -/
def Site.vFaults (x : Site) (op : VOp) : List Nat :=
  let a := x.a
  match op with
  | .nop => []
  | .vr f y => (vrRegs f y).flatMap a.rdV ++ a.wrV y.d ++ faultIf (!vrTypes f y) 0x38
  | .vrdacc v acc seg sr => a.rdS sr ++ a.rdA acc ++ a.wrV v ++ faultIf (64 ≤ x.segment seg sr) 0x37
  | .vwracc v acc seg sr => a.rdS sr ++ a.rdV v ++ a.wrA acc ++ faultIf (64 ≤ x.segment seg sr) 0x37
  | .vq q => x.vqFaults q
  | .vdq d ar fmt half =>
    let addr := (a.sreg ar).toNat
    a.rdS ar ++ a.wrV d ++ faultIf (!vdqFmt fmt.toNat) 0x36 ++
      (if vdqFmt fmt.toNat then saddleRange addr (halfEnd fmt.toNat (b2n half)) else []) ++ aligned addr 8

/-! ### Effects -/

/-- The values of half a record (R155). -/
def halfVals (f h : Nat) (rec_ : Bytes) : List Num := (List.range 128).map fun i => recordElem f rec_ (128 * h + i)

/-- What VQ writes: elements, shadow and tag, the open-block table, and at a close the decision and the step's counts (R83,
R87, R153, R154). -/
def Site.vq (x : Site) (q : VqOp) (s : State) : State :=
  let a := x.a
  let f := q.fmt.toNat
  let h := b2n q.half
  let tr := (a.sreg q.tr).toNat
  let vals := laneVals .f32 (a.vreg q.a)
  let mv := a.vreg q.mv
  let r := quantise f (if q.xscale then some (laneAt 8 mv 0) else none) (vqScale mv) vals
  let sh := if q.shadow then halfWrites 4 h (a.sreg q.hr).toNat (quantise 4 none .zero vals) else []
  let old : TagWord := if vqOpens q then { eligible := q.shadow } else .ofNat (leNat (rdBytes a.saddle tr 8))
  let n := (if vqOpens q then 0 else match a.openBlocks.find? fun o => o.tag == tr with | some o => o.count | none => 0) + 128
  let sum : TagWord := { old with
    nonfinite := old.nonfinite || vals.any fun v => !v.isFin
    sat := old.sat + (r.2.filter (·.sat)).length, flush := old.flush + (r.2.filter (·.flush)).length }
  let closes := vqCloses q || n == 4096
  let t := if closes then sum.close x.k.policy x.k.step a.quota else sum
  let rest := a.openBlocks.filter fun o => o.tag != tr
  let ws : List (Nat × Bytes) := halfWrites f h (a.sreg q.dr).toNat r ++ sh ++ [(tr, toLe 8 t.toNat)]
  let s := s.modArch x.st fun b =>
    let b := ws.foldl (fun b w => b.store w.1 w.2) (b.over tr ws)
    { b.mark (.tag tr) with
      openBlocks := if closes then rest else rest ++ [⟨tr, n, q.shadow⟩]
      quota := if closes && t.detour then b.quota.map (· - 1) else b.quota }
  if closes then (s.modCtx x.c fun k => { k with sum := k.sum.add t }).checkStorm x.c else s

/-- What the V slot does. -/
def Site.vEffect (x : Site) (op : VOp) (s : State) : State :=
  let a := x.a
  match op with
  | .nop => s
  | .vr f y => s.modArch x.st fun b => b.setV y.d (vrVal f y (a.vreg y.a) (a.vreg y.b) (a.vreg y.c) (a.vreg y.d))
  | .vrdacc v acc seg sr =>
    let lo := 128 * x.segment seg sr
    s.modArch x.st fun b => b.setV v (ofLanes 32 ((List.range 128).map fun i => (a.accAt acc (lo + i)).toNat))
  | .vwracc v acc seg sr =>
    let lo := 128 * x.segment seg sr
    s.modArch x.st fun b => ({ b with
      accs := (List.range 128).foldl (fun m i =>
        mset 0 m (8192 * acc.toNat + lo + i) (BitVec.ofNat 32 (laneAt 32 (a.vreg v) i))) b.accs } : Arch).mark (.acc acc)
  | .vq q => x.vq q s
  | .vdq d ar fmt half =>
    let f := fmt.toNat
    s.modArch x.st fun b => b.setV d (ofVals .f32 (halfVals f (b2n half) (rdBytes a.saddle (a.sreg ar).toNat (recordLen f))))

/-- The part of the vector unit that an operation runs in (R148): 0 none, 1 pipe, 2 special functions, 3 reduction. -/
def vPart : VOp → Nat
  | .nop => 0
  | .vr f _ =>
    match f with
    | .vexp | .vlog | .vrsqrt | .vtanh | .vrcp => 2
    | .vrsum | .vrmax | .vrmaxi => 3
    | _ => 1
  | _ => 1

end Sys2Proof.Machine
end

