-- ==== Sys2Proof/Machine/SlotM.lean ====
section
/-!
DEFINITION. The weave (05_weave_and_vector.md R133-R145, 03_number_formats.md R65, R78-R88): shapes and rates, the operands of
a WV, what the station finds at issue, and the values that its chunks leave in the accumulators.
-/

namespace Sys2Proof.Machine

/-! ### Shapes and rates (R65, R133, R134) -/

/-- Rows and columns of a shape; nothing for a reserved one. -/
def wvDims : Nat → Option (Nat × Nat)
  | 0 => some (64, 128)
  | 1 => some (32, 256)
  | 2 => some (16, 512)
  | 3 => some (8, 1024)
  | 4 => some (64, 256)
  | _ => none

/-- An MXFP6, MXFP8 or MXINT8 format. -/
def isMx68 (f : Nat) : Bool := 2 ≤ f && f ≤ 6

/-- Cycles that a chunk costs for a weight and an activation format; nothing for a pair outside R65. -/
def chunkCost (w a : Nat) : Option Nat :=
  if w == 8 && (a == 1 || a == 9) then some 128
  else if (w == 7 || w == 1) && a == 1 then some 256
  else if w == 9 && a == 9 then some 256
  else if (w == 8 || w == 7 || isMx w) && isMx68 a then some 512
  else if isMx68 w && a == 1 then some 512
  else if w == 10 && (a == 10 || a == 9) then some 512
  else if w == 9 && a == 10 then some 512
  else if w == 11 && a == 11 || w == 12 && a == 12 then some 2048
  else none

/-- The weight format has a detour path (R88). -/
def detourPath (w : Nat) : Bool := w == 7 || w == 1

/-! ### The operands of a WV (R135-R137) -/

/-- Registers of the activation group. -/
def wvACount (o : WvOp) : Nat := if o.tags then 4 else 2
/-- Registers of the weight group. -/
def wvWCount (o : WvOp) : Nat := if o.tags && o.wfmt == 7 then 3 else 2

/-- The registers of a group. -/
def regGroup (r : Reg) (n : Nat) : List Reg := ((List.range n).filter fun i => r.toNat + i < 32).map fun i => r + BitVec.ofNat 5 i

/-- The operand groups lie within s31 (R145). -/
def wvGroupsFit (o : WvOp) : Bool := o.ar.toNat + (wvACount o) ≤ 32 && o.wr.toNat + (wvWCount o) ≤ 32

/-- The chunk count as the instruction or its register gives it. -/
def wvChunks (o : WvOp) (a : Arch) : Nat := if o.kch == 0 then (a.sreg o.kr).toNat else o.kch.toNat

/-- Deep: two tiles of 64 x 128. -/
def wvDeep (o : WvOp) : Bool := o.shape == 4

/-- The accumulators that a WV writes (R133). -/
def wvAccs (o : WvOp) : List (BitVec 2) := if (wvDeep o) then [o.acc, o.acc + 1] else [o.acc]

/-- The operands of a WV once its registers are read. -/
structure WvArgs where
  rows : Nat
  cols : Nat
  chunks : Nat
  aFmt : Nat
  wFmt : Nat
  aBase : Nat
  aStride : Nat
  shStride : Nat
  shBase : Nat
  tagBase : Nat
  tagStride : Nat
  tagShift : Nat
  wBase : Nat
  wStride : Nat
  rowRecords : Nat
  tensor : Nat
  record0 : Nat

/-- The operands that the register values give (R136, R137). -/
def wvArgs (o : WvOp) (chunks : Nat) (ar wr : List Word) : WvArgs :=
  let a (i : Nat) : Nat := (ar.getD i 0).toNat
  let w (i : Nat) : Nat := (wr.getD i 0).toNat
  let (r, c) := (wvDims o.shape.toNat).getD (0, 0)
  { rows := r, cols := c, chunks := chunks, aFmt := o.afmt.toNat, wFmt := o.wfmt.toNat
    aBase := a 0, aStride := bitsOf (a 1) 0 20, shStride := bitsOf (a 1) 20 20, shBase := a 3
    tagBase := bitsOf (a 2) 0 18, tagStride := bitsOf (a 2) 18 10, tagShift := bitsOf (a 2) 28 3
    wBase := w 0, wStride := bitsOf (w 1) 0 20, rowRecords := bitsOf (w 1) 20 12
    tensor := bitsOf (w 2) 32 32, record0 := bitsOf (w 2) 0 32 }

/-- Tags of one row. -/
def WvArgs.groups (g : WvArgs) : Nat := (g.chunks - 1) / 2 ^ g.tagShift + 1
/-- Address of tag `q` of row `r`. -/
def WvArgs.tagAddr (g : WvArgs) (r q : Nat) : Nat := g.tagBase + 8 * (r * g.tagStride + q)
/-- Every row and tag of the instruction. -/
def WvArgs.tagList (g : WvArgs) : List (Nat × Nat) :=
  (List.range g.rows).flatMap fun r => (List.range g.groups).map fun q => (r, q)

/-- Rows or columns of an operand: where the first begins, the bytes between them, how many there are, the bytes of each. -/
structure Lines where
  base : Nat
  stride : Nat
  count : Nat
  len : Nat

/-- The activation rows (R136). -/
def WvArgs.aLines (g : WvArgs) : Lines := ⟨g.aBase, g.aStride, g.rows, g.chunks * recordLen g.aFmt⟩
/-- The shadow rows (R136). -/
def WvArgs.shLines (g : WvArgs) : Lines := ⟨g.shBase, g.shStride, g.rows, g.chunks * 264⟩
/-- The weight columns (R137). -/
def WvArgs.wLines (g : WvArgs) : Lines := ⟨g.wBase, g.wStride, g.cols, g.chunks * recordLen g.wFmt⟩
/-- Bytes from the first to the last. -/
def Lines.span (l : Lines) : Nat := (l.count - 1) * l.stride + l.len
/-- Where each begins. -/
def Lines.starts (l : Lines) : List Nat := (List.range l.count).map fun r => l.base + r * l.stride

/-! ### Faults at issue (R138, R143, R145) -/

/-- Some byte of the line at `addr` lies outside the station's own slice. -/
def Site.elsewhere (x : Site) (addr n : Nat) : Bool :=
  (granules addr n).any fun i => x.k.itin.stationOf (max addr (4096 * i)) != some x.rel

/-- The faults of an operand from the saddlebag or the own slice (R138, R174). Bytes between two lines, which the weave does not
read, may lie in another slice (DEDUCED, log entry 46). -/
def Site.span (x : Site) (slice : Bool) (l : Lines) : List Nat :=
  if !slice then saddleRange l.base l.span
  else
    match x.k.stationFault false l.base l.span with
    | some f => [f]
    | none => faultIf (l.starts.any fun a => x.elsewhere a l.len) 0x34

/-- The word of a tag. -/
def Site.tagWord (x : Site) (addr : Nat) : TagWord := .ofNat (leNat (rdBytes x.a.saddle addr 8))

/-- The fault of one tag (R143). -/
def Site.tagFault (x : Site) (wfmt addr : Nat) : List Nat :=
  if x.a.pending (.tag addr) then [0x10]
  else
    let t := x.tagWord addr
    if !t.closed then [0x32] else faultIf (t.detour && !detourPath wfmt) 0x35

/-- The instruction's tags that lie in the saddlebag, by address. -/
def WvArgs.tagsInside (g : WvArgs) : List Nat :=
  (List.range g.rows).flatMap fun r =>
    ((List.range (min g.groups (saddleSize / 8))).map (g.tagAddr r)).filter fun a => a + 8 ≤ saddleSize

/-- The faults of the tags (R138, R143): each lies in the saddlebag, none is pending, open or without a detour path. -/
def Site.tagFaults (x : Site) (g : WvArgs) : List Nat :=
  faultIf (saddleSize < g.tagAddr (g.rows - 1) (g.groups - 1) + 8) 0x12 ++ g.tagsInside.flatMap (x.tagFault g.wFmt)

/-- What the M slot finds at issue (R138, R143, R145). KR is read only where it gives the count, KCH being 0 (DEDUCED from R135,
log entry 46). A check whose operands the instruction's form leaves without a meaning is not made: the ranges of a reserved
shape, of no chunk, or of a group beyond s31, and the tags of a reserved TAG_SHIFT. SHADOW_STRIDE is checked with the shadow range,
which TAGS 0 leaves unused (DESIGN CHOICE, log entry 49: the alignment bullet of R138 says every stride). -/
def Site.wvFaults (x : Site) (o : WvOp) : List Nat :=
  let a := x.a
  let ar := regGroup o.ar (wvACount o)
  let wr := regGroup o.wr (wvWCount o)
  let n := wvChunks o a
  let av := ar.map a.sreg
  let wv := wr.map a.sreg
  let g := wvArgs o n av wv
  let hi (l : List Word) (i b : Nat) : Bool := (l.getD i 0).toNat / 2 ^ b != 0
  let count := n == 0 || 4095 < n
  let form := (wvDims o.shape.toNat).isNone || !(wvGroupsFit o) || count || ((wvDeep o) && (o.acc.getLsbD 0 || n % 2 == 1)) ||
    (o.tags && 4 < g.tagShift) || hi av 1 40 || (o.tags && hi av 2 31) || hi wv 1 32
  (ar ++ wr).flatMap a.rdS ++ (if o.kch == 0 then a.rdS o.kr else []) ++
    ((wvAccs o).flatMap fun k => (if o.start then [] else a.rdA k) ++ a.wrA k) ++ faultIf form 0x33 ++
    faultIf (chunkCost g.wFmt g.aFmt).isNone 0x30 ++
    faultIf (([g.aBase, g.aStride, g.wBase, g.wStride] ++ (if o.tags then [g.shStride, g.shBase, g.tagBase] else [])).any
      (· % 8 != 0)) 0x13 ++
    (if (wvDims o.shape.toNat).isNone || n == 0 then []
     else
      (if o.ar.toNat + wvACount o ≤ 32 then
        x.span o.asrc g.aLines ++
          (if o.tags then x.span o.asrc g.shLines ++ (if 4 < g.tagShift then [] else x.tagFaults g) else [])
       else []) ++
      (if o.wr.toNat + wvWCount o ≤ 32 then x.span o.wsrc g.wLines else [])) ++
    faultIf (o.tags && g.wFmt == 7 && o.wr.toNat + wvWCount o ≤ 32 &&
      (match x.k.itin.tensor g.tensor with | some t => t.format != 7 | none => true)) 0x35

/-! ### The job (R140-R144) -/

/-- The tag of row `r`, chunk `c`, has DETOUR set. -/
def WvJob.detours (j : WvJob) (g : WvArgs) (r c : Nat) : Bool :=
  match j.tags.find? fun t => t.1 == r && t.2.1 == c / 2 ^ g.tagShift with
  | some t => (TagWord.ofNat t.2.2.toNat).detour
  | none => false

/-- The operands of a job. -/
def WvJob.args (j : WvJob) : WvArgs := wvArgs j.op j.chunks j.aRegs j.wRegs

/-- Some row of chunk `c` detours (R143). -/
def WvJob.chunkDetours (j : WvJob) (c : Nat) : Bool := (List.range j.args.rows).any fun r => j.detours j.args r c

/-- The tensor whose top-ups a detoured chunk of the job needs: a KF4 tensor with a top-up plane (R88, R144). -/
def WvJob.plane (j : WvJob) (k : Ctx) : Option Tensor :=
  if j.op.tags && j.op.wfmt == 7 then (k.itin.tensor j.args.tensor).filter (·.hasTopup) else none

/-- The lines' bytes: first byte and length of each. -/
def Lines.ranges (l : Lines) : List (Nat × Nat) := l.starts.map fun a => (a, l.len)

/-- The job that a WV becomes at its accept. -/
def Site.job (x : Site) (o : WvOp) : WvJob :=
  let n := wvChunks o x.a
  let ar := (regGroup o.ar (wvACount o)).map x.a.sreg
  let wr := (regGroup o.wr (wvWCount o)).map x.a.sreg
  let g := wvArgs o n ar wr
  let j : WvJob :=
    { op := o, chunks := n, aRegs := ar, wRegs := wr, saddle := x.a.saddle, store := x.k.store, bundle := x.idx
      sinceSaddle := x.a.writes.length, sinceStore := x.k.writes.length
      tags := if o.tags then g.tagList.map fun (r, q) =>
        (r, q, BitVec.ofNat 64 (leNat (rdBytes x.a.saddle (g.tagAddr r q) 8))) else []
      topupNeed := [], topups := x.a.topups.toList, started := false
      own := (if o.asrc then g.aLines.ranges ++ (if o.tags then g.shLines.ranges else []) else []) ++
        (if o.wsrc then g.wLines.ranges else []) }
  if (j.plane x.k).isSome then { j with topupNeed := (List.range n).filter j.chunkDetours } else { j with topups := [] }

/-- The weave can take the WV: none waits to start, and the first detoured chunk's top-ups have arrived (R141, R144). -/
def Site.wvAccepts (x : Site) (o : WvOp) : Bool :=
  x.a.weaveWait.isNone && ((x.wvFaults o != []) || (x.job o).topupNeed.isEmpty || x.a.topups.isSome)

/-- The weave takes a job: an idle weave fills it at once, a busy one holds it to start (R141, R142). -/
def Arch.accept (a : Arch) (j : WvJob) : Arch :=
  let a := (wvAccs j.op).foldl (fun a k => a.mark (.acc k)) { a with topups := none }
  let a := if j.op.ten then { a with producers := mset .unattributed a.producers j.op.t.toNat .weave } else a
  if a.weaveRun.isEmpty then { a with weaveRun := [j] } else { a with weaveWait := some j }

/-- Some byte of the lines lies in one of the ranges. -/
def Lines.meets (l : Lines) (rs : List (Nat × Nat)) : Bool :=
  !rs.isEmpty && l.starts.any fun a => rs.any fun (lo, n) => a < lo + n && lo < a + l.len

/-- A WV reads bytes of a substituted tensor, in the own slice where the caravan engine put them or in the saddlebag where a
transfer took them (R91, R128). -/
def Site.readsWide (x : Site) (o : WvOp) : Bool :=
  let g := wvArgs o (wvChunks o x.a) ((regGroup o.ar (wvACount o)).map x.a.sreg) ((regGroup o.wr (wvWCount o)).map x.a.sreg)
  let held (own : Bool) : List (Nat × Nat) := if own then x.k.wide else x.a.wide
  g.wLines.meets (held o.wsrc) || g.aLines.meets (held o.asrc)

/-- What the M slot finds at issue. -/
def Site.mFaults (x : Site) (op : MOp) : List Nat :=
  match op with
  | .nop => []
  | .wv o => x.wvFaults o

/-- The M slot hands its WV to the weave. -/
def Site.mEffect (x : Site) (op : MOp) (s : State) : State :=
  match op with
  | .nop => s
  | .wv o =>
    let s := s.modArch x.st fun a => a.accept (x.job o)
    if x.readsWide o then s.modCtx x.c fun k => { k with sum := { k.sum with wideRef := true } } else s

/-! ### What the weave computes (R46, R79, R140, R143) -/

/-- Memory as a chunk record is read from it: where a byte has been written since the accept, any value it has held (R46,
R138). -/
def raceAt (old : Mem) (ws : List (Nat × Bytes)) (new : Mem) (whole : Nat → Bool) (d a : Nat) : Byte :=
  raceByte d (raceKey whole a) (rdByte old a) (written ws a ++ [rdByte new a])

/-- The values of `n` bytes of a record of format `f`. -/
def recordVals (f : Nat) (bs : Bytes) : List Num := (List.range 256).map (recordElem f bs)

/-- The activations of row `r`, chunk `c`: the record, or on the detour path the shadow (R143). -/
def WvJob.rowVals (j : WvJob) (read : Bool → Nat → Nat → Bytes) (r c : Nat) : List Num :=
  let g := j.args
  if j.detours g r c then recordVals 4 (read j.op.asrc (g.shBase + r * g.shStride + c * 264) 264)
  else recordVals g.aFmt (read j.op.asrc (g.aBase + r * g.aStride + c * recordLen g.aFmt) (recordLen g.aFmt))

/-- The weights of column `q`, chunk `c`, topped up where a row's detour asks for it (R73, R88): with the `q`-th record of the
chunk's top-ups. Where COL_STRIDE is 0, columns that read the same weights take the top-up records that R144 gives each of
them, so their detoured values may differ (DEDUCED, log entry 46). -/
def WvJob.colVals (j : WvJob) (read : Bool → Nat → Nat → Bytes) (top : Bool) (q c : Nat) : List Num :=
  let g := j.args
  let bs := read j.op.wsrc (g.wBase + q * g.wStride + c * recordLen g.wFmt) (recordLen g.wFmt)
  if top && j.topupNeed.contains c then
    (List.range 256).map (toppedUp bs ((j.topups.getD (j.topupNeed.findIdx (· == c)) []).getD q []))
  else recordVals g.wFmt bs

/-- One output: its chunks in increasing K order (R79, R140). `row` and `col` are the values of row `r` and column `q` chunk by
chunk; `up` those of the column with its top-ups. -/
def WvJob.output (j : WvJob) (row col up : List (List Num)) (acc : BitVec 32) (r : Nat) : BitVec 32 :=
  (List.range j.chunks).foldl (fun v c =>
    dotChunk v (row.getD c []) ((if j.detours j.args r c then up else col).getD c [])) acc

/-- Where output (r, q) lies: the key of its accumulator element (R133). -/
def WvJob.element (j : WvJob) (r q : Nat) : Nat :=
  if (wvDeep j.op) then 8192 * (j.op.acc.toNat + q / 128) + r * 128 + q % 128
  else 8192 * j.op.acc.toNat + r * j.args.cols + q

/-- The accumulators after the job. -/
def WvJob.results (j : WvJob) (read : Bool → Nat → Nat → Bytes) (accs : Sparse (BitVec 32)) : Sparse (BitVec 32) :=
  let cs := List.range j.chunks
  let col (t : Bool) : List (List (List Num)) := (List.range j.args.cols).map fun q => cs.map fun c => j.colVals read t q c
  let cols := col false
  let ups := if j.topupNeed.isEmpty then cols else col true
  (List.range j.args.rows).foldl (fun m r =>
    let row := cs.map fun c => j.rowVals read r c
    ((cols.zip ups).zipIdx).foldl (fun m ((x, y), q) =>
      let e := j.element r q
      mset 0 m e (j.output row x y (if j.op.start then 0 else mget 0 accs e) r)) m) accs

/-- Cycles in which the weave runs the job's chunks (R134, R143). -/
def WvJob.cycles (j : WvJob) : Nat :=
  let p := (chunkCost j.op.wfmt.toNat j.op.afmt.toNat).getD 0
  let n := ((List.range j.chunks).map fun c => if j.chunkDetours c then 512 else p).sum
  if (wvDeep j.op) then 2 * n else n

/-- Bytes that the job reads from the own slice (R134, R157): activations row by row, 264 bytes a row in a detoured chunk, and
weights column by column. -/
def WvJob.sliceBytes (j : WvJob) : Nat :=
  let g := j.args
  (if j.op.asrc then ((List.range j.chunks).map fun c => g.rows * (if j.chunkDetours c then 264 else recordLen g.aFmt)).sum
   else 0) +
    (if j.op.wsrc then g.cols * j.chunks * recordLen g.wFmt else 0)

end Sys2Proof.Machine
end

