-- ==== Sys2Proof/Machine/Walker.lean ====
section
/-!
DEFINITION. The page walkers and the prefix ledger at work (08_kv_pages.md R217-R241): the operations of a walk request, the
completion of a seal and the arrival of a staged page.
-/

namespace Sys2Proof.Machine

/-! ### Lengths entries, items and destinations -/

/-- A lengths entry (R217) with its index. -/
structure Len where
  index : Nat
  seq : Nat
  cur : Nat
  new : Nat
  flags : Nat
deriving DecidableEq, Repr

/-- Entry `i` of a lengths table. -/
def Ctx.len (k : Ctx) (table i : Nat) : Len :=
  let b := rdBytes k.store (table + 16 * i) 16
  ⟨i, leAt b 0 4, leAt b 4 4, leAt b 8 4, leAt b 12 4⟩

/-- The walker that serves sequence `q` of partition `p` (R230). -/
def State.walkerOf (s : State) (p q : Nat) : Nat :=
  let e := s.eighths
  p * e / 2 + q % max 1 (e / 2)

/-- Change a walker's counters. -/
def State.modWalker (s : State) (w : Nat) (f : Walker → Walker) : State :=
  { s with kvw := { s.kvw with walkers := mmod {} s.kvw.walkers w f } }

/-- The walker reads a block-table entry through its look-aside buffer: a miss reads a 64-byte line (R230, R231). READ, APPEND and
COMMIT read so; FORK, RELEASE and the ledger's offer read entries past the buffer and count nothing in it (DESIGN CHOICE, log
entry 49). -/
def State.lookAside (s : State) (c q addr : Nat) : State :=
  let p := partOfCtx c
  let w := s.walkerOf p q
  let room := if s.sched.count == 8 then 128 else 256
  let key := (c, addr / 64)
  let l := mget [] s.kvw.lab (8 * w + p)
  let hit := l.contains key
  let s := { s with kvw := { s.kvw with lab := mset [] s.kvw.lab (8 * w + p) ((key :: l.erase key).take room) } }
  if hit then s.modWalker w fun x => { x with hits := satAdd 32 x.hits 1 }
  else (s.modWalker w fun x => { x with misses := satAdd 32 x.misses 1 }).storeTraffic c 2 (addr / 64 * 64) 64

/-- A work item before its address (R221): destination, sequence, block, first and count of slots, lengths entry, and the
page: an open frame's address or a sealed page's number. -/
structure Item where
  dest : Nat
  seq : Nat
  block : Nat
  first : Nat
  count : Nat
  entry : Nat
  page : Nat ⊕ Nat
deriving DecidableEq, Repr

/-- The destination of the `i`-th of `n` blocks of entry `k` (R220). -/
def itemDest (r : WalkReq) (k i n : Nat) : Nat :=
  if r.mode == 0 then k % r.groupCount
  else
    let runs := ceilDiv n 16
    ((List.range r.groupCount).find? fun j =>
      j * runs / r.groupCount ≤ i / 16 && i / 16 < (j + 1) * runs / r.groupCount).getD 0

/-- A walk request's outcome so far: the state, the items, and a fault. -/
structure Walk where
  s : State
  items : List Item := []
  fault : Option Nat := none

/-- Go through lengths entries until one faults (R225); skipped entries produce nothing (R217). -/
def walkLens (f : Walk → Len → Walk) : List Len → Walk → Walk
  | [], w => w
  | e :: rest, w =>
    if w.fault.isSome then w
    else if 1 < e.flags then { w with fault := some 0x48 }
    else if e.flags == 1 then walkLens f rest w
    else walkLens f rest (f w e)

/-- Go through blocks until one faults. -/
def walkBlocks (f : Walk → Nat → Nat → Walk) : List Nat → Nat → Walk → Walk
  | [], _, w => w
  | b :: rest, i, w => if w.fault.isSome then w else walkBlocks f rest (i + 1) (f w i b)

/-- The lengths entries of a request, or its fault: the shape slot's word, and a table outside a working region (R225). -/
def Ctx.lens (k : Ctx) (r : WalkReq) : Except Nat (List Len) :=
  match k.shape r.lenSlot with
  | .error e => .error e
  | .ok n =>
    match k.region r.lenTable (16 * n) with
    | some g => if g.kind == 3 then .ok ((List.range n).map (k.len r.lenTable)) else .error 0x48
    | none => if n == 0 then .ok [] else .error 0x48

/-- The walker has read `n` lengths entries (R168, R217). -/
def State.lensTraffic (s : State) (c : Nat) (r : WalkReq) (n : Nat) : State := s.storeTraffic c 2 r.lenTable (16 * n)

/-- A request raises a program fault after issue (R225): the walker events, and the fault at the issuing station. -/
def State.walkFault (s : State) (c : Nat) (r : WalkReq) (code : Nat) : State :=
  let s := s.kwEvent 0
  let s := if code == 0x4B then s.kwEvent 1 else s
  s.lateFault c r.station r.bundle 3 code

/-- The request completes: DONE_TOKEN rises at the issuing station (R219, R222). -/
def State.walkDone (s : State) (c : Nat) (r : WalkReq) : State :=
  let s := s.modCtx c fun k => { k with walk := { k.walk with reqs := k.walk.reqs.drop 1 } }
  s.incToken c r.station r.doneToken 1 .walker false none

/-- Run the oldest request of context `c` when it has this operation, the context runs and it declares KVCONF. -/
def State.walk (s : State) (c op : Nat) (f : KvConf → WalkReq → State) : State :=
  let k := s.ctx c
  match k.walk.reqs, k.itin.kv with
  | r :: _, some v => if r.op == op && k.state == .running && c < 128 then f v r else s
  | _, _ => s

/-- Run a request that goes through lengths entries and lists nothing. -/
def State.walkEach (s : State) (c : Nat) (r : WalkReq) (f : Walk → Len → Walk) : State :=
  match (s.seenCtx c).lens r with
  | .error e => s.walkFault c r e
  | .ok ls =>
    let w := walkLens f ls { s := (s.seenStore c).lensTraffic c r ls.length }
    match w.fault with
    | some e => w.s.walkFault c r e
    | none => w.s.walkDone c r

/-! ### Listing (R220-R222) -/

/-- The bytes of a work item (R221). -/
def itemBytes (r : WalkReq) (i : Item) (addr : Nat) (staged first last : Bool) : Bytes :=
  toLe 4 i.seq ++ toLe 4 i.block ++ toLe 2 r.layer ++ toLe 2 i.first ++ toLe 2 i.count ++
    toLe 2 (b2n staged + 2 * b2n first + 4 * b2n last) ++ toLe 8 addr ++ toLe 4 i.entry ++ toLe 4 0

/-- ITEM_TOKEN rises for the items of a station that are ready, in order: every leading open one (R222). -/
def State.flushOpen : Nat → Nat → Nat → State → State
  | 0, _, _, s => s
  | fuel + 1, c, rel, s =>
    match (s.ctx c).walk.staging.find? (·.station == rel) with
    | some g =>
      if g.page.isNone then
        let s := s.modCtx c fun k => { k with walk := { k.walk with staging := k.walk.staging.erase g } }
        State.flushOpen fuel c rel (s.incToken c rel g.itemToken 1 .walker true none)
      else s
    | none => s

/-- Write item `n` of a destination, at list index LIST_OFFSET + n, and queue its page (R222). -/
def State.putItem (s : State) (c : Nat) (v : KvConf) (r : WalkReq) (mine : List Item) (n : Nat) : State :=
  match mine[n]? with
  | none => s
  | some i =>
    let rel := r.groupFirst + i.dest
    let first := n == 0 || ((mine[n - 1]?).map (·.entry)) != some i.entry
    let last := ((mine[n + 1]?).map (·.entry)) != some i.entry
    let at_ := v.listBase + (rel * v.listItems + r.listOffset + n) * 32
    let pos := mget 0 (s.ctx c).walk.ringPos rel
    let f := pos % v.stageFrames
    match i.page with
    | .inl addr =>
      (s.put c at_ (itemBytes r i addr false first last)).modCtx c fun k => { k with
        walk := { k.walk with staging := k.walk.staging ++ [⟨rel, i.seq, r.itemToken, none⟩] } }
    | .inr spn =>
      (s.put c at_ (itemBytes r i (v.stageBase + (rel * v.stageFrames + f) * 65536) true first last)).modCtx c fun k => { k with
        walk := { k.walk with
          staging := k.walk.staging ++ [⟨rel, i.seq, r.itemToken, some (f, spn)⟩]
          ringPos := mset 0 k.walk.ringPos rel (pos + 1) } }

/-- Deliver one destination's list, count and tokens (R222). -/
def State.deliver (s : State) (c : Nat) (v : KvConf) (r : WalkReq) (items : List Item) (j : Nat) : State :=
  let mine := items.filter (·.dest == j)
  let rel := r.groupFirst + j
  let s := s.foldNat (List.range mine.length) fun s n => s.putItem c v r mine n
  let s := s.putShape c (r.countSlot0 + j) mine.length
  let s := s.incToken c rel r.listToken 1 .walker true none
  State.flushOpen mine.length c rel s

/-- List one more item, or stop with 0x4A when it lies beyond its destination's list or shape maximum (R225). -/
def Walk.list (w : Walk) (k : Ctx) (v : KvConf) (r : WalkReq) (i : Item) : Walk :=
  let n := (w.items.filter (·.dest == i.dest)).length + 1
  if v.listItems < r.listOffset + n || k.shapeMax (r.countSlot0 + i.dest) < n then { w with fault := some 0x4A }
  else { w with items := w.items ++ [i] }

/-- A listing request ends: its faults, or the delivery to every destination and DONE_TOKEN. -/
def finishList (c : Nat) (v : KvConf) (r : WalkReq) (w : Walk) : State :=
  match w.fault with
  | some e => w.s.walkFault c r e
  | none =>
    let s := w.items.foldl (fun s i =>
      s.modWalker (s.walkerOf (partOfCtx c) i.seq) fun x => { x with items := satAdd 48 x.items 1 }) w.s
    let s := s.foldNat (List.range r.groupCount) fun s j => s.deliver c v r w.items j
    s.walkDone c r

/-- A lengths entry names a sequence and a length that KVCONF allows (R225, 0x49). -/
def lenOk (v : KvConf) (e : Len) : Bool := e.seq < v.seqMax && e.cur + e.new ≤ v.tokensMax

/-! ### READ (R219) -/

/-- The item of the `i`-th block of a READ entry, or fault 0x49 for an empty block. -/
def readBlock (c : Nat) (v : KvConf) (r : WalkReq) (e : Len) (n : Nat) (w : Walk) (i b : Nat) : Walk :=
  let t := (w.s.ctx c).entry v e.seq b
  let s := w.s.lookAside c e.seq (v.entryAddr e.seq b)
  if t.state == 0 then { w with s := s, fault := some 0x49 }
  else
    let page : Nat ⊕ Nat := if t.state == 2 then .inr (t.spn + r.layer) else .inl (v.frame t.link r.layer)
    let item : Item := ⟨itemDest r e.index i n, e.seq, b, 0, min v.slots (e.cur + e.new - b * v.slots), e.index, page⟩
    { w with s := s }.list (s.ctx c) v r item

/-- READ of one entry. -/
def readEntry (c : Nat) (v : KvConf) (r : WalkReq) (w : Walk) (e : Len) : Walk :=
  if !lenOk v e || !((w.s.ctx c).seqHead v e.seq).live then { w with fault := some 0x49 }
  else
    let n := ceilDiv (e.cur + e.new) v.slots
    walkBlocks (readBlock c v r e n) (List.range n) 0 w

/-- Run READ. -/
def State.runRead (s : State) (c : Nat) (v : KvConf) (r : WalkReq) : State :=
  match (s.seenCtx c).lens r with
  | .error e => s.walkFault c r e
  | .ok ls => finishList c v r (walkLens (readEntry c v r) ls { s := (s.seenStore c).lensTraffic c r ls.length })

/-! ### APPEND (R226) -/

/-- A free frame group of a context: the package's choice, free in the model among the free groups. -/
def State.pickGroup (s : State) (c : Nat) (v : KvConf) : Option Nat × State :=
  let used := (s.ctx c).walk.frames
  let (d, s) := s.draw
  let want := Config.spnChoice d v.frameGroups % v.frameGroups
  if want < v.frameGroups && !used.contains want then (some want, s)
  else ((List.range v.frameGroups).find? fun g => !used.contains g, s)

/-- Allocate a frame group and LAYERS page numbers for block `b` of sequence `q`, set the marks and write the entry; none when
there is no room (R226, 0x4B). -/
def State.openBlock (s : State) (c : Nat) (v : KvConf) (q b : Nat) : Option State :=
  if s.freeSpns c < v.layers then none
  else
    match s.pickGroup c v with
    | (none, _) => none
    | (some g, s) =>
      let (spn, s) := s.pickSpn (partOfCtx c) v.layers
      let pages := (List.range v.layers).map fun l => v.frame g l / 65536
      let s := (s.storeTraffic c 2 (v.entryAddr q b) 8).storeTraffic c 2 (v.rec_ q) 24
      some (s.modCtx c fun k =>
        let k := { k with walk := { k.walk with
          frames := g :: k.walk.frames, spns := spn :: k.walk.spns
          writable := pages ++ k.walk.writable.filter fun x => !pages.contains x } }
        let h := k.seqHead v q
        (k.setEntry v q b { state := 1, spn := spn, link := g }).setSeqHead v q { h with blocks := h.blocks + 1 })

/-- APPEND of one block: allocate it when it is empty, then list it; fault 0x49 when it is sealed for the layer. -/
def appendBlock (c : Nat) (v : KvConf) (r : WalkReq) (e : Len) (n : Nat) (w : Walk) (i b : Nat) : Walk :=
  let t := (w.s.ctx c).entry v e.seq b
  let s := w.s.lookAside c e.seq (v.entryAddr e.seq b)
  let opened : Option State := if t.state == 0 then s.openBlock c v e.seq b else some s
  match opened with
  | none => { w with s := s, fault := some 0x4B }
  | some s =>
    if t.state == 2 || (t.state == 1 && r.layer < t.sealedLayers) then { w with s := s, fault := some 0x49 }
    else
      let t := (s.ctx c).entry v e.seq b
      let first := if b * v.slots < e.cur then e.cur - b * v.slots else 0
      let item : Item := ⟨itemDest r e.index i n, e.seq, b, first, min v.slots (e.cur + e.new - b * v.slots) - first,
        e.index, .inl (v.frame t.link r.layer)⟩
      { w with s := s }.list (s.ctx c) v r item

/-- APPEND of one entry (R226). -/
def appendEntry (c : Nat) (v : KvConf) (r : WalkReq) (w : Walk) (e : Len) : Walk :=
  if !lenOk v e then { w with fault := some 0x49 }
  else if e.new == 0 then w
  else
    let h := (w.s.ctx c).seqHead v e.seq
    let s := if h.live then w.s
      else (w.s.modCtx c fun k => k.setSeqHead v e.seq { live := true, chain := v.modelTag, keyed := 0, blocks := 0 }).storeTraffic c 2
        (v.rec_ e.seq) 24
    let b0 := e.cur / v.slots
    let n := (e.cur + e.new - 1) / v.slots - b0 + 1
    walkBlocks (appendBlock c v r e n) ((List.range n).map (b0 + ·)) 0 { w with s := s }

/-- Run APPEND. -/
def State.runAppend (s : State) (c : Nat) (v : KvConf) (r : WalkReq) : State :=
  match (s.seenCtx c).lens r with
  | .error e => s.walkFault c r e
  | .ok ls => finishList c v r (walkLens (appendEntry c v r) ls { s := (s.seenStore c).lensTraffic c r ls.length })

/-! ### COMMIT (R182, R227) -/

/-- SEAL_POINT: the page is marked sealing and its writable mark clears; its bytes no longer change, and the seal engine reads
them in the autonomous class (R168, R182, R183). -/
def State.sealPoint (s : State) (c : Nat) (v : KvConf) (q b l : Nat) (t : Entry) : State :=
  let a := v.frame t.link l
  let k := s.ctx c
  let x : Seal := ⟨partOfCtx c, some c, k.handle, v.poolPages, q, b, l, t.spn, v.layers, rdBytes k.store a 65536⟩
  let s := s.modCtx c fun k => { k.setEntry v q b { t with sealedLayers := l + 1 } with
    walk := { k.walk with writable := k.walk.writable.erase (a / 65536) } }
  let s := s.storeTraffic c 2 (v.entryAddr q b) 8
  ({ s with seals := s.seals ++ [x] } : State).storeTraffic c 3 a 65536

/-- COMMIT of one block of layer LAYER. -/
def commitBlock (c : Nat) (v : KvConf) (r : WalkReq) (e : Len) (w : Walk) (_ b : Nat) : Walk :=
  let t := (w.s.ctx c).entry v e.seq b
  let s := w.s.lookAside c e.seq (v.entryAddr e.seq b)
  if t.state == 0 then { w with s := s, fault := some 0x49 }
  else if t.state == 2 || r.layer < t.sealedLayers then { w with s := s }
  else if t.sealedLayers < r.layer then { w with s := s, fault := some 0x4C }
  else { w with s := s.sealPoint c v e.seq b r.layer t }

/-- COMMIT of one entry. -/
def commitEntry (c : Nat) (v : KvConf) (r : WalkReq) (w : Walk) (e : Len) : Walk :=
  if !lenOk v e then { w with fault := some 0x49 }
  else walkBlocks (commitBlock c v r e) (List.range ((e.cur + e.new) / v.slots)) 0 w

/-- Run COMMIT: DONE_TOKEN rises once every requested seal has passed its seal point. -/
def State.runCommit (s : State) (c : Nat) (v : KvConf) (r : WalkReq) : State := s.walkEach c r (commitEntry c v r)

/-! ### Sealing ends; the ledger offer (R182, R227, R238) -/

/-- A way of the partition in a set that is invalid (R238 step 5). An entry's index, which LINK shows, is 8 x set + way (DESIGN
CHOICE, log entry 49: R216 gives its width alone). -/
def State.freeWay (s : State) (p set : Nat) : Option Nat :=
  ((List.range 8).find? fun w => (s.part p).ways.getLsbD w && (s.ledgerAt (8 * set + w)).isNone).map (8 * set + ·)

/-- The entries of a set in the partition's ways. -/
def State.inSet (s : State) (p set i : Nat) : Bool := i / 8 == set && (s.part p).ways.getLsbD (i % 8)

/-- An offer declined by one of steps 3-5: the bundle stays owned (R238, R247). -/
def State.decline (s : State) (p : Nat) : State := s.modPart p fun q => { q with declined := satAdd 64 q.declined 1 }

/-- LEDGER_OFFER (R238): key block `b` of sequence `q` and insert it, or leave it owned. -/
def State.offer (s : State) (c : Nat) (v : KvConf) (q b : Nat) : State :=
  let p := partOfCtx c
  let k := s.ctx c
  let h := k.seqHead v q
  if h.keyed != b then s
  else
    let key := granuleKey (s.part p).ledgerKey h.chain ((s.seenCtx c).granuleTokens v q b)
    let s := s.tokenTraffic c v q b 1
    let s := (s.modCtx c fun k => k.setSeqHead v q { h with chain := key, keyed := b + 1 }).storeTraffic c 2 (v.rec_ q) 24
    let up := k.entry v q (b - 1)
    let parent : Option Nat := if b == 0 then none else some (up.link % 2 ^ 17)
    let parentOk := b == 0 || (up.state == 2 && up.ledger &&
      (match s.ledgerAt (up.link % 2 ^ 17) with | some e => e.ref < 65535 | none => false))
    let set := key.toNat % 16384
    if !parentOk then s
    else if (s.ledgerOf p (s.inSet p set)).any fun (_, e) => e.key == key then s.decline p
    else
      let s := State.evictTo 8 p ((s.part p).pages - v.layers) (s.inSet p set) s
      if (s.part p).pages < s.reserveUsed p + v.layers then (s.pxEvent 0).decline p
      else
        let s := if (s.freeWay p set).isSome then s
          else match s.victim p (s.inSet p set) with | some i => s.evict p i | none => s
        match s.freeWay p set with
        | none => s.decline p
        | some i =>
          let t := k.entry v q b
          let e : LedgerEntry := ⟨key, false, p, v.layers, t.spn, 1, parent, s.pfx.stamp⟩
          let s := (s.setLedger i (some e)).nextStamp
          let s := match parent with
            | some j => match s.ledgerAt j with
              | some u => s.setLedger j (some { u with ref := u.ref + 1 })
              | none => s
            | none => s
          let s := s.modPart p fun x => { x with inserts := satAdd 32 x.inserts 1 }
          let s := s.storeTraffic c 2 (v.entryAddr q b) 8
          s.modCtx c fun k => { k.setEntry v q b { t with ledger := true, link := i } with
            walk := { k.walk with spns := k.walk.spns.erase t.spn } }

/-- The last page of a bundle is sealed: its entry becomes sealed, it is offered, its frame group is freed at the next step
release (R227). -/
def State.bundleSealed (s : State) (c : Nat) (v : KvConf) (l : Seal) : State :=
  let t := (s.ctx c).entry v l.seq l.block
  if t.state == 1 && t.spn == l.base then
    if t.sealedLayers == v.layers then
      let s := s.storeTraffic c 2 (v.entryAddr l.seq l.block) 8
      let s := s.modCtx c fun k => { k.setEntry v l.seq l.block { t with state := 2, link := 0 } with
        walk := { k.walk with freeAtStep := (t.link, some t.spn) :: k.walk.freeAtStep } }
      if v.ledger then s.offer c v l.seq l.block else s
    else s
  else s

/-- The CRC-32C of each of a page's 16 granules (R182). -/
def pageCrcs (bs : Bytes) : List (BitVec 32) := (List.range 16).map fun i => crc32c (slice bs (4096 * i) 4096)

/-- Every HBM write of a seal is acknowledged (R182 step 4, R227, R229): the page is sealed, but for one whose bundle has been
released meanwhile, which only gives its number back. -/
def State.sealDone (s : State) (l : Seal) : State :=
  let s := { s with seals := s.seals.erase l, cst := { s.cst with seals := satAdd 64 s.cst.seals 1 } }
  let s := (s.gateEvent 9 1).pageTraffic l.part (l.base + l.layer) 2 l.ctx
  match l.ctx with
  | none => s
  | some c =>
    if !(s.ctx c).walk.spns.contains l.base then s
    else
    let s := { s with pages := s.pages ++ [⟨l.part, l.base + l.layer, l.data, pageCrcs l.data, false⟩] }
    if s.seals.any fun x => x.part == l.part && x.base == l.base then s
    else match (s.ctx c).itin.kv with
      | some v => s.bundleSealed c v l
      | none => s

/-- A seal ends, and the peers' reads that waited for it are served (R182 step 4, R296). -/
def State.sealEnds (s : State) (l : Seal) : State := (s.sealDone l).serveWaiting

/-! ### LOOKUP, FORK, RELEASE, ACK (R228, R229, R237) -/

/-- Probe the ledger in a partition's ways (R237). -/
def State.probe (s : State) (p layers : Nat) (key : Word) : Option Nat :=
  ((s.ledgerOf p (s.inSet p (key.toNat % 16384))).find? fun (_, e) =>
    !e.poison && e.key == key && e.layers == layers && e.ref < 65535).map (·.1)

/-- Probe granules in order until one does not hit, taking each hit's reference; answers hits and the last key. -/
def State.probes (c : Nat) (v : KvConf) (q : Nat) : List Word → Nat → Word → State → Nat × Word × State
  | [], h, last, s => (h, last, s)
  | key :: rest, h, last, s =>
    let p := partOfCtx c
    match s.probe p v.layers key with
    | none => (h, last, s.modPart p fun x => { x with misses := satAdd 32 x.misses 1 })
    | some i =>
      let spn := match s.ledgerAt i with | some e => e.spn | none => 0
      let s := (s.addRef i).modPart p fun x => { x with hits := satAdd 32 x.hits 1 }
      let s := (s.modCtx c fun k => k.setEntry v q h ⟨2, true, v.layers, spn, i⟩).storeTraffic c 2 (v.entryAddr q h) 8
      State.probes c v q rest (h + 1) key s

/-- LOOKUP of one entry (R237). -/
def lookupEntry (c : Nat) (v : KvConf) (r : WalkReq) (w : Walk) (e : Len) : Walk :=
  let k := w.s.ctx c
  let hd := k.seqHead v e.seq
  if !lenOk v e || (hd.live && 0 < hd.blocks) then { w with fault := some 0x49 }
  else
    let keys := (w.s.seenCtx c).chainKeys v (w.s.part (partOfCtx c)).ledgerKey e.seq ((e.new - 1) / 16) 0 v.modelTag
    let (h, last, s) := State.probes c v e.seq keys 0 v.modelTag (w.s.tokenTraffic c v e.seq 0 keys.length)
    let s := (s.storeTraffic c 2 (v.rec_ e.seq) 24).storeTraffic c 2 (r.lenTable + 16 * e.index + 4) 8
    let s := s.modCtx c fun k =>
      let k := k.setSeqHead v e.seq ⟨true, last, h, h⟩
      { k with store := wrBytes k.store (r.lenTable + 16 * e.index + 4) (toLe 4 (16 * h) ++ toLe 4 (e.new - 16 * h)) }
    { w with s := s }

/-- The bytes of layer `l` of a block: its frame while it is open, its sealed page afterwards; none when the page cannot be
read (R196). -/
def State.blockBytes (s : State) (c : Nat) (v : KvConf) (t : Entry) (l : Nat) : Option Bytes :=
  if t.state == 2 then
    match s.page (partOfCtx c) (t.spn + l) with
    | some g => if g.poison || !g.checks 0 65536 then none else some g.data
    | none => none
  else some (rdBytes (s.ctx c).store (v.frame t.link l) 65536)

/-- The fault of a block that cannot be read: 256 and the number of its first bad page (R184, R196). -/
def State.badPage (s : State) (c : Nat) (v : KvConf) (t : Entry) : Nat :=
  256 + t.spn + ((List.range v.layers).find? fun l => (s.blockBytes c v t l).isNone).getD 0

/-- Count the walker's read of `n` bytes of layer `l` of a block: its frame's slices, or its sealed page (R168, R193). -/
def State.blockTraffic (s : State) (c : Nat) (v : KvConf) (t : Entry) (n l : Nat) : State :=
  if t.state == 2 then s.pageFetch (partOfCtx c) (t.spn + l) (some c) else s.storeTraffic c 2 (v.frame t.link l) n

/-- Copy a block's first `n` bytes of every layer into a new open block `b` of sequence `q` (R228). -/
def State.copyOpen (s : State) (c : Nat) (v : KvConf) (q b n : Nat) (t : Entry) : Except Nat State :=
  match (List.range v.layers).mapM fun l => s.blockBytes c v t l with
  | none => .error (s.badPage c v t)
  | some datas =>
    match s.openBlock c v q b with
    | none => .error 0x4B
    | some s =>
      let g := ((s.ctx c).entry v q b).link
      .ok (s.foldNat (List.range v.layers) fun s l =>
        (s.blockTraffic c v t n l).put c (v.frame g l) ((datas.getD l []).take n))

/-- Copy a sealed block as a new owned sealed bundle (R228); one of a LEDGER context is keyed and offered as it becomes sealed
(R238). -/
def State.copySealed (s : State) (c : Nat) (v : KvConf) (q b : Nat) (t : Entry) : Except Nat State :=
  match (List.range v.layers).mapM fun l => s.blockBytes c v t l with
  | none => .error (s.badPage c v t)
  | some datas =>
    if s.freeSpns c < v.layers then .error 0x4B
    else
      let p := partOfCtx c
      let (spn, s) := s.pickSpn p v.layers
      let new := (List.range v.layers).map fun l =>
        (⟨p, spn + l, datas.getD l [], pageCrcs (datas.getD l []), false⟩ : Page)
      let s := { s with pages := s.pages ++ new, cst := { s.cst with seals := satAdd 64 s.cst.seals v.layers } }
      let s := (s.gateEvent 9 v.layers).foldNat (List.range v.layers) fun s l =>
        (s.blockTraffic c v t 65536 l).pageTraffic p (spn + l) 2 (some c)
      let s := (s.storeTraffic c 2 (v.entryAddr q b) 8).storeTraffic c 2 (v.rec_ q) 24
      let s := s.modCtx c fun k =>
        let k := { k with walk := { k.walk with spns := spn :: k.walk.spns } }
        let h := k.seqHead v q
        (k.setEntry v q b ⟨2, false, v.layers, spn, 0⟩).setSeqHead v q { h with blocks := h.blocks + 1 }
      .ok (if v.ledger then s.offer c v q b else s)

/-- Share, or copy, whole block `b` of a source sequence (R228). -/
def State.forkBlock (s : State) (c : Nat) (v : KvConf) (q b : Nat) (t : Entry) : Except Nat State :=
  if t.state == 0 then .error 0x49
  else if t.state == 1 then s.copyOpen c v q b 65536 t
  else
    let i := t.link % 2 ^ 17
    let room := match s.ledgerAt i with | some e => e.ref < 65535 | none => false
    if t.ledger && room then
      .ok ((((s.addRef i).storeTraffic c 2 (v.entryAddr q b) 8).storeTraffic c 2 (v.rec_ q) 24).modCtx c fun k =>
        let h := k.seqHead v q
        (k.setEntry v q b t).setSeqHead v q { h with blocks := h.blocks + 1 })
    else s.copySealed c v q b t

/-- One block of a FORK: a whole one below `n div T`, or the part of the last (R228). -/
def forkStep (c : Nat) (v : KvConf) (e : Len) (w : Walk) (_ b : Nat) : Walk :=
  let t := (w.s.ctx c).entry v e.new b
  let r := if b < e.cur / v.slots then w.s.forkBlock c v e.seq b t
    else if t.state == 0 then .error 0x49
    else w.s.copyOpen c v e.seq b (e.cur % v.slots * v.tokenBytes) t
  match r with
  | .ok s => { w with s := s }
  | .error x => { w with fault := some x }

/-- FORK of one entry (R228); a source page that cannot be read ends the context with reason 0x05 (`State.badPage`). -/
def forkEntry (c : Nat) (v : KvConf) (w : Walk) (e : Len) : Walk :=
  let k := w.s.ctx c
  let src := k.seqHead v e.new
  if v.seqMax ≤ e.seq || v.seqMax ≤ e.new || v.tokensMax < e.cur || (k.seqHead v e.seq).live || !src.live then
    { w with fault := some 0x49 }
  else
    let whole := e.cur / v.slots
    let (keyed, chain) :=
      if src.keyed ≤ whole then (src.keyed, src.chain)
      else (whole, ((w.s.seenCtx c).chainKeys v (w.s.part (partOfCtx c)).ledgerKey e.new whole 0 v.modelTag).getLast?.getD v.modelTag)
    let s := if src.keyed ≤ whole then w.s else w.s.tokenTraffic c v e.new 0 whole
    let s := (s.modCtx c fun k => k.setSeqHead v e.seq ⟨true, chain, keyed, 0⟩).storeTraffic c 2 (v.rec_ e.seq) 24
    walkBlocks (forkStep c v e) (List.range (ceilDiv e.cur v.slots)) 0 { w with s := s }

/-- The page is there and not yet poisoned: it is its check that fails (R184). -/
def State.crcFails (s : State) (c n : Nat) : Bool := match s.page (partOfCtx c) n with | some g => !g.poison | none => false

/-- Run FORK. A source page that meets an error has the outcome of R184 and R196. -/
def State.runFork (s : State) (c : Nat) (v : KvConf) (r : WalkReq) : State :=
  match (s.seenCtx c).lens r with
  | .error e => s.walkFault c r e
  | .ok ls =>
    let w := walkLens (forkEntry c v) ls { s := (s.seenStore c).lensTraffic c r ls.length }
    match w.fault with
    | some e => if e < 256 then w.s.walkFault c r e else w.s.pageFails (partOfCtx c) (e - 256) (w.s.crcFails c (e - 256)) [c]
    | none => w.s.walkDone c r

/-- RELEASE of one entry (R229). -/
def releaseEntry (c : Nat) (v : KvConf) (w : Walk) (e : Len) : Walk :=
  if !lenOk v e then { w with fault := some 0x49 }
  else if ((w.s.ctx c).seqHead v e.seq).live then { w with s := w.s.releaseSeq c e.seq v }
  else w

/-- A list without the first `n` elements that satisfy `f`. -/
def dropFirst {α : Type} : Nat → (α → Bool) → List α → List α
  | _, _, [] => []
  | n, f, x :: l => if f x then (match n with | 0 => x :: l | m + 1 => dropFirst m f l) else x :: dropFirst n f l

/-- Run ACK: the issuing station's oldest staging frames are released (R219, R225). -/
def State.runAck (s : State) (c : Nat) (r : WalkReq) : State :=
  if mget 0 (s.ctx c).walk.filled r.station < r.ackCount then s.walkFault c r 0x4C
  else
    let s := s.modCtx c fun k => { k with walk := { k.walk with
      filled := mmod 0 k.walk.filled r.station (· - r.ackCount)
      staged := dropFirst r.ackCount (·.1 == r.station) k.walk.staged } }
    s.walkDone c r

/-! ### Staging (R222) -/

/-- The oldest waiting sealed item whose station has a staging frame free and no earlier item waiting. R222 orders the items of one
station; among stations the item listed first lands first (DESIGN CHOICE, log entry 49). -/
def Ctx.nextStaged (k : Ctx) (v : KvConf) : Option Staging :=
  k.walk.staging.find? fun g => g.page.isSome && mget 0 k.walk.filled g.station < v.stageFrames &&
    ((k.walk.staging.find? (·.station == g.station)) == some g)

/-- A staged page lands in its frame and ITEM_TOKEN rises, with the open items after it (R222). -/
def State.stageArrive (s : State) (c : Nat) (v : KvConf) (g : Staging) (f spn : Nat) (data : Bytes) : State :=
  let p := partOfCtx c
  let s := (s.pageFetch p spn (some c)).put c (v.stageBase + (g.station * v.stageFrames + f) * 65536) data
  let s := s.modCtx c fun k => { k with walk := { k.walk with
    staging := k.walk.staging.erase g, filled := mmod 0 k.walk.filled g.station (· + 1)
    staged := k.walk.staged ++ [(g.station, f, spn)] } }
  let s := s.modWalker (s.walkerOf p g.seq) fun x => { x with staged := satAdd 48 x.staged 1 }
  let s := s.incToken c g.station g.itemToken 1 .walker true none
  State.flushOpen (s.ctx c).walk.staging.length c g.station s

/-! ### The commands -/

/-- WALK_READ (R219). -/
def execWalkRead (c : Nat) (s : State) : Res := .next (s.walk c 1 fun v r => s.runRead c v r)

/-- WALK_APPEND (R226). -/
def execWalkAppend (c : Nat) (s : State) : Res := .next (s.walk c 2 fun v r => s.runAppend c v r)

/-- WALK_COMMIT (R227). -/
def execWalkCommit (c : Nat) (s : State) : Res := .next (s.walk c 3 fun v r => s.runCommit c v r)

/-- WALK_LOOKUP (R237). -/
def execWalkLookup (c : Nat) (s : State) : Res :=
  .next (s.walk c 4 fun v r => s.walkEach c r (lookupEntry c v r))

/-- WALK_FORK (R228). -/
def execWalkFork (c : Nat) (s : State) : Res := .next (s.walk c 5 fun v r => s.runFork c v r)

/-- WALK_RELEASE (R229). -/
def execWalkRelease (c : Nat) (s : State) : Res := .next (s.walk c 6 fun v r => s.walkEach c r (releaseEntry c v))

/-- WALK_ACK (R219, R222). -/
def execWalkAck (c : Nat) (s : State) : Res := .next (s.walk c 7 fun _ r => s.runAck c r)

/-- SEAL_COMPLETE (R182): the i-th seal in flight. -/
def execSealComplete (i : Nat) (s : State) : Res :=
  match s.seals[i]? with
  | none => .next s
  | some l => .next (s.sealEnds l)

/-- WALK_STAGE_ARRIVE (R222, R184, R233): the next staged page of a context, whose granules pass their checks or do not. A fetch that
is in flight when a pre-emption begins completes while the stations save. A listed page whose bundle has been released meanwhile, so
that no sealed bytes are left to fetch, ends the context as an HBM error would (DESIGN CHOICE, log entry 49). -/
def execWalkStageArrive (c : Nat) (crcOk : Bool) (s : State) : Res :=
  let k := s.ctx c
  match k.itin.kv with
  | none => .next s
  | some v =>
    match k.nextStaged v with
    | none => .next s
    | some g =>
      match g.page with
      | none => .next s
      | some (f, spn) =>
        if (k.state != .running && k.state != .saving) || 128 ≤ c then .next s
        else
          match s.page (partOfCtx c) spn with
          | some x =>
            if x.poison || !crcOk then .next (s.pageFails (partOfCtx c) spn (!crcOk) [c])
            else .next (s.stageArrive c v g f spn x.data)
          | none => .next (s.pageFails (partOfCtx c) spn false [c])

end Sys2Proof.Machine
end

