-- ==== Sys2Proof/Machine/SlotX.lean ====
section
/-!
DEFINITION. The X slot (04_station_instructions.md R112-R122, 10_brisor_fabric.md R295-R298, 08_kv_pages.md R218-R225,
09_experts.md R258, R265): what the station finds at issue, what waits at the accept channel, the transfers it begins, and the
descriptors it hands to the drovers, the walkers and the dispatch engine.
-/

namespace Sys2Proof.Machine

/-! ### Transfers (R113, R115) -/

/-- Saddlebag address of a transfer. -/
def Arch.xtSaddle (a : Arch) (x : XtOp) : Nat := plus (a.sreg x.sa) (8 * x.soff.toNat)
/-- Caravanserai address of a transfer. -/
def Arch.xtStore (a : Arch) (x : XtOp) : Nat := plus (a.sreg x.ca) (8 * x.coff.toInt)
/-- LENGTH of its transfer word. -/
def Arch.xtLength (a : Arch) (x : XtOp) : Nat := bitsOf (a.sreg x.tw).toNat 0 20
/-- NOTIFY. -/
def Arch.xtNotify (a : Arch) (x : XtOp) : Bool := bitOf (a.sreg x.tw).toNat 63
/-- NINDEX. -/
def Arch.xtIndex (a : Arch) (x : XtOp) : Nat := bitsOf (a.sreg x.tw).toNat 48 10
/-- NTOKEN. -/
def Arch.xtToken (a : Arch) (x : XtOp) : Nat := bitsOf (a.sreg x.tw).toNat 40 6

/-- A length of 8-262,144 bytes, a multiple of 8 (R115, R121). -/
def xferLengthOk (n : Nat) : Bool := 8 ≤ n && n ≤ 262144 && n % 8 == 0

/-- The transfer word is malformed (R115). -/
def Arch.twBad (a : Arch) (x : XtOp) (write : Bool) : Bool :=
  let w := (a.sreg x.tw).toNat
  bitsOf w 58 5 != 0 || bitsOf w 46 2 != 0 || bitsOf w 20 20 != 0 || !xferLengthOk (a.xtLength x) || (a.xtNotify x && !write)

/-- The faults of an XLD or XST (R115, R116). -/
def Site.xtFaults (x : Site) (o : XtOp) (write : Bool) : List Nat :=
  let a := x.a
  let n := a.xtLength o
  a.rdS o.sa ++ a.rdS o.ca ++ a.rdS o.tw ++ faultIf (a.twBad o write) 0x1C ++
    aligned (a.xtSaddle o) 8 ++ aligned (a.xtStore o) 8 ++ saddleRange (a.xtSaddle o) n ++
    (x.k.stationFault write (a.xtStore o) n).toList ++
    faultIf (write && a.xtNotify o && x.k.itin.streams.length ≤ a.xtIndex o) 0x22

/-! ### Links (R47, R121, R122, R466) -/

/-- The context-relative station at the far end of link `l`, when the link exists, has not failed and leads to a station of
the context. -/
def State.linkPeer (s : State) (c st l : Nat) : Option Nat :=
  match linkFar st l with
  | none => none
  | some far =>
    let r := s.relStn c far
    if (s.stn st).linkFailed.getLsbD l || s.stnCount c ≤ r then none else some r

/-- A halo descriptor's fields (R122). -/
def haloOf (b : Bytes) : Halo :=
  { src := leAt b 0 4, dst := leAt b 4 4, srcStride := leAt b 8 4, dstStride := leAt b 12 4, width := leAt b 16 2
    count := leAt b 18 2, link := leAt b 20 1, localTok := leAt b 21 1, remoteTok := leAt b 22 1
    perRow := bitOf (leAt b 23 1) 0 }

/-- The fault of a halo descriptor whose link is usable or not; the lowest code when there are several (R122). -/
def haloFault (b : Bytes) (linkOk : Bool) : Option Nat :=
  let h := haloOf b
  if h.src % 8 != 0 || h.dst % 8 != 0 || h.srcStride % 8 != 0 || h.dstStride % 8 != 0 then some 0x13
  else if h.link ≤ 3 && !linkOk then some 0x17
  else if h.width < 8 || 4096 < h.width || h.width % 8 != 0 || h.count == 0 || 4096 < h.count || 3 < h.link ||
      63 < h.localTok || 63 < h.remoteTok || 1 < leAt b 23 1 || !zeroAt b 24 8 ||
      saddleSize < h.src + (h.count - 1) * h.srcStride + h.width ||
      saddleSize < h.dst + (h.count - 1) * h.dstStride + h.width then some 0x1C
  else none

/-! ### Descriptors for the engines -/

/-- The address of a descriptor (R113). -/
def Arch.descAddr (a : Arch) (r : Reg) (off : BitVec 13) : Nat := plus (a.sreg r) (32 * off.toNat)

/-- The bytes of a descriptor as they stand at issue (R39, R122). -/
def Site.desc (x : Site) (r : Reg) (off : BitVec 13) : Bytes := rdBytes x.a.saddle (x.a.descAddr r off) 32

/-- Where a descriptor holds the local counter that it names. -/
def descToken : XhOp → Nat
  | .halo => 21
  | .fab => 4
  | .walk => 12
  | .disp => 7

/-- The producer of a descriptor's local counter (R449). -/
def descProducer : XhOp → Producer
  | .halo => .neighbour
  | .fab => .brisor
  | .walk => .walker
  | .disp => .dispatch

/-- An XFAB descriptor's fields (R295). -/
def fabOf (c rel idx id : Nat) (b : Bytes) : FabDesc :=
  { id := id, ctx := c, station := rel, bundle := idx, op := leAt b 0 1, sub := leAt b 1 1
    peer := if leAt b 2 2 == 0xFFFF then none else some (leAt b 2 2), token := leAt b 4 1, ntoken := leAt b 5 1
    nindex := leAt b 6 2, remote := leAt b 8 8, local_ := leAt b 16 8
    count := leAt b 24 2, ncount := leAt b 26 2 }

/-- A unit's size in bytes as R295 aligns it. -/
def FabDesc.alignOk (f : FabDesc) : Bool :=
  if f.op == 6 then true
  else if f.op == 5 then f.remote % 8 == 0 && f.local_ % 32 == 0
  else f.remote % f.unitBytes == 0 && f.local_ % f.unitBytes == 0

/-- Bytes at LOCAL that unit `i` moves. -/
def FabDesc.localRange (f : FabDesc) (i : Nat) : Nat × Nat :=
  if f.op == 5 then (f.local_, 24) else (f.local_ + i * f.unitBytes, f.unitBytes)

/-- A unit's local range lies in one region of a kind that R295 allows. -/
def Ctx.fabLocal (k : Ctx) (f : FabDesc) (i : Nat) : Bool :=
  let (a, n) := f.localRange i
  match k.region a n with
  | none => false
  | some r => if f.op == 2 || f.op == 4 then kindReads r.kind else r.kind == 3 || r.kind == 7

/-- Unit `i` of a hashed descriptor lies in the context's own image, in a region of two or more homes (R297). -/
def Ctx.fabHashed (k : Ctx) (f : FabDesc) (i : Nat) : Bool :=
  let a := f.remote + i * f.unitBytes
  match k.itin.caravan with
  | none => false
  | some v =>
    imageWindow ≤ a && (match regionOfImage v.regions (a - imageWindow) with
      | some r => decide (2 ≤ r.homes) && a - imageWindow + f.unitBytes ≤ r.offset + r.bytes
      | none => false)

/-- The fault of an XFAB descriptor (R298). -/
def Ctx.fabFault (k : Ctx) (f : FabDesc) (clean : Bool) : Option Nat :=
  let peers := match k.itin.peers with | some p => p.ids.length | none => 0
  let form := !clean || f.op == 0 || 6 < f.op || 63 < f.token || (if f.op == 1 then 1 < f.sub else if f.op == 5 then 3 < f.sub
      else f.sub != 0) || f.count == 0 || 256 < f.count || ((f.op == 5 || f.op == 6) && f.count != 1) ||
    (f.op == 6 && (f.ncount == 0 || f.remote != 0 || 63 < f.ntoken)) ||
    (match f.peer with | some p => decide (peers ≤ p) | none => !(List.range f.count).all (k.fabHashed f)) ||
    !f.alignOk || k.itin.peers.isNone
  if form then some 0x40
  else if f.op != 6 && !(List.range f.count).all (k.fabLocal f) then some 0x41
  else if f.peer == some k.selfPeer then some 0x43
  else none

/-- A walk descriptor's fields (R218). -/
def walkOf (rel idx : Nat) (b : Bytes) : WalkReq :=
  { station := rel, bundle := idx, op := leAt b 0 1, mode := leAt b 1 1, layer := leAt b 2 2, lenSlot := leAt b 4 1
    countSlot0 := leAt b 5 1, groupFirst := leAt b 6 2, groupCount := leAt b 8 2, listToken := leAt b 10 1
    itemToken := leAt b 11 1, doneToken := leAt b 12 1, ackCount := leAt b 14 2, lenTable := leAt b 16 8
    listOffset := leAt b 24 4 }

/-- The form of a walk descriptor breaks R218 (R225, code 0x48). -/
def Ctx.walkBad (k : Ctx) (r : WalkReq) (clean : Bool) : Bool :=
  match k.itin.kv with
  | none => true
  | some v =>
    !clean || r.op == 0 || 7 < r.op || 1 < r.mode || v.layers ≤ r.layer || 63 < r.doneToken ||
      (r.op != 7 && !k.hasShape r.lenSlot) || (r.op == 7 && (r.ackCount == 0 || 64 < r.ackCount)) ||
      ((r.op == 1 || r.op == 2) &&
        (r.groupCount == 0 || 256 < r.groupCount || 256 < r.countSlot0 + r.groupCount ||
          k.itin.streams.length < r.groupFirst + r.groupCount || 63 < r.listToken || 63 < r.itemToken ||
          !(List.range r.groupCount).all fun i => k.hasShape (r.countSlot0 + i)))

/-- A dispatch descriptor's fields, with the threshold and hysteresis in force (R258, R260, R282). -/
def dispOf (rel idx step thr hys : Nat) (b : Bytes) : DispReq :=
  { station := rel, bundle := idx, op := leAt b 0 1, group := leAt b 1 1, layer := leAt b 2 2, countSlot := leAt b 4 1
    listToken := leAt b 5 1, laneToken := leAt b 6 1, doneToken := leAt b 7 1, table := leAt b 8 8, lane := leAt b 16 1
    step := step, threshold := thr, hysteresis := hys }

/-- The form of a dispatch descriptor breaks R258 (R265, code 0x44). -/
def Ctx.dispBad (k : Ctx) (r : DispReq) (clean : Bool) : Bool :=
  match k.itin.stepPlan with
  | none => true
  | some p =>
    !clean || r.op == 0 || 3 < r.op || (if r.op == 2 then r.group != 0 else p.groups.length ≤ r.group) ||
      p.moeLayers ≤ r.layer || 63 < r.doneToken || ((r.op == 1 || r.op == 2) && (63 < r.listToken || 63 < r.laneToken))

/-! ### Faults at issue (R98, R113) -/

/-- What the X slot finds at issue. -/
def Site.xFaults (x : Site) (s : State) (op : XOp) : List Nat :=
  let a := x.a
  match op with
  | .nop => []
  | .xld o => x.xtFaults o false
  | .xst o => x.xtFaults o true
  | .vld v r off =>
    let addr := plus (a.sreg r) (64 * off.toNat)
    a.rdS r ++ a.wrV v ++ saddleRange addr 512 ++ aligned addr 64
  | .vst v r off =>
    let addr := plus (a.sreg r) (64 * off.toNat)
    a.rdS r ++ a.rdV v ++ saddleRange addr 512 ++ aligned addr 64
  | .xvs v r _ => a.rdV v ++ a.wrS r
  | .xsv v r _ => a.rdS r ++ a.wrV v
  | .xsend l rs rd rl _ _ =>
    let src := (a.sreg rs).toNat
    let dst := (a.sreg rd).toNat
    let n := (a.sreg rl).toNat
    a.rdS rs ++ a.rdS rd ++ a.rdS rl ++ saddleRange src n ++ saddleRange dst n ++ aligned src 8 ++ aligned dst 8 ++
      faultIf (s.linkPeer x.c x.st l.toNat).isNone 0x17 ++ faultIf (!xferLengthOk n) 0x1C
  | .desc _ r off =>
    let addr := a.descAddr r off
    a.rdS r ++ saddleRange addr 32 ++ aligned addr 32
  | .xnote r _ _ => a.rdS r ++ faultIf (x.k.itin.streams.length ≤ (a.sreg r).toNat) 0x22

/-! ### The accept channel (R118, R224, R301) -/

/-- The drover that a station uses: 2k + (string mod 2) of its eighth k (R301). -/
def droverOf (st : Nat) : Nat := 2 * (st / 128) + st / 16 % 16 % 2

/-- The X slot's operation can be taken: at most 16 incomplete operations, 32 walk requests, 64 queued descriptors. -/
def Site.xAccepts (x : Site) (s : State) (op : XOp) : Bool :=
  match op with
  | .xld _ | .xst _ | .xsend .. | .xnote .. | .desc .halo _ _ => x.a.inflight.length < 16
  | .desc .walk _ _ => x.k.walk.reqs.length < 32
  | .desc .fab _ _ => (s.drover (droverOf x.st)).queue.length < 64
  | _ => true

/-! ### Effects -/

/-- A transfer begins. -/
def Site.begin_ (x : Site) (kind : XferKind) (s : State) : State :=
  let n := (s.ctx x.c).writes.length
  s.modArch x.st fun a =>
    let since := match kind with | .xld .. => n | _ => a.writes.length
    { a with inflight := a.inflight ++ [⟨x.idx, kind, x.a.issued, since⟩] }

/-- An operation names its local completion counter (R449). -/
def Arch.names (a : Arch) (t : Nat) (p : Producer) : Arch := { a with producers := mset .unattributed a.producers t p }

/-- What the X slot does at issue: register moves, and the transfers it begins. -/
def Site.xEffect (x : Site) (op : XOp) (s : State) : State :=
  let a := x.a
  match op with
  | .nop => s
  | .xld o =>
    let ca := a.xtStore o
    (x.begin_ (.xld ca (a.xtSaddle o) (rdBytes x.k.store ca (a.xtLength o)) o.t.toNat) s).modArch x.st
      (·.names o.t.toNat .transfer)
  | .xst o =>
    let sa := a.xtSaddle o
    let n := if a.xtNotify o then some (a.xtIndex o, a.xtToken o) else none
    (x.begin_ (.xst sa (a.xtStore o) (rdBytes (a.source s.free a.saddle) sa (a.xtLength o)) o.t.toNat n) (s.sourced a)).modArch x.st
      (·.names o.t.toNat .transfer)
  | .vld v r off =>
    s.modArch x.st (·.setV v (BitVec.ofNat 4096 (leNat (rdBytes a.saddle (plus (a.sreg r) (64 * off.toNat)) 512))))
  | .vst v r off => s.modArch x.st (·.store (plus (a.sreg r) (64 * off.toNat)) (toLe 512 (a.vreg v).toNat))
  | .xvs v r lane => s.modArch x.st (·.setS r (BitVec.ofNat 64 (laneAt 64 (a.vreg v) lane.toNat)))
  | .xsv v r lane =>
    s.modArch x.st fun b =>
      b.setV v (ofLanes 64 ((List.range 64).map fun i =>
        if i == lane.toNat then (a.sreg r).toNat else laneAt 64 (b.vreg v) i))
  | .xsend l rs rd rl tl tr =>
    let src := (a.sreg rs).toNat
    (x.begin_ (.send l.toNat src (a.sreg rd).toNat (rdBytes (a.source s.free a.saddle) src (a.sreg rl).toNat) tl.toNat tr.toNat
      false) (s.sourced a)).modArch
      x.st (·.names tl.toNat .neighbour)
  | .desc f r off =>
    let b := x.desc r off
    let t := leAt b (descToken f) 1
    let s := if t < 64 then s.modArch x.st (·.names t (descProducer f)) else s
    match f with
    | .halo => x.begin_ (.halo b none [] false 0) s
    | _ => s
  | .xnote r t n => x.begin_ (.note (a.sreg r).toNat t.toNat n.toNat) s

/-- What the X slot hands to an engine once every slot has written: the descriptor, or a fault after issue of its form. -/
def Site.xAfter (x : Site) (op : XOp) (s : State) : State :=
  match op with
  | .desc .fab r off =>
    let b := x.desc r off
    let f := fabOf x.c x.rel x.idx s.fab.nextDesc b
    match x.k.fabFault f (zeroAt b 28 4) with
    | some code => s.lateFault x.c x.rel x.idx 3 code
    | none =>
      { s with fab := { s.fab with nextDesc := s.fab.nextDesc + 1 } }.modDrover (droverOf x.st) fun v =>
        { v with queue := v.queue ++ [f] }
  | .desc .walk r off =>
    let b := x.desc r off
    let q := walkOf x.rel x.idx b
    if x.k.walkBad q (zeroAt b 13 1 && zeroAt b 28 4) then s.walkFault x.c q 0x48
    else s.modCtx x.c fun k => { k with walk := { k.walk with reqs := k.walk.reqs ++ [q] } }
  | .desc .disp r off =>
    let b := x.desc r off
    let (thr, hys) := match x.k.itin.stepPlan with | some p => (p.threshold, p.hysteresis) | none => (0, 0)
    let q := dispOf x.rel x.idx x.k.step (if thr == 0xFFFF then s.moe.threshold.toNat else thr)
      (if hys == 0xFFFF then s.moe.hysteresis.toNat else hys) b
    if x.k.dispBad q (zeroAt b 17 15) then s.dispFault x.c q 0x44
    else s.modMoe x.c fun m => { m with queue := m.queue ++ [q] }
  | _ => s

end Sys2Proof.Machine
end

