-- ==== Sys2Proof/Machine/Issue.lean ====
section
/-!
DEFINITION. The issue of a bundle (02_stations.md R36-R42, 04_station_instructions.md R93-R98, 16_tallies.md R446-R451): when a
bundle may issue, the fault that stops it, and what its four slots do together. Every station operation's row runs this.
-/

namespace Sys2Proof.Machine

/-! ### What a read sees of transfers on their way (R46, R163) -/

/-- What an incomplete operation of station `st` is writing into the saddlebag of context-relative station `rel`: the bytes as
read so far, and as they stand. -/
def State.writing (s : State) (c st rel : Nat) (x : Xfer) : List (Nat × Bytes) :=
  let a := (s.stn st).arch
  match x.kind with
  | .xld ca sa bs _ => if s.relStn c st == rel then [(sa, bs), (sa, rdBytes (s.ctx c).store ca bs.length)] else []
  | .send l src dst bs _ _ read =>
    if s.linkPeer c st l == some rel then (dst, bs) :: (if read then [] else [(dst, rdBytes a.saddle src bs.length)]) else []
  | .halo _ (some h) rows _ n =>
    if s.linkPeer c st h.link == some rel
    then (rows.zipIdx.drop n).flatMap fun (bs, r) =>
      [(h.dst + r * h.dstStride, bs), (h.dst + r * h.dstStride, rdBytes a.saddle (h.src + r * h.srcStride) h.width)]
    else []
  | _ => []

/-- The bytes that incomplete transfers of context `c` are writing into the saddlebag of its station `st`. -/
def State.incoming (s : State) (c st : Nat) : List (Nat × Bytes) :=
  (s.stnsOfCtx c).flatMap fun j => (s.stn j).arch.inflight.flatMap (s.writing c j (s.relStn c st))

/-- The saddlebag of station `st` as a read sees it now. -/
def State.saddleSeen (s : State) (c st : Nat) : Mem := racedMem s.free (s.stn st).arch.saddle (s.incoming c st)

/-- The site of station `st`, with its memories as the bundle's reads see them. -/
def State.seenSite (s : State) (st c : Nat) : Site :=
  let x := s.site st c
  { x with a := { x.a with saddle := s.saddleSeen c st }, k := { x.k with store := s.storeSeen c } }

/-- The free values of a read are used up, when it races. -/
def State.seen (s : State) (c st : Nat) : State :=
  if (s.incoming c st).isEmpty && (s.incomingStore c).isEmpty then s else { s with free := s.free + 2 }

/-! ### May it issue -/

/-- The context whose stream station `st` issues: it runs, and the station has neither finished nor stopped. -/
def State.issuing (s : State) (st : Nat) : Option Nat :=
  let t := s.stn st
  match t.ctx with
  | none => none
  | some c =>
    if t.state == 1 && (s.ctx c).state == .running && t.arch.run == .issuing && st < 1024 && c < 128 then some c else none

/-- Every accept channel takes the bundle (R37). -/
def Site.accepts (x : Site) (s : State) (b : Bundle) : Bool :=
  (match b.m with | .nop => true | .wv o => x.wvAccepts o) && x.xAccepts s b.x

/-- Why station `st` issues no bundle as it stands, the first that applies (R448, R450): what its own state says, the M accept channel,
the X accept channel. A part of the vector unit is busy for cycles alone, which `Stn.countPart` notes at the issue. -/
def State.cause (s : State) (st : Nat) : Option Nat :=
  let t := s.stn st
  if t.state != 1 then none
  else t.arch.heldBy <|> ((s.issuing st).bind fun c =>
    let x := s.seenSite st c
    x.a.nextBundle.bind fun b =>
      if !x.accepts s { b with x := .nop } then some 0x1C else if !x.accepts s b then some 0x1E else none)

/-- The station waits for the present cause, if it waits. -/
def State.noteCause (s : State) (st : Nat) : State :=
  match s.cause st with
  | some n => s.modStn st fun t => t.noteWaits [n]
  | none => s

/-- A bundle whose M slot and V slot both write one accumulator; the V slot is charged (R142). -/
def clashAcc (b : Bundle) : Bool :=
  match b.m, b.v with
  | .wv o, .vwracc _ acc _ _ => (wvAccs o).contains acc
  | _, _ => false

/-- The faults of the four slots, M, V, S, X (R98). -/
def Site.faults (x : Site) (s : State) (b : Bundle) : List (List Nat) :=
  [x.mFaults b.m, x.vFaults b.v ++ faultIf (clashAcc b) 0x11, x.sFaults s b.s, x.xFaults s b.x]

/-- The code that a fault at issue reports: the first slot's, and within it the lowest (R98). -/
def firstFault (l : List (List Nat)) : Option Nat :=
  match l.find? fun s => !s.isEmpty with
  | some (c :: rest) => some (rest.foldl Nat.min c)
  | _ => none

/-! ### Counts (R390, R446, R448, R451) -/

/-- The slots of a bundle that hold an operation: M, V, S, X. -/
def busySlots (b : Bundle) : List Bool := [b.m != .nop, b.v != .nop, b.s != .nop, b.x != .nop]

/-- Cycles for which an operation holds its part of the vector unit (R148). -/
def vOccupancy (v : VOp) : Nat :=
  match vPart v, v with
  | 0, _ => 0
  | 2, .vr _ x => if x.ty == 15 then 4 else 8
  | 3, _ => 4
  | _, _ => 1

/-- The vector unit takes an operation: one that finds its part still held has waited for it at the V accept channel (R148, R450).
Every bundle issued since has taken a cycle at the least, and a part that was held before this microsecond is free. -/
def Stn.countPart (t : Stn) (v : VOp) (now : Nat) : Stn :=
  let left (n : Nat) : List (Nat × Nat × Nat) :=
    (t.island.vBusy.filter fun y => y.2.2 == now && n < y.2.1).map fun (p, m, _) => (p, m - n, now)
  let w := match (left 1).find? fun y => y.1 == vPart v with | some y => y.2.1 | none => 0
  let t' := if w == 0 then t else t.noteWaits [0x1D]
  let l := left (1 + w)
  { t' with island := { t'.island with vBusy := if 1 < vOccupancy v then l ++ [(vPart v, vOccupancy v, now)] else l } }

/-- The station counts an issued bundle in one cycle of its island. -/
def Stn.countIssue (t : Stn) (b : Bundle) (taken : Bool) : Stn :=
  let n := (busySlots b).count true
  let p := vPart b.v
  let t := { t with
    island := { t.island with issuedWin := t.island.issuedWin + 1 }
    tally := { t.tally with
      cycles := t.tally.cycles + 1, hold := t.tally.hold + 1
      retired := t.tally.retired + BitVec.ofNat 48 n, wasted := t.tally.wasted + BitVec.ofNat 48 (4 - n)
      vPipe := t.tally.vPipe + BitVec.ofNat 48 (b2n (p == 1)), vSfu := t.tally.vSfu + BitVec.ofNat 48 (b2n (p == 2))
      vRed := t.tally.vRed + BitVec.ofNat 48 (b2n (p == 3)) } }
  let t := (busySlots b).zipIdx.foldl (fun t (x : Bool × Nat) => if x.1 then t.event (x.2 + 1) 1 else t) t
  if taken then t.event 7 1 else t

/-- The dynamic energy of an issued bundle in hundredths of pJ (R391). -/
def issueEnergy (b : Bundle) : Nat :=
  1500 + (match vPart b.v with | 1 => 4500 | 2 => 15000 | 3 => 6000 | _ => 0)

/-! ### The issue (R36, R39, R95) -/

/-- The station takes the bundle: waits are subtracted, the next index is set, the line counts as used (R41, R95, R103). -/
def Arch.take (a : Arch) (b : Bundle) (next : Nat) : Arch :=
  let i := a.next / 64
  { a.subtract b with
    next := next, issued := a.issued + 1
    istore := a.istore.map fun l => if l.line == i then { l with lastIssue := a.issued + 1 } else l }

/-- What an issued bundle does: reads as the site stood, writes in the order M, V, S, X (R39), then what its slots do beyond
the station, and the fault of a next bundle beyond the stream (R99). -/
def State.issueAt (s : State) (x : Site) (b : Bundle) : State :=
  let s := s.modStn x.st fun t => { (t.countPart b.v s.now).countIssue b (x.taken b.s) with arch := t.arch.take b (x.next b.s) }
  let s := s.charge (partOfCtx x.c) (some x.c) (issueEnergy b) (s.stn x.st).island.target
  let s := s.modCtx x.c fun k => { k with blockSince := none, blocked := none }
  let s := x.vEffect b.v (x.mEffect b.m s)
  let s := x.xEffect b.x (s.modArch x.st (x.sWrites s b.s))
  (x.xAfter b.x (x.sAfter b.s s)).streamEnd x.c x.rel

/-- The context of a station whose teardown for a program fault of another station began at this very gate time (R98). -/
def State.fallenCtx (s : State) (st : Nat) : Option Nat :=
  (ctxsOfPart (s.partOfStn st)).find? fun c => (s.stnsOfCtx c).contains st && mget {} (s.ctx c).fallen (s.relStn c st) != {} &&
    (match (s.ctx c).teardown with
      | some t => t.reason == 1 && t.since == s.now
      | none => false)

/-- The site of such a station as its next bundle found it. -/
def State.fallenSite (s : State) (st : Nat) : Option Site :=
  (s.fallenCtx st).bind fun c =>
    let rel := s.relStn c st
    let a := mget {} (s.ctx c).fallen rel
    if a.run == .issuing then some ⟨c, rel, st, a.next, a, s.ctx c⟩ else none

/-- A bundle of a station whose context another station's fault is tearing down at the same gate time: a fault of its own is
logged, and reported in place of the other's when its station's number is lower (R98). -/
def State.alsoFaults (s : State) (st : Nat) (b : Bundle) : State :=
  match s.fallenSite st with
  | none => s
  | some x =>
    if x.a.nextBundle != some b || (x.a.unmet b).isSome || !x.accepts s b then s
    else match firstFault (x.faults s b) with
      | some code => s.programFault x.c x.rel x.idx code
      | none => s

/-- The bundle `b` issues at package station `st`, or faults at issue, when it is the station's next bundle and nothing holds
it back (R36, R37, R95, R97). -/
def State.issue (s : State) (st : Nat) (b : Bundle) : State :=
  match s.issuing st with
  | none => s.alsoFaults st b
  | some c =>
    let x := s.seenSite st c
    if x.a.nextBundle != some b || (x.a.unmet b).isSome || !x.accepts s b then s
    else
      let s := s.seen c st
      match firstFault (x.faults s b) with
      | some code => s.programFault c x.rel x.idx code
      | none => s.issueAt x b

end Sys2Proof.Machine
end

