-- ==== Sys2Proof/Machine/Completion.lean ====
section
/-!
DEFINITION. What the station's engines complete (02_stations.md R38-R46, 04_station_instructions.md R107, R117-R122,
06_tiling.md R162): pending marks, line fetches, transfers, notifications, neighbour sends, halo sends, shape words.
-/

namespace Sys2Proof.Machine

/-! ### A station at work -/

/-- The context whose operations station `st` completes: it runs there or is being saved (R362 step 3). -/
def State.working (s : State) (st : Nat) : Option Nat :=
  let t := s.stn st
  match t.ctx with
  | none => none
  | some c =>
    if (t.state == 1 || t.state == 2) && ((s.ctx c).state == .running || (s.ctx c).state == .saving) && st < 1024 && c < 128
    then some c else none

/-- Context `c`, whose teardown for a program fault began at this gate time, as it stood before. -/
def State.revive (s : State) (c : Nat) : State :=
  let s := (s.modPart (partOfCtx c) fun p => { p with holder := some c }).modCtx c fun k => { k with state := .running, teardown := none }
  s.foldNat (List.range (s.stnCount c)) fun s rel => s.modStn (s.stnOfCtx c rel) fun t =>
    { t with arch := mget {} (s.ctx c).fallen rel, ctx := some c, state := 1 }

/-- What an engine does at a station of context `c` at the gate time at which another station's fault is tearing `c` down: a fault of
its own is logged, and reported in place of the other's when its station's number is lower (R98). -/
def State.alsoLate (s : State) (c : Nat) (f : State → State) : State :=
  let t := f (s.revive c)
  let s := { s with free := t.free }
  match (t.ctx c).teardown with
  | some d =>
    let n := d.station.toNat
    let s := if n < 1024 then s.modStn n fun x => { x with tally := (t.stn n).tally } else s
    (s.modCtx c fun k => { k with fallen := (t.ctx c).fallen }).programFault c (s.relStn c n) d.bundle d.detail.toNat
  | none => s.modCtx c fun k => { k with fallen := t.archsOf c }

/-- Run `f`, the work of an engine at station `st`: as it stands when the station's context runs there or is being saved, and for its
fault alone when the context falls at this gate time (R98). -/
def State.atStn (s : State) (st : Nat) (f : State → State) : State :=
  if (s.working st).isSome then f s
  else match s.fallenCtx st with
    | some c => s.alsoLate c f
    | none => s

/-- Run `f` on the `i`-th incomplete operation of station `st`, with its context. -/
def State.onXfer (s : State) (st i : Nat) (f : State → Nat → Xfer → State) : State :=
  s.atStn st fun s =>
    match s.working st, (s.stn st).arch.inflight[i]? with
    | some c, some x => f s c x
    | _, _ => s

/-- The operation leaves the queue. -/
def State.endXfer (s : State) (st : Nat) (x : Xfer) : State :=
  (s.noteCause st).modArch st fun a => { a with inflight := a.inflight.erase x }

/-- The operation changes as it goes on. -/
def State.setXfer (s : State) (st : Nat) (x : Xfer) (k : XferKind) : State :=
  s.modArch st fun a => { a with inflight := a.inflight.map fun y => if y == x then { x with kind := k } else y }

/-! ### Marks (R38, R142) -/

/-- A mark that an instruction of fixed latency set: not one that waits for a shape word or for the weave. -/
def Arch.fixedMark (a : Arch) (m : Mark) : Bool :=
  match m with
  | .s r => !a.shapes.any fun l => l.d == r
  | .acc k => !(a.weaveRun ++ a.weaveWait.toList).any fun j => (wvAccs j.op).contains k
  | _ => true

/-- PENDING_MARK_CLEAR (R38). -/
def execPendingMarkClear (st : Nat) (mark : Mark) (s : State) : Res :=
  .next (if (s.working st).isSome && (s.stn st).arch.fixedMark mark then s.modArch st (·.unmark mark) else s)

/-! ### Line fetches (R41, R42) -/

/-- The line to replace when the store is full: outside the window, first one that has never issued, then the oldest (R41). Of
several that have never issued the one that arrived first goes (DESIGN CHOICE, log entry 46: R41 orders none). -/
def victim (window : List Nat) (l : List ILine) : Option Nat :=
  let out := l.filter fun x => !window.contains x.line
  match out.find? fun x => x.lastIssue == 0 with
  | some x => some x.line
  | none => (out.foldl (fun b x => match b with
      | none => some x
      | some y => if x.lastIssue < y.lastIssue then some x else some y) none).map (·.line)

/-- A line put into the instruction store (R41). -/
def Arch.putLine (a : Arch) (window : List Nat) (n : ILine) : Arch :=
  let l := if a.istore.length < 32 then a.istore
    else match victim window a.istore with
      | some v => a.istore.filter fun x => x.line != v
      | none => a.istore
  { a with istore := l ++ [n] }

/-- LINE_FETCH_ARRIVE (R41, R42): a missing line of the window arrives; the wait of a station for its next bundle's line ends. A
line that a branch has put out of the window while its fetch was on its way is dropped (DESIGN CHOICE, log entry 46: R41 says
nothing of it). -/
def execLineFetchArrive (st line : Nat) (s : State) : Res :=
  match s.working st with
  | none => .next s
  | some c =>
    let k := s.ctx c
    let rel := s.relStn c st
    let a := (s.stn st).arch
    let w := k.lineWindow rel a.next
    let stopped := a.run == .finished || a.run == .stopped
    if k.state != .running || stopped || !w.contains line || a.istore.any fun x => x.line == line then .next s
    else
      let n := k.streamLine rel line
      let base := match k.itin.streams[rel]? with | some d => d.regionBase + 2048 * line | none => 0
      let bytes := 32 * n.words.length
      let s := if line == a.next / 64 then s.modStn st fun t => t.noteWaits [8] else s
      .next (((s.modArch st (·.putLine w n)).storeTraffic c 2 base bytes).ringBytes c st base bytes false)

/-! ### Transfers (R117, R119) -/

/-- The caravanserai range of an XLD or XST. -/
def XferKind.storeRange : XferKind → Option (Nat × Nat)
  | .xld ca _ bs _ => some (ca, bs.length)
  | .xst _ ca bs _ _ => some (ca, bs.length)
  | _ => none

/-- Two ranges share a byte. -/
def rangesMeet (p q : Nat × Nat) : Bool := p.1 < q.1 + q.2 && q.1 < p.1 + p.2

/-- An earlier XLD or XST with an overlapping caravanserai range is incomplete: they complete in issue order (R119). -/
def Arch.rangeWaits (a : Arch) (x : Xfer) : Bool :=
  match x.kind.storeRange with
  | none => false
  | some r => a.inflight.any fun y => y.ord < x.ord && (match y.kind.storeRange with
      | some q => rangesMeet q r
      | none => false)

/-- XLD_COMPLETE (R45, R113, R117): every byte is visible, then T rises. An overflow of T is the station's, with the index of its
next bundle (DESIGN CHOICE, log entry 46; see `State.incToken`). -/
def execXldComplete (st i : Nat) (s : State) : Res :=
  .next (s.onXfer st i fun s c x =>
    match x.kind with
    | .xld ca sa bs t =>
      if (s.stn st).arch.rangeWaits x then s
      else
        let (bs, s) := s.race ca bs ((s.ctx c).writes.drop x.since) (rdBytes (s.storeSeen c) ca bs.length)
          ((s.ctx c).wholeWord x.since)
        let s := (s.endXfer st x).modArch st fun a =>
          let a := a.store sa bs
          { a with wide := a.wide ++ moveRanges (s.ctx c).wide ca bs.length sa }
        let s := ((s.storeTraffic c 2 ca bs.length).ringBytes c st ca bs.length false).freeRead c
        s.incToken c (s.relStn c st) t 1 .transfer false none
    | _ => s)

/-- XST_COMPLETE (R45, R113, R117, R212): every byte is visible, T rises, and a notification sets out. A page that has lost its
writable mark meanwhile is a fault after issue. -/
def execXstComplete (st i : Nat) (s : State) : Res :=
  .next (s.onXfer st i fun s c x =>
    match x.kind with
    | .xst sa ca bs t note =>
      let rel := s.relStn c st
      if (s.stn st).arch.rangeWaits x then s
      else if ((s.ctx c).stationFault true ca bs.length).isSome then s.lateFault c rel x.bundle 3 0x15
      else
        let (bs, s) := s.race sa bs ((s.stn st).arch.writes.drop x.since) (rdBytes (s.saddleSeen c st) sa bs.length)
        let wide := moveRanges (s.stn st).arch.wide sa bs.length ca
        let s := (((s.endXfer st x).put c ca bs).modCtx c fun k => { k with wide := k.wide ++ wide }).ringBytes c st ca bs.length true
        let s := match note with
          | some (j, u) => s.modArch st fun a => { a with notices := a.notices ++ [(⟨j, u, x.bundle⟩ : Notice)] }
          | none => s
        s.incToken c rel t 1 .transfer false none
    | _ => s)

/-- XST_NOTIFY_DELIVER (R44, R117). -/
def execXstNotifyDeliver (st i : Nat) (s : State) : Res :=
  .next (s.atStn st fun s =>
    match s.working st, (s.stn st).arch.notices[i]? with
    | some c, some n =>
      (s.modArch st fun a => { a with notices := a.notices.eraseIdx i }).incToken c n.target n.t 1 .notification true
        (some (s.relStn c st, n.bundle, 3))
    | _, _ => s)

/-- XNOTE_DELIVER (R44, R117, R119): after every byte of every earlier store and send of the station. -/
def execXnoteDeliver (st i : Nat) (s : State) : Res :=
  .next (s.onXfer st i fun s c x =>
    match x.kind with
    | .note j t n =>
      if s.writesOpen st x.ord then s
      else (s.endXfer st x).incToken c j t n .notification true (some (s.relStn c st, x.bundle, 3))
    | _ => s)

/-! ### Neighbour sends (R119, R121, R162) -/

/-- The link that a send uses; a halo send's is not known before its descriptor is copied. -/
def XferKind.link : XferKind → Option (Option Nat)
  | .send l .. => some (some l)
  | .halo _ h .. => some (h.map (·.link))
  | _ => none

/-- Every source byte of the operation has been read. -/
def XferKind.isRead : XferKind → Bool
  | .send _ _ _ _ _ _ r => r
  | .halo _ _ _ r _ => r
  | _ => true

/-- An earlier send of the station holds the link `l`, or may: one that is incomplete, or with `unread` one still being read. -/
def Arch.linkWaits (a : Arch) (x : Xfer) (l : Nat) (unread : Bool) : Bool :=
  a.inflight.any fun y => y.ord < x.ord && !(unread && y.kind.isRead) && (match y.kind.link with
    | some (some m) => m == l
    | some none => true
    | none => false)

/-- XSEND_SOURCE_READ (R121, R162): the source has been read and TL rises. -/
def execXsendSourceRead (st i : Nat) (s : State) : Res :=
  .next (s.onXfer st i fun s c x =>
    match x.kind with
    | .send l src dst bs tl tr false =>
      if (s.stn st).arch.linkWaits x l true then s
      else
        let (bs, s) := s.race src bs ((s.stn st).arch.writes.drop x.since) (rdBytes (s.saddleSeen c st) src bs.length)
        let s := (s.setXfer st x (.send l src dst bs tl tr true)).chan c st bs.length
        s.incToken c (s.relStn c st) tl 1 .neighbour false none
    | _ => s)

/-- XSEND_DELIVER (R45, R121, R162): the bytes are visible at the neighbour and TR rises there. -/
def execXsendDeliver (st i : Nat) (s : State) : Res :=
  .next (s.onXfer st i fun s c x =>
    match x.kind with
    | .send l src dst bs _ tr true =>
      match s.linkPeer c st l with
      | none => s
      | some far =>
        if (s.stn st).arch.linkWaits x l false then s
        else
          let wide := moveRanges (s.stn st).arch.wide src bs.length dst
          let s := (s.endXfer st x).modArch (s.stnOfCtx c far) fun a =>
            let a := a.store dst bs
            { a with wide := a.wide ++ wide }
          s.incToken c far tr 1 .neighbour true (some (s.relStn c st, x.bundle, 3))
    | _ => s)

/-! ### Halo sends (R122, R162) -/

/-- HALO_DESCRIPTOR_COPY (R97, R122): the descriptor is checked, a fault after issue when it breaks R122; otherwise the rows
are as the saddlebag holds them now. -/
def execHaloDescriptorCopy (st i : Nat) (s : State) : Res :=
  .next (s.onXfer st i fun s c x =>
    match x.kind with
    | .halo b none _ _ _ =>
      let h := haloOf b
      match haloFault b (s.linkPeer c st h.link).isSome with
      | some code => s.lateFault c (s.relStn c st) x.bundle 3 code
      | none =>
        let a := (s.stn st).arch
        let rows := (List.range h.count).map fun r => rdBytes (a.source s.free a.saddle) (h.src + r * h.srcStride) h.width
        (s.sourced a).setXfer st x (.halo b (some h) rows false 0)
    | _ => s)

/-- Rows `lo .. hi - 1` of a halo send leave: each byte is what it was at the copy or is now (R46). -/
def State.readRows (s : State) (c st since : Nat) (h : Halo) (rows : List Bytes) (lo hi : Nat) : List Bytes × State :=
  (List.range rows.length).foldl (fun (acc : List Bytes × State) r =>
    let (l, s) := acc
    let old := rows.getD r []
    if lo ≤ r && r < hi then
      let a := h.src + r * h.srcStride
      let (bs, s) := s.race a old ((s.stn st).arch.writes.drop since) (rdBytes (s.saddleSeen c st) a h.width)
      (l ++ [bs], s)
    else (l ++ [old], s)) ([], s)

/-- HALO_SOURCE_READ (R122, R162): the last row has left and the local token rises. -/
def execHaloSourceRead (st i : Nat) (s : State) : Res :=
  .next (s.onXfer st i fun s c x =>
    match x.kind with
    | .halo b (some h) rows false n =>
      if (s.stn st).arch.linkWaits x h.link true then s
      else
        let (rows, s) := s.readRows c st x.since h rows n h.count
        let s := (s.setXfer st x (.halo b (some h) rows true n)).chan c st (h.width * h.count)
        s.incToken c (s.relStn c st) h.localTok 1 .neighbour false none
    | _ => s)

/-- Rows `lo .. hi - 1` are written at the neighbour in ascending order (R122). -/
def State.putRows (s : State) (st : Nat) (wide : List (Nat × Nat)) (h : Halo) (rows : List Bytes) (lo hi : Nat) : State :=
  s.modArch st fun a => (List.range (hi - lo)).foldl (fun a j =>
    let dst := h.dst + (lo + j) * h.dstStride
    let a := a.store dst (rows.getD (lo + j) [])
    { a with wide := a.wide ++ moveRanges wide (h.src + (lo + j) * h.srcStride) h.width dst }) a

/-- HALO_DELIVER (R45, R122, R162): with PER_ROW one row, which may cross before a later row has left; otherwise all of them.
The remote token rises once for it. Until then a read at the destination gives each byte old or new, freely (R46, R163:
`State.incoming`). -/
def execHaloDeliver (st i : Nat) (s : State) : Res :=
  .next (s.onXfer st i fun s c x =>
    match x.kind with
    | .halo b (some h) rows read n =>
      match s.linkPeer c st h.link with
      | none => s
      | some far =>
        let hi := if h.perRow then n + 1 else h.count
        if (s.stn st).arch.linkWaits x h.link false || (!read && hi == h.count) then s
        else
          let (rows, s) := if read then (rows, s) else s.readRows c st x.since h rows n hi
          let s := if hi == h.count then s.endXfer st x else s.setXfer st x (.halo b (some h) rows read hi)
          let s := s.putRows (s.stnOfCtx c far) (s.stn st).arch.wide h rows n hi
          s.incToken c far h.remoteTok 1 .neighbour true (some (s.relStn c st, x.bundle, 3))
    | _ => s)

/-! ### Shape words (R107) -/

/-- LDSHP_ARRIVE (R107): reserved bits, then the maximum; D is written, its mark clears and T rises. -/
def execLdshpArrive (st i : Nat) (s : State) : Res :=
  .next (s.atStn st fun s =>
    match s.working st, (s.stn st).arch.shapes[i]? with
    | some c, some l =>
      let k := s.ctx c
      let rel := s.relStn c st
      let addr := match k.itin.shapes.find? fun e => e.slot == l.slot with | some e => e.addr | none => 0
      let s := (s.storeTraffic c 2 addr 8).ringBytes c st addr 8 false
      if l.word.toNat / 2 ^ 32 != 0 then s.lateFault c rel l.bundle 2 0x1B
      else if k.shapeMax l.slot < l.word.toNat then s.lateFault c rel l.bundle 2 0x1A
      else
        let s := s.modArch st fun a => ({ a with shapes := a.shapes.eraseIdx i } : Arch).putS l.d l.word |>.unmark (.s l.d)
        s.incToken c rel l.t 1 .shape false none
    | _, _ => s)

end Sys2Proof.Machine
end

