-- ==== Sys2Proof/Machine/Weave.lean ====
section
/-!
DEFINITION. The weave at work (05_weave_and_vector.md R138-R144, 07_central_store.md R192): a WV issues, starts, takes its
top-ups and completes.
-/

namespace Sys2Proof.Machine

/-- WV (R138). -/
def execWv (st : Nat) (b : Bundle) (w : WvOp) (s : State) : Res :=
  .next (s.issue st { b with m := .wv w })

/-- The context whose weave runs at station `st`: a pre-emption stops it (R362 step 2). -/
def State.weaving (s : State) (st : Nat) : Option Nat :=
  match s.working st with
  | some c => if (s.ctx c).state == .running then some c else none
  | none => none

/-- Every top-up that the job needs has arrived. -/
def WvJob.topped (j : WvJob) : Bool := j.topupNeed.length ≤ j.topups.length

/-- The weave starts its next instruction: the one that has filled on an idle weave, or the one that waits behind another,
which has then ended (R140, R141). -/
def Arch.startWeave (a : Arch) : Arch :=
  if a.weaveRun.any fun j => !j.started then { a with weaveRun := a.weaveRun.map fun j => { j with started := true } }
  else if !a.weaveRun.all (·.topped) then a
  else
    match a.weaveWait with
    | some j => { a with weaveRun := a.weaveRun ++ [{ j with started := true }], weaveWait := none }
    | none => a

/-- WV_START (R140). -/
def execWvStart (st : Nat) (s : State) : Res :=
  .next (if (s.weaving st).isSome then (s.noteCause st).modArch st Arch.startWeave else s)

/-! ### Top-ups (R73, R144, R192) -/

/-- The image offsets of the top-up records of a chunk, column by column. -/
def WvJob.topupRecords (j : WvJob) (t : Tensor) (c : Nat) : List Nat :=
  let g := j.args
  (List.range g.cols).map fun q => t.topup + 128 * (g.record0 + q * g.rowRecords + c)

/-- The caravan engine fetches the top-up records of chunk `c` that this package holds: HBM bytes in the compiled class; a poisoned
granule tears the context down (R192, R196). -/
def State.fetchTopups (s : State) (c : Nat) (j : WvJob) (chunk : Nat) : State :=
  match j.plane (s.ctx c), s.imageOf c with
  | some t, some g =>
    let l := (j.topupRecords t chunk).filter fun o => (s.awayHome c o).isNone
    if l.any fun o => g.poisoned o 128 then s.beginTeardown c 5
    else l.foldl (fun s o => s.imageTraffic (partOfCtx c) g.regions 1 o 128 (some c)) s
  | _, _ => s

/-- The borrowed lane of the asking station's group whose BORROW_TENSOR a job names: the lane's place among the group's lanes gives the
expert it holds (R254, R275). -/
def Ctx.lentTo (k : Ctx) (rel : Nat) (j : WvJob) : Option LentLane :=
  match k.itin.stepPlan with
  | none => none
  | some p => k.moe.lent.find? fun x => match p.groups[x.group]? with
    | some g => g.stations.contains rel && g.borrowTensor + x.lane == j.args.tensor
    | none => false

/-- Where the records of a chunk lie in the home's image: the spec does not say how the origin learns it, so the plane's place
there is a constant of the model (R275). -/
def WvJob.lentRecords (j : WvJob) (x : LentLane) (c : Nat) : List Nat :=
  let g := j.args
  (List.range g.cols).map fun q => Config.topupPlace x.layer x.expert + 128 * (g.record0 + q * g.rowRecords + c)

/-- The records of a chunk, column by column: the image offset of each, and its home where another package holds it: the home of a
borrowed lane's expert (R275), or of a granule of a distributed region (R186). A record index beyond the tensor's plane is no fault,
and the bytes that the image holds there are taken (DESIGN CHOICE, log entry 46: R144 says nothing of it). -/
def State.chunkRecords (s : State) (c st : Nat) (j : WvJob) (chunk : Nat) : List (Nat × Option Nat) :=
  match (s.ctx c).lentTo (s.relStn c st) j, j.plane (s.ctx c) with
  | some x, _ => (j.lentRecords x chunk).map fun o => (o, some x.home)
  | none, some t => (j.topupRecords t chunk).map fun o => (o, s.awayHome c o)
  | none, none => []

/-- The 256-byte reads that bring the records of other packages: place and home (R294). -/
def awayReads (l : List (Nat × Option Nat)) : List (Nat × Nat) :=
  (l.filterMap fun (o, h) => h.map fun h => (o / 256 * 256, h)).dedup

/-- The caravan engine asks the homes for a chunk's records (R275, R301). -/
def State.askTopups (s : State) (c st : Nat) (l : List (Nat × Nat)) : State :=
  let s := s.modCtx c fun k => { k with caravan := { k.caravan with
    topAsked := k.caravan.topAsked ++ [st], topGot := k.caravan.topGot.filter fun y => y.1 != st } }
  l.foldl (fun s (o, h) => s.engineSend c h 0x01 1 0 (imageWindow + o) [] (.topup st o)) s

/-- Every record of other packages has come. -/
def Ctx.topsHere (k : Ctx) (st : Nat) (l : List (Nat × Nat)) : Bool :=
  k.caravan.topAsked.contains st && l.all fun (o, _) => k.caravan.topGot.any fun y => y.1 == st && y.2.1 == o

/-- A record's bytes: from this package's image, or as its home answered (R186, R192, R275). -/
def State.topupBytes (s : State) (c st : Nat) (x : Nat × Option Nat) : Bytes :=
  match x.2, s.imageOf c with
  | none, some g => s.imageBytes (partOfCtx c) g.id x.1 128
  | none, none => List.replicate 128 0
  | some _, _ => match (s.ctx c).caravan.topGot.find? fun y => y.1 == st && y.2.1 == x.1 / 256 * 256 with
    | some (_, _, b) => slice b (x.1 % 256) 128
    | none => List.replicate 128 0

/-- A chunk's records are taken: their data passes through the slice of the station, and what homes have answered is used up (R168,
R192, R275). -/
def State.takeTopups (s : State) (c st n : Nat) : State :=
  let s := s.modCtx c fun k => { k with caravan := { k.caravan with
    topAsked := k.caravan.topAsked.erase st, topGot := k.caravan.topGot.filter fun y => y.1 != st } }
  (s.modStn st fun x => x.sliceBytes 2 (128 * n)).charge (partOfCtx c) (some c) (12 * 128 * n) (s.stn st).island.target

/-- The top-ups of a chunk, column by column: fetched from this package's image, and as homes have answered; none while a home has still
to be asked or to answer, with the state in which it has been asked (R186, R192, R275). -/
def State.bringTopups (s : State) (c st : Nat) (j : WvJob) (chunk : Nat) : Option (List Bytes) × State :=
  let l := s.chunkRecords c st j chunk
  let away := awayReads l
  if away.isEmpty || (s.ctx c).topsHere st away then
    let s' := if ((s.ctx c).lentTo (s.relStn c st) j).isSome then s else s.fetchTopups c j chunk
    (some (l.map (s.topupBytes c st)), if (s'.ctx c).state == .tearingDown then s' else s'.takeTopups c st l.length)
  else if (s.ctx c).caravan.topAsked.contains st then (none, s)
  else (none, s.askTopups c st away)

/-- One more chunk's top-ups have arrived. -/
def WvJob.gain (j : WvJob) (now : Nat) (l : List Bytes) : WvJob :=
  { j with topups := j.topups ++ [l], gainedAt := now, gained := 1 + if j.gainedAt == now then j.gained else 0 }

/-- Bytes of a chunk's top-ups: a record of 128 bytes for each column (R144). -/
def WvJob.topupSize (j : WvJob) : Nat := 128 * j.args.cols

/-- Bytes of a job's top-ups that lie in the buffer: those that have arrived, and of an instruction that has started those that arrived
at this very time, since its earlier chunks may have run (R144). -/
def WvJob.topupHeld (j : WvJob) (now : Nat) : Nat :=
  j.topupSize * (if !j.started then j.topups.length else if j.gainedAt == now then j.gained else 0)

/-- The 256 KiB top-up buffer has room for the top-ups of a chunk of job `i`, beside those it holds (R144). -/
def Arch.topupRoom (a : Arch) (now : Nat) (i : WvJob) : Bool :=
  ((a.weaveRun ++ a.weaveWait.toList).map (·.topupHeld now)).sum + ((a.topups.getD []).map (·.length)).sum + i.topupSize ≤ 0x40000

/-- The job of the next bundle's WV when it stands at the M accept channel for its first top-ups (R144). -/
def State.atAccept (s : State) (st : Nat) : Option WvJob :=
  match s.issuing st with
  | none => none
  | some c =>
    let x := s.seenSite st c
    match x.a.nextBundle with
    | none => none
    | some b =>
      match b.m with
      | .nop => none
      | .wv o =>
        let j := x.job o
        if (x.a.unmet b).isSome || x.a.weaveWait.isSome || x.a.topups.isSome || x.wvFaults o != [] || j.topupNeed.isEmpty then none
        else some j

/-- TOPUP_ARRIVE (R144): the top-ups of the next detoured chunk are in the buffer, for the oldest accepted instruction that
lacks some, else for the one at the accept channel; records that another package holds are first asked of their homes (R186, R275). How many cycles a
running instruction has waited for them is a free value (R451). -/
def execTopupArrive (st : Nat) (s : State) : Res :=
  match s.weaving st with
  | none => .next s
  | some c =>
    let a := (s.stn st).arch
    match (a.weaveRun ++ a.weaveWait.toList).find? fun j => !j.topped with
    | some j =>
      if !a.topupRoom s.now j then .next s
      else
        match s.bringTopups c st j (j.topupNeed.getD j.topups.length 0) with
        | (none, s) => .next s
        | (some l, s) =>
          if (s.weaving st).isNone then .next s
          else
          let (e, s) := s.draw
          let s := s.modArch st fun a => { a with
            weaveRun := a.weaveRun.map fun i => if i == j then j.gain s.now l else i
            weaveWait := a.weaveWait.map fun i => if i == j then j.gain s.now l else i }
          .next (if j.started then s.modStn st fun t => t.event 6 (Config.openValue e).toNat else s)
    | none =>
      match s.atAccept st with
      | none => .next s
      | some j =>
        if !a.topupRoom s.now j then .next s
        else
          match s.bringTopups c st j (j.topupNeed.getD 0 0) with
          | (none, s) => .next s
          | (some l, s) => .next (if (s.weaving st).isNone then s else (s.noteCause st).modArch st fun a => { a with topups := some l })

/-! ### Completion (R140, R446, R451) -/

/-- The weave of station `st` counts `n` busy cycles and `m` slice bytes of its class, and charges them at the island's present
target (R390, R446). -/
def State.busyWeave (s : State) (c st n m : Nat) : State :=
  let s := s.modStn st fun t =>
    { t with tally := { t.tally with weaveBusy := t.tally.weaveBusy + BitVec.ofNat 48 n } }.sliceBytes 1 m
  s.charge (partOfCtx c) (some c) (90000 * n + 12 * m) (s.stn st).island.target

/-- A running weave counts what it has done of its job up to now, before a target changes or a period of the governor ends: how
much of what is left is free (R390; log entry 36). -/
def State.weaveSoFar (s : State) (st : Nat) : State :=
  match s.weaving st, (s.stn st).arch.weaveRun with
  | some c, j :: rest =>
    if !j.started then s
    else
      let (d, s) := s.draw
      let (e, s) := s.draw
      let n := (Config.openValue d).toNat % (j.cycles - j.counted + 1)
      let m := (Config.openValue e).toNat % (j.sliceBytes - j.countedBytes + 1)
      (s.busyWeave c st n m).modArch st fun a => { a with
        weaveRun := { j with counted := j.counted + n, countedBytes := j.countedBytes + m } :: rest }
  | _, _ => s

/-- A weave counts its last busy cycles and slice bytes of a job, and its detoured chunks (R140, R143). -/
def State.countWeave (s : State) (c st : Nat) (j : WvJob) : State :=
  let d := ((List.range j.chunks).filter j.chunkDetours).length
  (s.busyWeave c st (j.cycles - j.counted) (j.sliceBytes - j.countedBytes)).modStn st (·.event 5 d)

/-- The job's values are in the accumulators and their marks clear (R140, R142). -/
def State.writeAccs (s : State) (c st : Nat) (j : WvJob) : State :=
  let (d0, s) := s.draw
  let (d1, s) := s.draw
  let a := (s.stn st).arch
  let k := s.ctx c
  let read (own : Bool) (x n : Nat) : Bytes := (List.range n).map fun i =>
    if own then raceAt j.store (k.writes.drop j.sinceStore) (s.storeSeen c) (k.wholeWord j.sinceStore) d1 (x + i)
    else raceAt j.saddle (a.writes.drop j.sinceSaddle) (s.saddleSeen c st) (fun _ => false) d0 (x + i)
  s.modArch st fun a =>
    let a := { a with accs := j.results read a.accs, weaveRun := a.weaveRun.drop 1 }
    (wvAccs j.op).foldl (fun a k => a.unmark (.acc k)) a

/-- WV_COMPLETE (R140): the oldest started instruction completes; T rises when TEN is set. -/
def execWvComplete (st : Nat) (s : State) : Res :=
  .next (s.atStn st fun s =>
    match s.weaving st, (s.stn st).arch.weaveRun with
    | some c, j :: _ =>
      if !j.started || !j.topped then s
      else
        let s := ((s.writeAccs c st j).countWeave c st j).freeRead c
        if j.op.ten then s.incToken c (s.relStn c st) j.op.t.toNat 1 .weave false none else s
    | _, _ => s)

end Sys2Proof.Machine
end

