-- ==== Sys2Proof/Machine/Supply.lean ====
section
/-!
DEFINITION. Envelope grants and leases, the draw ledger's windows, thermal crossings and trips, and supply events
(13_power_thermal.md R376-R379, R386-R389, R394-R403).
-/

namespace Sys2Proof.Machine

/-! ### The envelope (R377, R378) -/

/-- What an ENVELOPE_GRANT does (R377); its reply tells the time left that `left` gives. -/
def State.grantNow (s : State) (p : Pkt) (left : State → Nat) : State :=
  s.withParams p 16 [(12, 4)] fun s =>
    let w := beAt p.params 0 4
    let fb := beAt p.params 4 4
    let l := beAt p.params 8 4
    if w < 2400 || 4000 < w then s.reply p 0x0105 0
    else if fb != 0 && (fb < 2400 || 4000 < fb) then s.reply p 0x0105 4
    else if l != 0 && (l < 10 || 3600 < l) then s.reply p 0x0105 8
    else
      let secs := if l == 0 then 300 else l
      let s := if fb == 0 then s else { s with nv := { s.nv with fallbackW := fb } }
      let s := s.setEnvelope w 1 (some (s.now + ms (1000 * secs)))
      let s := { s with gov := { s.gov with grantGen := satAdd 32 s.gov.grantGen 1 } }
      s.reply p 0 0 (toBe 4 w ++ toBe 4 (left s) ++ toBe 4 s.gov.grantGen ++ toBe 4 0)

/-- An ENVELOPE_GRANT's packet is received. -/
def State.grant (s : State) (p : Pkt) (left : State → Nat) : State := s.receive 0x70 p fun s p _ => s.grantNow p left

/-- The envelope has been set between two states. -/
def State.granted (s t : State) : Bool := s.gov.envLog.length != t.gov.envLog.length

/-- A grant that stands among the commands of this gate-die cycle would be accepted (R378). -/
def State.grantsNow (s : State) : Bool :=
  s.pending.any fun i => match i with
    | .envelopeGrant q => s.granted (s.grant q fun _ => 0)
    | _ => false

/-- An ENVELOPE_DROP's reply and effect (R341, R378). -/
def State.drop (s : State) (p : Pkt) : State :=
  let w := s.nv.fallbackW
  let s := (s.reply p 0 0 (toBe 4 w ++ toBe 4 0)).toFallback 3
  ({ s with gov := { s.gov with droppedAt := some s.now } }.gvEvent 1).powerEvent 2 0 0 w

/-- ENVELOPE_DROP (R341, R378): a reply, then the fallback envelope; after a grant of the same gate-die cycle, where one stands among
the commands that wait. -/
def execEnvelopeDrop (p : Pkt) (s : State) : Res :=
  .next (s.receive 6 p fun s p _ => s.withParams p 0 [] fun s =>
    if s.grantsNow then { s with gov := { s.gov with droppedAt := some s.now, dropWaits := s.gov.dropWaits ++ [p] } } else s.drop p)

/-- The drops that waited for a grant of this gate-die cycle take their effect; the envelope stays dropped if one has run before it
(R378). -/
def State.dropAfter (s : State) : State :=
  if s.gov.droppedAt != some s.now then s
  else if s.gov.dropWaits.isEmpty then s.toFallback 3
  else s.gov.dropWaits.foldl State.drop { s with gov := { s.gov with dropWaits := [] } }

/-- A hardware-path ENVELOPE_DROP falls in this gate-die cycle (R378): it has come, or stands among the commands that wait. -/
def State.dropsNow (s : State) : Bool :=
  s.gov.droppedAt == some s.now || s.pending.any fun i => match i with
    | .envelopeDrop q => (match execEnvelopeDrop q s with | .next t => t.gov.droppedAt == some s.now | _ => false)
    | _ => false

/-- ENVELOPE_GRANT (R377, R378): of a drop and a grant in one gate-die cycle the drop stands, and the reply carries no time. -/
def execEnvelopeGrant (p : Pkt) (s : State) : Res :=
  let t := s.grant p fun s => if s.dropsNow then 0 else s.leaseLeft
  .next (if s.granted t || (!t.gov.dropWaits.isEmpty && !t.grantsNow) then t.dropAfter else t)

/-- LEASE_EXPIRE (R378). -/
def execLeaseExpire (s : State) : Res :=
  match s.gov.leaseEnd with
  | none => .next s
  | some t =>
    if s.now < t then .next s
    else .next ((s.toFallback 2 |>.gvEvent 0).powerEvent 1 0 0 s.nv.fallbackW)

/-! ### The draw ledger (R386-R389) -/

/-- The kept windows, oldest first: the closed ones and the open one (R388). -/
def State.kept (s : State) : List LedgerRec :=
  s.gov.windows.reverse ++ (if s.gov.meterSince.isSome then [s.openRecord s.now true false] else [])

/-- Reply with ledger records (R388). -/
def State.replyRecords (s : State) (p : Pkt) (l : List LedgerRec) : State :=
  if l.isEmpty then s.reply p 0x0105
  else s.reply p 0 0 (toBe 2 l.length ++ toBe 6 0 ++ l.flatMap (·.toBytes))

/-- LEDGER_READ (R388). -/
def execLedgerRead (p : Pkt) (s : State) : Res :=
  .next (s.receive 0x71 p fun s p _ => s.withLength p 8 fun s =>
    let first := beAt p.params 0 4
    let n := beAt p.params 4 2
    let f := beAt p.params 6 2
    if 2 ≤ f then s.reply p 0x0102 6
    else if f == 1 then s.replyRecords p (match s.nv.savedRec with | some r => [r] | none => [])
    else if n == 0 || 16 < n then s.reply p 0x0105 4
    else
      let from_ := match s.kept with | r :: _ => max first r.window | [] => first
      s.replyRecords p ((s.kept.filter fun r => from_ ≤ r.window && r.window < from_ + n).take n))

/-- LEDGER_WINDOW_CLOSE (R386, R389): the open window's 60 s have ended. -/
def execLedgerWindowClose (s : State) : Res :=
  let end_ := ms (60000 * (s.gov.openWindow + 1))
  if s.gov.meterSince.isNone || s.now < end_ || !s.bring.powered then .next s
  else
    let r := s.openRecord end_ false false
    let ok := bitOf r.flags 1
    let w := (envsIn s.gov.envLog end_ end_).headD s.gov.envelope
    let log := (s.gov.envLog.filter fun (t, _) => end_ < t) ++ [(end_, w)]
    let s := { s with gov := { s.gov with
      windows := (r :: s.gov.windows).take 64
      openWindow := s.gov.openWindow + 1, openStart := end_, openFallback := s.gov.source != 1, openBreach := false
      openModel := 0, envLog := log } }
    let s := if ok then s else s.gvEvent 3
    .next (s.powerEvent 4 (b2n ok) 0 r.peak1sW 0 r.window)

/-! ### Temperatures (R194, R394-R396, R403) -/

/-- A sensor's number among all sensors, and its SENSOR code (R394, R403). -/
def sensorKey : Sensor → Nat → Nat × Nat
  | .island, i => (i, 1)
  | .hbm, i => (1024 + i, 2)
  | .gate, i => (1056 + i, 3)
  | .converter, i => (1060 + i, 4)

/-- How many sensors of a kind there are (R394). -/
def sensorCount : Sensor → Nat
  | .island => 1024 | .hbm => 32 | .gate => 4 | .converter => 4

/-- The control point of a sensor. -/
def controlPoint : Sensor → Int
  | .converter => 110
  | _ => 95

/-- The trip point of a sensor. -/
def tripPoint : Sensor → Int
  | .island => 115 | .hbm => 105 | .gate => 115 | .converter => 125

/-- The THERMAL event (R403). -/
def State.thermalEvent (s : State) (kind : Nat) (x : Sensor) (i : Nat) (temp : Int) : State :=
  s.postEvent 0x8011 0xFFFF (toBe 1 kind ++ toBe 1 (sensorKey x i).2 ++ toBe 2 i ++ toBe 1 (tempField temp) ++ toBe 3 0)

/-- Report the side a sensor is on (R394). -/
def State.reportSide (s : State) (x : Sensor) (i : Nat) : State :=
  let k := (sensorKey x i).1
  let v := s.sens k
  (s.modSens k fun v => { v with reported := v.above, lastEvent := some s.now, held := false }).thermalEvent
    (if v.above then 1 else 2) x i v.temp

/-- A crossing is reported at once, or waits for the end of the sensor's 100 ms (R394). -/
def State.crossed (s : State) (x : Sensor) (i : Nat) : State :=
  let k := (sensorKey x i).1
  match (s.sens k).lastEvent with
  | some t => if s.now < t + ms 100 then s.modSens k fun v => { v with held := true } else s.reportSide x i
  | none => s.reportSide x i

/-- THERMAL_CROSSING (R394): a sensor's reading, and the crossing of its control point that it makes, if any. -/
def execThermalCrossing (x : Sensor) (i : Nat) (temp : Int) (s : State) : Res :=
  let k := (sensorKey x i).1
  if sensorCount x ≤ i || !s.bring.powered then .next s
  else
    let was := (s.sens k).above
    let s := s.modSens k fun v => { v with temp := temp }
    if !was && controlPoint x ≤ temp then
      let s := (s.modSens k fun v => { v with above := true }).gvEvent 4
      let s := match x with | .hbm => s.hbEvent i 2 | _ => s
      .next (s.crossed x i)
    else if was && temp ≤ controlPoint x - 5 then .next ((s.modSens k fun v => { v with above := false }).crossed x i)
    else .next s

/-- THERMAL_REPORT_HOLDOFF (R394): the 100 ms end, and a change of side is reported. -/
def execThermalReportHoldoff (x : Sensor) (i : Nat) (s : State) : Res :=
  let k := (sensorKey x i).1
  let v := s.sens k
  if sensorCount x ≤ i || !v.held then .next s
  else
    match v.lastEvent with
    | none => .next s
    | some t =>
      if s.now < t + ms 100 then .next s
      else if v.above == v.reported then .next (s.modSens k fun v => { v with held := false })
      else .next (s.reportSide x i)

/-- THERMAL_TRIP (R395). The reports of drains under way and every other reply still owed are not sent (R476). -/
def execThermalTrip (x : Sensor) (i : Nat) (temp : Int) (s : State) : Res :=
  let k := (sensorKey x i).1
  if sensorCount x ≤ i || temp < tripPoint x || !s.bring.powered then .next s
  else
    let s := s.modSens k fun v => { v with temp := temp }
    let s := ({ s with gov := { s.gov with thermtrip := true } }.departure 3).dropOwed
    let s := (s.thermalEvent 3 x i temp).tearDownAll 6
    .next s.diesOff.halted.beginQuiet

/-- HBM_DOUBLED_REFRESH (R194): refresh is doubled while the stack reports more than 85 degrees. -/
def execHbmDoubledRefresh (stack : Nat) (temp : Int) (s : State) : Res :=
  if 32 ≤ stack || !s.bring.diesOn then .next s
  else
    let hot := decide (85 < temp)
    let was := (s.stk stack).doubled
    let s := s.modSens (1024 + stack) fun v => { v with temp := temp }
    let s := s.modStk stack fun k => { k with doubled := hot }
    .next (if hot && !was then s.hbEvent stack 3 else s)

/-! ### The input (R397-R400, R435) -/

/-- The last-gasp save is armed: GATE_FW is written and the reservoir is charged (R435). -/
def State.armed (s : State) : Bool := s.bring.romDone && s.bring.reservoir

/-- The side of 40.0-59.5 V on which an input lies: 1 low, 2 high, 0 neither (R397, R403). -/
def supplySide (mv : Nat) : Nat := if mv < 40000 then 1 else if 59500 < mv then 2 else 0

/-- The input leaves 40.0-59.5 V on one side (R397): reported once until the clearing report, and again when it has been back in
range or comes from the other side (DEDUCED, log entry 17). -/
def State.leaveRange (s : State) (mv : Nat) : State :=
  let known := s.gov.supplyOut && supplySide s.gov.inputMv == supplySide mv
  let s := { s with gov := { s.gov with inputMv := mv } }
  if known || supplySide mv == 0 then s
  else ({ s with gov := { s.gov with supplyOut := true } }.gvEvent 5).powerEvent 5 (supplySide mv) 0 mv

/-- The shed acts from step 4 of R434 onward: every island's target is 1,000 MHz (R398, R435). -/
def State.beginShed (s : State) (mv : Nat) : State :=
  if s.gov.shed || 38000 ≤ mv || !s.bring.diesOn then s
  else
    let s := { s with gov := { s.gov with shed := true } }
    let s := s.foldNat (List.range 1024) fun s i => (s.weaveSoFar i).modStn i fun t =>
      { t with island := { t.island with target := 1000, lowWin := 2 } }
    (s.gvEvent 6).powerEvent 6 0 0 mv

/-- The input falls: its reports, and the loss of power of a package whose save is not armed (R397, R398, R435). -/
def State.inputMoves (s : State) (mv : Nat) : State :=
  if !s.bring.powered then s
  else if mv < 34000 && !s.armed then { s with gov := { s.gov with inputMv := mv } }.powerOff
  else (s.leaveRange mv).beginShed mv

/-- SUPPLY_OUT (R397). -/
def execSupplyOut (mv : Nat) (s : State) : Res :=
  .next (if 40000 ≤ mv && mv ≤ 59500 then s else s.inputMoves mv)

/-- SUPPLY_OUT_CLEAR (R397): 1 ms back inside 40.5-59.0 V. -/
def execSupplyOutClear (mv : Nat) (s : State) : Res :=
  if !s.gov.supplyOut || mv < 40500 || 59000 < mv || !s.bring.powered then .next s
  else .next ({ s with gov := { s.gov with supplyOut := false, inputMv := mv } }.powerEvent 5 3 0 mv)

/-- SHED (R398). -/
def execShed (mv : Nat) (s : State) : Res := .next (if 38000 ≤ mv then s else s.inputMoves mv)

/-- SHED_END (R398): the loop resumes at the governor's next period. -/
def execShedEnd (mv : Nat) (s : State) : Res :=
  if !s.gov.shed || mv < 40000 || !s.bring.powered then .next s
  else .next ({ s with gov := { s.gov with shed := false, inputMv := mv } }.powerEvent 7 0 0 mv)

/-- LAST_GASP_SAVE (R399, R435): the input was at `mv`, below 34.0 V or above 62.0 V, for 20 us, and stands at `after` when the save
has ended: the gate die stays up only on an input at 40.0 V or above. A save or a removal that is under way goes on, and no second one
begins (R473). -/
def execLastGaspSave (mv : InputDip) (s : State) : Res :=
  let after := mv.after
  let mv := mv.mv
  if !s.bring.powered || (34000 ≤ mv && mv ≤ 62000) then .next s
  else
    let s := s.inputMoves mv
    if !s.armed then .next s
    else
      let s := if s.saving || (s.bring.removal && s.bring.prsntHigh.isSome) then s else s.save 2 7 false
      let s := { s with gov := { s.gov with inputMv := after } }
      .next (if after < 40000 then s.powerOff else s)

end Sys2Proof.Machine
end

