-- ==== Sys2Proof/Machine/Serial.lean ====
section
/-!
DEFINITION. Commands that need the baton and wait for a FW_UPDATE before them (11_host_port.md R332, 14_security.md R413): they run one at
a time in order of arrival, once its read and its write have ended.
-/

namespace Sys2Proof.Machine

/-- What a command that needs the baton does when its turn comes. -/
def State.runBaton (s : State) (k : Slot) (p : Pkt) : State :=
  match p.opcode.toNat with
  | 0x21 => s.applyRegWrite p k
  | 0x50 => s.partLayout p k
  | 0x51 => s.partKey p k
  | 0x60 => s.wiringPlan p k
  | 0x70 =>
    let t := s.grantNow p State.leaseLeft
    if s.granted t then t.dropAfter else t
  | 0x80 => s.alarmPolicy p k
  | 0x90 => s.fwUpdate p k none
  | 0xB0 => s.netConfig p k
  | _ => s

/-- The oldest command that waits starts, unless its session has ended; one whose slot no longer holds the baton is refused (R335, R339). -/
def State.startSerial (s : State) (k : Slot) (p : Pkt) : State :=
  if !(s.session k).open_ || (s.session k).number != p.session then s
  else if p.opcode != 0x21 && !s.hasLease k then s.reply p 0x0203
  else s.runBaton k p

/-- The commands that wait run in order of arrival, until one of them is a FW_UPDATE that goes on. -/
def State.runSerial : Nat → State → State
  | 0, s => s
  | fuel + 1, s =>
    match s.cmd.serial with
    | [] => s
    | (k, p) :: rest =>
      if s.sec.fwRead.isSome || s.sec.fwWrite.isSome then s
      else State.runSerial fuel ({ s with cmd := { s.cmd with serial := rest } }.startSerial k p)

end Sys2Proof.Machine
end

