-- ==== Sys2Proof/Machine/Serving.lean ====
section
/-!
DEFINITION. The dispatch engine at the home and at the origin's end (09_experts.md R262-R264, R273-R280): arrivals, serving,
returns, relay trees, batch epochs and cancels.
-/

namespace Sys2Proof.Machine

/-! ### Epochs (R277, R280) -/

/-- Epoch `a` is newer than `b` (R277). -/
def newer (a b : Nat) : Bool := let d := (a + 65536 - b % 65536) % 65536; 1 ≤ d && d ≤ 32767

/-- The current epoch of an origin at this home (R277). -/
def MoeRun.epochOf (m : MoeRun) (source : Nat) : Nat := mget 0 m.originEpoch source

/-- The home learns an epoch of an origin: a newer one becomes current, and older unlisted records and waiting borrow requests
of the origin go (R279, R280). -/
def MoeRun.learn (m : MoeRun) (source epoch : Nat) : MoeRun :=
  if !newer epoch (m.epochOf source) then m
  else { m with
    originEpoch := mset 0 m.originEpoch source epoch
    arrivals := m.arrivals.filter fun a => !(a.source == source && newer epoch a.epoch)
    reqs := m.reqs.filter fun r => r.origin != source || !newer epoch r.epoch }

/-- A stale result or block is discarded (R280, R282). -/
def State.staleResult (s : State) (c : Nat) : State :=
  (s.moEvent 2).modPart (partOfCtx c) fun q => { q with staleRes := satAdd 32 q.staleRes 1 }

/-! ### SERVE (R263) -/

/-- SERVE is taken for its layer (R263, R265); it waits beside others for its own notices. -/
def execServe (c : Nat) (s : State) : Res :=
  match s.engine c with
  | none => .next s
  | some _ =>
    let m := (s.ctx c).moe
    match m.queue.find? fun r => r.op == 2 with
    | none => .next s
    | some r =>
      let s := s.takeReq c r
      if m.served.contains (r.step, r.layer) then .next (s.dispFault c r 0x47)
      else .next (s.modMoe c fun m => { m with
          serving := m.serving ++ [r], served := (r.step, r.layer) :: m.served.filter fun x => r.step ≤ x.1 })

/-- A return record leaves for its origin on the rail that the arrival came by (R262, R264, R304); `res` is its result. -/
def State.sendReturn (s : State) (c : Nat) (p : StepPlan) (a : ArrivalRec) (flags : Nat) (res : Bytes) : State :=
  let k := s.ctx c
  let at_ := match p.groups[a.group]? with | some g => g.returnBase + a.pair * (64 + p.resultBytes) | none => 0
  s.sendMsg a.rail 0x24 (s.plainMsg (k.peerId a.source) k.itin.job at_
    (recordHeader k.selfPeer (BitVec.ofNat 16 a.epoch) a.layer a.expert a.pair a.group flags a.step ++ res))

/-- The records of (step, layer) in the order of R263, those of older epochs dropped. -/
def MoeRun.served? (m : MoeRun) (peers step layer : Nat) : List ArrivalRec :=
  (List.range peers).flatMap fun s =>
    ((m.arrivals.filter fun a => a.source == s && a.layer == layer && a.step == step && !newer (m.epochOf s) a.epoch).mergeSort
      fun x y => x.slot ≤ y.slot)

/-- The serve lanes of a group: experts by ascending ORDINAL with their rows (R263). -/
def serveLanes (p : StepPlan) (layer group : Nat) (rows : List ArrivalRec) : List (HomeDecl × Nat × List ArrivalRec) :=
  let hs := (List.range p.experts).filterMap fun e => (p.home layer e).map fun h => (h, e)
  let mine := hs.filter fun (h, e) => h.ordinal % p.groups.length == group && rows.any fun a => a.expert == e
  (mine.mergeSort fun x y => x.1.ordinal ≤ y.1.ordinal).map fun (h, e) => (h, e, rows.filter fun a => a.expert == e)

/-- Write one serve lane (R252, R253). -/
def State.listServe (s : State) (c : Nat) (p : StepPlan) (g : ExpertGroup) (j : Nat) (x : HomeDecl × Nat × List ArrivalRec) :
    State :=
  let (h, e, rows) := x
  let k := s.ctx c
  let s := s.put c (g.listBase + 32 * (p.lanes + j)) (laneDescriptor e 2 rows.length h.tensor h.home k.moe.epoch)
  let s := s.put c (g.listBase + 64 * p.lanes + 8 * p.lanes * p.routeMax + 8 * j * p.serveRows) (rows.flatMap fun a => toLe 8 a.addr)
  (s.putShape c (g.slotBase + 2 + 2 * p.lanes + j) (h.ordinal + 1)).putShape c (g.slotBase + 2 + 3 * p.lanes + j) rows.length

/-- One group's serve lanes, slots and counters (R263 step 3). -/
def State.serveGroup (s : State) (c : Nat) (p : StepPlan) (r : DispReq) (rows : List ArrivalRec) (group : Nat) : State :=
  match p.groups[group]? with
  | none => s
  | some g =>
    let ls := serveLanes p r.layer group rows
    let s := ls.zipIdx.foldl (fun s (x, j) => s.listServe c p g j x) s
    let s := s.foldNat (List.range (p.lanes - ls.length)) fun s i =>
      (s.putShape c (g.slotBase + 2 + 2 * p.lanes + ls.length + i) 0).putShape c (g.slotBase + 2 + 3 * p.lanes + ls.length + i) 0
    let s := (s.putShape c (g.slotBase + 1) ls.length).modCtx c fun k =>
      { k with
        caravan := { k.caravan with
          laneReady := (k.caravan.laneReady ++ (List.range p.lanes).map (p.laneGroup r.layer group 1)).dedup }
        moe := { k.moe with lanes := k.moe.lanes ++ ls.zipIdx.map fun (x, j) => ⟨r.layer, group, j, x.2.2, false⟩ } }
    let s := s.dispToken c g.stations r.listToken
    ls.foldl (fun s _ => s.dispToken c g.stations r.laneToken) s

/-- A row beyond SERVE_ROWS is refused: it returns at once with zeros (R263, R282). -/
def State.refuseRow (s : State) (c : Nat) (p : StepPlan) (a : ArrivalRec) : State :=
  (s.sendReturn c p a 1 (List.replicate p.resultBytes 0)).modPart (partOfCtx c) fun q =>
    { q with rowsRefused := satAdd 32 q.rowsRefused 1 }

/-- A shipment-done notice of (step, layer) from every other PEERS entry has arrived (R263). -/
def Ctx.noticed (k : Ctx) (step layer : Nat) : Bool :=
  k.others.all fun p => k.moe.notes.any fun n => n.step == step && n.layer == layer && n.source == p

/-- SERVE_PROCEED (R263): the arrivals of the first SERVE whose notices have come become rows of serve lanes. -/
def execServeProceed (c : Nat) (s : State) : Res :=
  let k := s.ctx c
  match s.engine c, k.moe.serving.find? fun r => k.noticed r.step r.layer with
  | some p, some r =>
    let all := k.moe.served? k.peerCount r.step r.layer
    let rows := all.take p.serveRows
    if (List.range p.groups.length).any fun g => p.lanes < (serveLanes p r.layer g rows).length then
      .next (s.dispFault c r 0x46)
    else
      let s := s.modMoe c fun m => { m with
        serving := m.serving.erase r
        arrivals := m.arrivals.filter fun a => !(a.layer == r.layer && a.step == r.step)
        notes := m.notes.filter fun n => !(n.step == r.step && n.layer == r.layer)
        lanes := m.lanes.filter fun l => l.layer != r.layer }
      let s := (all.drop p.serveRows).foldl (fun s a => s.refuseRow c p a) s
      let s := s.foldNat (List.range p.groups.length) fun s g => s.serveGroup c p r rows g
      .next (s.dispDone c r)
  | _, _ => .next s

/-! ### RETURN (R264) -/

/-- Result row `i` of a lane goes to its origin, unless its epoch is no longer current. -/
def State.returnRow (s : State) (c : Nat) (p : StepPlan) (table i : Nat) (a : ArrivalRec) : State :=
  let k := s.ctx c
  if k.moe.epochOf a.source != a.epoch then s
  else
    (((s.seenStore c).storeTraffic c 2 (table + i * p.resultBytes) p.resultBytes).sendReturn c p a 0
      (rdBytes (s.storeSeen c) (table + i * p.resultBytes) p.resultBytes)).modPart (partOfCtx c) fun q =>
      { q with servedRows := satAdd 32 q.servedRows 1 }

/-- DISPATCH_RETURN (R264): the oldest RETURN request of the context. -/
def execDispatchReturn (c : Nat) (s : State) : Res :=
  match s.engine c with
  | none => .next s
  | some p =>
    let k := s.ctx c
    match k.moe.queue.find? fun r => r.op == 3 with
    | none => .next s
    | some r =>
      let s := s.takeReq c r
      match k.moe.lanes.find? fun l => l.layer == r.layer && l.group == r.group && l.lane == r.lane && !l.returned with
      | none => .next (s.dispFault c r 0x47)
      | some l =>
        if !l.rows.isEmpty && !k.inWorking r.table (l.rows.length * p.resultBytes) then .next (s.dispFault c r 0x44)
        else
          let s := s.modMoe c fun m => { m with lanes := m.lanes.map fun x => if x == l then { x with returned := true } else x }
          let s := l.rows.zipIdx.foldl (fun s (a, i) => s.returnRow c p r.table i a) s
          .next (s.dispDone c r)

/-! ### What arrives, applied to a context (R262-R264, R273, R274, R278-R280) -/

/-- The PEERS index of a package. -/
def Ctx.peerOf (k : Ctx) (pkg : Nat) : Option Nat := k.itin.peers.bind fun x => x.ids.findIdx? (· == pkg)

/-- The slot of source `s`'s slabs that an address names (R262): layer parity and record number. -/
def arrivalSlot (p : StepPlan) (peers source addr : Nat) : Option (Nat × Nat) :=
  let n := 64 + p.actBytes
  ((List.range 2).find? fun l => arrivalAddr p peers l source 0 ≤ addr && addr < arrivalAddr p peers l source p.shipMax &&
    (addr - arrivalAddr p peers l source 0) % n == 0).map fun l => (l, (addr - arrivalAddr p peers l source 0) / n)

/-- An arrival record is written into its slot (R262). -/
def State.applyArrival (s : State) (c source addr slot : Nat) (bs : Bytes) (rail : Nat) : State :=
  let a : ArrivalRec := ⟨source, leAt bs 4 2, leAt bs 6 2, leAt bs 8 4, leAt bs 12 1, leAt bs 2 2, leAt bs 16 8, slot, addr, rail⟩
  (s.put c addr bs).modMoe c fun m =>
    let m := m.learn source a.epoch
    { m with arrivals := m.arrivals.filter (fun x => x.addr != addr) ++ [a] }

/-- A result reaches its return slot and RETURN_TOKEN rises (R264). -/
def State.writeReturn (s : State) (c : Nat) (p : StepPlan) (group pair : Nat) (bs : Bytes) : State :=
  match p.groups[group]? with
  | none => s
  | some g => (s.put c (g.returnBase + pair * (64 + p.resultBytes)) bs).dispToken c g.stations g.returnToken

/-- A return record at the origin (R264, R272, R280): one that is not of the current epoch is stale. -/
def State.applyReturn (s : State) (c : Nat) (bs : Bytes) : State :=
  let k := s.ctx c
  match k.itin.stepPlan with
  | none => s.discard 6
  | some p =>
    if leAt bs 2 2 != k.moe.epoch.toNat then s.staleResult c
    else
      match k.moe.await.find? fun a => a.step == leAt bs 16 8 && a.layer == leAt bs 4 2 && a.group == leAt bs 12 1 &&
          a.index == leAt bs 8 4 with
      | none => s.discard 6
      | some a =>
        let refused := bitOf (leAt bs 13 1) 0
        let s := s.modMoe c fun m => { m with await := m.await.erase a, overrun := m.overrun || refused }
        let s := if refused then s.moEvent 5 else s
        let bs := if refused then bs.take 64 ++ List.replicate p.resultBytes 0 else slice bs 0 (64 + p.resultBytes)
        s.writeReturn c p a.group a.index bs

/-- The part of a block that a caravan entry puts into its lane (R274): destination, offset in the block, bytes. -/
def blockParts (e : EntryDecl) (block : Nat) : Nat × Nat × Nat :=
  let lo := max e.src (block * 65536)
  let hi := min (e.src + e.bytes) (block * 65536 + 65536)
  (e.dst + (lo - e.src), lo - block * 65536, hi - lo)

/-- The parts of a block that the lanes of a borrowed expert take. -/
def BorrowRun.parts (b : BorrowRun) (p : StepPlan) (v : Caravan) (block : Nat) : List (Nat × Nat × Nat) :=
  b.lanes.flatMap fun (g, j, _) =>
    ((v.entriesOf (p.laneGroup b.layer g 0 j)).map (blockParts · block)).filter fun x => x.2.2 != 0

/-- A block is written into the lanes that await it; the last one makes them ready (R259 step 5, R274). -/
def State.applyBlock (s : State) (c : Nat) (p : StepPlan) (v : Caravan) (b : BorrowRun) (block : Nat) (bs : Bytes) : State :=
  let k := s.ctx c
  let l := b.parts p v block
  let s := l.foldl (fun s (dst, o, n) => s.put c dst (slice bs o n)) s
  let before := if b.blocks.contains block then b.before
    else l.foldl (fun m (dst, _, n) => wrBytes m dst (rdBytes k.store dst n)) b.before
  let bytes := match p.groups.head?.bind fun g => k.itin.tensor g.borrowTensor with | some t => t.bytes | none => 0
  let got := if b.blocks.contains block then b.blocks else block :: b.blocks
  if got.length < ceilDiv bytes 65536 then
    s.modMoe c fun m => { m with borrows := m.borrows.map fun x => if x == b then { x with blocks := got, before := before } else x }
  else
    let s := s.modMoe c fun m => { m with borrows := m.borrows.erase b }
    b.lanes.foldl (fun s (g, _, t) => match p.groups[g]? with
      | some x => s.dispToken c x.stations t
      | none => s) s

/-- A relay block at a borrower: written when its epoch for this node is current, else counted as stale (R274, R280). -/
def State.applyRelay (s : State) (c layer expert block epoch : Nat) (bs : Bytes) : State :=
  let k := s.ctx c
  let b := k.moe.borrows.find? fun b => b.layer == layer && b.expert == expert && b.sent
  match (if epoch == k.moe.epoch.toNat then b else none), k.itin.stepPlan, k.itin.caravan with
  | some b, some p, some v => s.applyBlock c p v b block bs
  | _, _, _ => (s.moEvent 2).modPart (partOfCtx c) fun q => { q with staleBlk := satAdd 32 q.staleBlk 1 }

/-- Apply a dispatch or relay message to a context (R266): its type, the message, and the fields that its row gives. -/
def State.applyMsg (s : State) (c kind : Nat) (m : Msg) (a b d e : Nat) : State :=
  match kind with
  | 0x20 => s.applyArrival c a m.remote b m.data m.port
  | 0x21 => s.modMoe c fun x => { x with notes := x.notes ++ [⟨a, b, d, e⟩] }
  | 0x22 => s.modMoe c fun x => { x with reqs := x.reqs ++ [⟨a, b / 65536, b % 65536, m.srcPkg.toNat, d, e, s.now⟩] }
  | 0x23 => s.modMoe c fun x => x.learn a b
  | 0x24 => s.applyReturn c m.data
  | _ => s.applyRelay c a b d e (m.data.drop (m.data.length - 65536))

/-- A message reaches a context: a context that is saving or swapped out keeps it in its arrival log (R266, R360). -/
def State.reachCtx (s : State) (c kind : Nat) (m : Msg) (a b d e : Nat) : State :=
  let k := s.ctx c
  if k.state == .saving || !k.resident then s.logArrival c (.message kind m a b d e) else s.applyMsg c kind m a b d e

/-- The job of a message has a fabric-held context here (R310). -/
def State.heldJob (s : State) (job : BitVec 32) : Bool :=
  s.loadedCtxs.any fun c => (s.ctx c).itin.job == job && (s.ctx c).isHeld

/-- A dispatch request: no response for a held context, JOB_ABSENT without a live one, RETRY when the partition's inbound queue is
full; ACCESS when its fields do not fit the context; else it is written and answered (R293, R294, R302, R310). -/
def State.onDispatch (s : State) (t : BitVec 8) (m : Msg) (f : Nat → Option (State → State)) : State :=
  s.onMsg t m fun s => match s.jobCtx m.job with
    | none => if s.heldJob m.job then s.discard 6 else s.respond m .absent
    | some c => if s.inboundFull (partOfCtx c) then s.respond m .retry else match f c with
      | none => s.respond m .access
      | some g => let s := g s; s.respond m (if (s.ctx c).state == .tearingDown then .absent else .ok)

/-- ARRIVAL (R262). -/
def execArrival (m : Msg) (s : State) : Res :=
  .next (s.onDispatch 0x20 m fun c =>
    let k := s.ctx c
    match k.itin.stepPlan, k.peerOf m.srcPkg.toNat with
    | some p, some i =>
      match arrivalSlot p k.peerCount i m.remote with
      | some (l, n) => if m.data.length == 64 + p.actBytes && leAt m.data 4 2 % 2 == l
          then some fun s => s.reachCtx c 0x20 m i n 0 0 else none
      | none => none
    | _, _ => none)

/-- SHIP_DONE (R259 step 4, R263). -/
def execShipDone (m : Msg) (stepNo layer count : Nat) (s : State) : Res :=
  .next (s.onDispatch 0x21 m fun c => ((s.ctx c).peerOf m.srcPkg.toNat).map fun i s => s.reachCtx c 0x21 m stepNo layer i count)

/-- BORROW (R273): the request joins the expert's merge window as it arrives, whatever the context's state (R266 logs no requests). -/
def execBorrow (m : Msg) (stepNo layer expert epoch : Nat) (s : State) : Res :=
  .next (s.onDispatch 0x22 m fun c =>
    let k := s.ctx c
    match k.itin.stepPlan.bind fun p => p.home layer expert, k.peerOf m.srcPkg.toNat with
    | some h, some i => if h.home == k.selfPeer && layer < 65536
        then some fun s => s.applyMsg c 0x22 m stepNo (layer * 65536 + expert) i (epoch % 65536) else none
    | _, _ => none)

/-- CANCEL (R279). -/
def execCancel (m : Msg) (epoch : Nat) (s : State) : Res :=
  .next (s.onDispatch 0x23 m fun c => ((s.ctx c).peerOf m.srcPkg.toNat).map fun i s => s.reachCtx c 0x23 m i (epoch % 65536) 0 0)

/-- RETURN (R264): not answered; one for a job without a live context is discarded (R294, R310). -/
def execReturnRec (m : Msg) (s : State) : Res :=
  .next (s.onMsg 0x24 m fun s => match s.jobCtx m.job with
    | none => s.discard 6
    | some c => s.reachCtx c 0x24 m 0 0 0 0)

/-! ### Relay (R273, R274) -/

/-- A relay header in bytes; its layout is the model's own (log entry 29). -/
def relayHeader (r : RelayHdr) : Bytes :=
  toBe 4 r.tree ++ toBe 4 r.block ++ toBe 2 r.layer ++ toBe 2 r.expert ++ toBe 2 r.position ++ toBe 2 r.members.length ++
    r.members.flatMap fun (p, e) => toBe 1 p ++ toBe 2 e

/-- Send a block to the member at a position. -/
def State.relayTo (s : State) (job : BitVec 32) (r : RelayHdr) (pos : Nat) (bs : Bytes) : State :=
  match r.members[pos]? with
  | none => s
  | some (pkg, _) => s.plainSend pkg job 0x28 (r.block * 65536) (relayHeader { r with position := pos } ++ bs)

/-- The loaded context of a job, whatever its state. -/
def State.ctxOfJobId (s : State) (job : BitVec 32) : Option Nat := s.loadedCtxs.find? fun c => (s.ctx c).itin.job == job

/-- Forward a block to its children, counted for the partition of the job's context (R274, R282). -/
def State.forward (s : State) (m : Msg) (r : RelayHdr) (bs : Bytes) : State :=
  s.foldNat ([2 * r.position + 1, 2 * r.position + 2].filter (· < r.members.length)) fun s i =>
    let s := s.relayTo m.job r i bs
    match s.ctxOfJobId m.job with
    | some c => s.modPart (partOfCtx c) fun q => { q with forwarded := satAdd 32 q.forwarded 1 }
    | none => s

/-- RELAY_BLOCK (R274, R280): forwarded whatever the context's state, and written where its epoch is current; one of a dead or
quarantined job is discarded (R311, R312). -/
def execRelayBlock (m : Msg) (r : RelayHdr) (s : State) : Res :=
  .next (s.onMsg 0x28 m fun s =>
    if s.jobBarred m.job then s.discard 6
    else
    let bs := m.data.drop (m.data.length - 65536)
    let s := s.forward m r bs
    match s.jobCtx m.job, r.members[r.position]? with
    | some c, some (_, e) => s.reachCtx c 0x28 m r.layer r.expert r.block e
    | _, _ => s)

/-- Blocks `i ..` of a tensor go to position 0, each read once from its stacks (R273). -/
def State.sendBlocks (s : State) (c : Nat) (g : Image) (t : Tensor) (r : RelayHdr) : State :=
  s.foldNat (List.range (ceilDiv t.bytes 65536)) fun s i =>
    let o := t.offset + 65536 * i
    let n := min 65536 (t.bytes - 65536 * i)
    let bs := slice (s.imageBytes (partOfCtx c) g.id o n) 0 65536
    let s := s.imageTraffic (partOfCtx c) g.regions 1 o n (some c)
    let s := s.relayTo (s.ctx c).itin.job { r with block := i } 0 bs
    s.modPart (partOfCtx c) fun q => { q with sentBlocks := satAdd 32 q.sentBlocks 1 }

/-- RELAY_TREE_START (R273): MERGE_NS after the first request of an expert, its tree starts with every request of that step
that has arrived. -/
def execRelayTreeStart (c layer expert : Nat) (s : State) : Res :=
  let k := s.ctx c
  match k.moe.reqs.find? fun q => q.layer == layer && q.expert == expert with
  | none => .next s
  | some first =>
    match k.itin.stepPlan.bind fun p => p.home layer expert, s.imageOf c with
    | some h, some g =>
      match k.itin.tensor h.tensor with
      | none => .next s
      | some t =>
        if 128 ≤ c || !s.portsRun || k.state == .tearingDown || k.isHeld || s.now < first.at_ + s.moe.mergeNs.toNat then .next s
        else
          let mine (q : BorrowReq) : Bool := q.layer == layer && q.expert == expert && q.step == first.step
          let ms := ((k.moe.reqs.filter mine).mergeSort fun x y => x.pkg ≤ y.pkg).map fun q => (q.pkg, q.epoch)
          let s := s.modMoe c fun m => { m with reqs := m.reqs.filter fun q => !mine q }
          if g.poisoned t.offset t.bytes then .next (s.beginTeardown c 5)
          else
            let id := (s.part (partOfCtx c)).trees
            let s := s.modPart (partOfCtx c) fun q => { q with trees := satAdd 32 q.trees 1 }
            .next (s.sendBlocks c g t ⟨id, 0, ms, 0, layer, expert⟩)
    | _, _ => .next s

/-! ### Batch cancel (R278) -/

/-- The lanes of a borrowed expert after a cancel: each byte that a block has written is the delivered one or the one that it held
before, free in the model (R278 step 4). -/
def State.loosenLanes (s : State) (c : Nat) (p : StepPlan) (b : BorrowRun) : State :=
  match (s.ctx c).itin.caravan with
  | none => s
  | some v => (b.blocks.flatMap fun i => b.parts p v i).foldl (fun s (dst, _, n) =>
      let (bs, s) := s.race dst (rdBytes b.before dst n) [] (rdBytes (s.ctx c).store dst n)
      s.modCtx c fun k => { k with store := wrBytes k.store dst bs }) s

/-- The batch cancel at the origin (R278). -/
def State.batchCancel (s : State) (c : Nat) : State :=
  let s := s.modMoe c fun m => { m with epoch := m.epoch + 1, cancels := if m.cancels == 0xFFFF then m.cancels else m.cancels + 1, cancelled := true }
  let k := s.ctx c
  let s := s.foldNat k.others fun s p => s.engineSend c p 0x23 0 0 0 (toBe 2 k.moe.epoch.toNat ++ toBe 6 0)
  let s := (s.modMoe c fun m => { m with await := [], borrows := [] }).moEvent 1
  match k.itin.stepPlan with
  | none => s
  | some p =>
    let s := k.moe.await.foldl (fun s a =>
      s.writeReturn c p a.group a.index
        (recordHeader a.home k.moe.epoch a.layer a.expert a.index a.group 2 a.step ++ List.replicate p.resultBytes 0)) s
    k.moe.borrows.foldl (fun s b => b.lanes.foldl (fun s (g, _, t) => match p.groups[g]? with
      | some x => s.dispToken c x.stations t
      | none => s) (s.loosenLanes c p b)) s

/-- Apply a context's arrival log in order, as it is read back from HBM (R193, R266, R364). -/
def State.applyLog (s : State) (c : Nat) : State :=
  if (s.ctx c).log.isEmpty then s
  else (s.ctx c).log.foldl (fun s e => match e with
    | .token st t n k => s.incToken c st t n k true none
    | .bytes a bs => s.put c a bs
    | .message kind m a b d e => s.applyMsg c kind m a b d e)
    ((s.hamperTraffic c (s.ctx c).itin.logAt (s.ctx c).logUsed).modCtx c fun k => { k with log := [] })

end Sys2Proof.Machine
end

