-- ==== Sys2Proof/Machine/Scheduler.lean ====
section
/-!
DEFINITION. The scheduler (12_partitions_contexts.md R358-R367): the choice of holder, slices, pre-emption, restore, reserved
windows and swapping.
-/

namespace Sys2Proof.Machine

/-! ### Choosing the holder (R358) -/

/-- The context of a list with the least value, the first on a tie. -/
def State.leastCtx (s : State) (f : Ctx → Nat) (l : List Nat) : Option Nat :=
  l.foldl (fun acc c => match acc with
    | none => some c
    | some d => if f (s.ctx c) < f (s.ctx d) then some c else some d) none

/-- READY contexts of partition `p`, lowest number first. -/
def State.readyOf (s : State) (p : Nat) : List Nat := (ctxsOfPart p).filter fun c => (s.ctx c).state == .ready

/-- Some READY context of the partition, other than `c`, is not blocked. -/
def State.otherReady (s : State) (p c : Nat) : Bool := (s.readyOf p).any fun d => d != c && (s.ctx d).block.isNone

/-- The next holder: the reserved context in its window, unless that fell due during a slice switch (R363), then the unblocked one,
then the blocked one that has waited longest. -/
def State.nextHolder (s : State) (p : Nat) : Option Nat :=
  let l := s.readyOf p
  ((l.find? fun c => (s.ctx c).window.isSome && !(s.part p).switchFirst) <|> s.leastCtx (·.waitSince) (l.filter fun c => (s.ctx c).block.isNone)) <|>
    s.leastCtx (·.waitSince) l

/-- The pre-emption of the partition's holder is requested (R362). -/
def State.askPreempt (s : State) (p : Nat) : State :=
  s.modPart p fun q => { q with preSince := if q.holder.isSome then q.preSince <|> some s.now else none }

/-- A context begins to run in a reserved window no earlier than the window's start (R361). -/
def State.windowHolds (s : State) (c : Nat) : Bool :=
  match (s.ctx c).window with
  | some t => t ≤ s.now
  | none => true

/-- The context runs: a reserved window that started late is reported (R361). -/
def State.runs (s : State) (c : Nat) : State :=
  let late := match (s.ctx c).window with | some t => decide (t < s.now) | none => false
  let s := s.nowRuns c
  if late then s.scEvent 4 else s

/-- The first residency's first holding: the stations start at their entries and step 0 begins (R53, R100, R108). What has come for
their counters since the context became resident is on the shelf, and is added to counters of 0 before the first bundle (DESIGN
CHOICE, log entry 49: R360 adds the shelf at a restore, R100 has every counter hold 0). -/
def State.firstRun (s : State) (c : Nat) : State :=
  let s := s.loadStations c (s.ctx c).freshArch
  (((s.runs c).unshelf c).applyLog c).beginStep c

/-- Some READY context other than `c` is in its reserved window. -/
def State.windowDue (s : State) (p c : Nat) : Bool := (s.readyOf p).any fun d => d != c && (s.ctx d).window.isSome

/-- Context `c` becomes the holder of partition `p` (R358, R364); one whose stations have all issued FINISH is FINISHED again and
takes none (R111, R356). A reserved window that has waited for the switch has the new holder pre-empted (R363). -/
def State.takeHold (s : State) (p c : Nat) : State :=
  let first := (s.part p).switchFirst
  let s := s.modPart p fun q => { q with switchFirst := false }
  if (s.ctx c).complete then s.modCtx c fun k => { k with state := .finished }
  else
    let s := (s.modPart p fun q => { q with holder := some c, preSince := none }).beginSlice c
    let s := if (s.ctx c).hamper then ((s.modCtx c fun k => { k with state := .restoring }).stationsEnter c 3).askAgain c else s.firstRun c
    if first && s.windowDue p c then s.askPreempt p else s

/-- TAKE_STATIONS (R358). -/
def execTakeStations (p : Nat) (s : State) : Res :=
  if !s.hasPart p || (s.part p).holder.isSome then .next s
  else
    match s.nextHolder p with
    | none => .next s
    | some c => .next (if (s.ctx c).hamper || s.windowHolds c then s.takeHold p c else s)

/-- The holder of partition `p` with a condition on it. -/
def State.holderWith (s : State) (p : Nat) (f : Ctx → Bool) : Option Nat :=
  match (s.part p).holder with
  | some c => if f (s.ctx c) then some c else none
  | none => none

/-- RESTORE_DONE (R191, R360, R364): records, shelf, caravan groups, walkers and log are back, and the stations are released. A poisoned
granule among the groups has torn the context down instead (R190). -/
def execRestoreDone (p : Nat) (s : State) : Res :=
  match s.holderWith p fun k => k.state == .restoring with
  | none => .next s
  | some c =>
    if !s.windowHolds c || !s.againHere c then .next s
    else
      let k := s.ctx c
      let s := (s.recordTraffic c).shelfTraffic c
      let s := ((s.loadStations c fun rel => mget {} k.saved rel).refetch c).restage c
      .next (if (s.ctx c).state == .restoring then ((s.runs c).unshelf c).applyLog c else s)

/-! ### Slices, blocking and pre-emption (R358, R359, R362) -/

/-- SLICE_EXPIRE (R358): the holder yields when another READY context is not blocked; otherwise its slice starts again. -/
def execSliceExpire (p : Nat) (s : State) : Res :=
  match s.holderWith p fun k => k.state == .running && k.window.isNone && k.sliceStart + us k.sliceNow ≤ s.now with
  | none => .next s
  | some c =>
    .next (if (s.part p).preSince.isSome then s else if s.otherReady p c then s.askPreempt p else s.beginSlice c)

/-- PREEMPT_START (R362 step 1). -/
def execPreemptStart (p : Nat) (s : State) : Res :=
  match s.holderWith p fun k => k.state == .running with
  | none => .next s
  | some c => .next (if (s.part p).preSince.isSome then s.startSave c else s)

/-- Local operations have been delivered and Brisor units answered (R362 steps 3 and 4). -/
def State.drained (s : State) (c : Nat) : Bool :=
  ((s.stnsOfCtx c).all fun st =>
    let a := (s.stn st).arch
    a.inflight.isEmpty && a.notices.isEmpty && a.shapes.isEmpty) &&
    (List.range 16).all fun d =>
      let v := s.drover d
      v.queue.all (·.ctx != c) && v.active.all (·.ctx != c) && v.units.all (·.ctx != c)

/-- An eviction begins (R367): a HELD or PARKED context stays one beneath its SWAPPED state. -/
def Ctx.evictNow (k : Ctx) : Ctx :=
  { k with
    under := if k.isHeld then some .held else if k.isParked then some .parked else none
    state := .swappingOut, resident := false, evict := false }

/-- The context is READY; one that has never held stations has waited since it first was (R358). -/
def Ctx.nowReady (k : Ctx) (now : Nat) : Ctx :=
  { k with state := .ready, everReady := true, waitSince := if k.everReady then k.waitSince else now }

/-- The state that a context reaches as it becomes READY: PARKED when a PARK is pending, FINISHED when every station has issued
FINISH (R355, R356). -/
def Ctx.becomesReady (k : Ctx) (now : Nat) : Ctx :=
  let x := { k with parkPending := false }
  if k.parkPending then { x with state := .parked } else if k.complete then { x with state := .finished } else x.nowReady now

/-- PREEMPT_SAVED (R362 steps 5 and 6, R366). -/
def execPreemptSaved (p : Nat) (s : State) : Res :=
  match s.holderWith p fun k => k.state == .saving with
  | none => .next s
  | some c =>
    if !s.drained c then .next s
    else
      let k := s.ctx c
      let took := s.now - (s.part p).preSince.getD s.now
      let s := ((s.saveStations c).recordTraffic c).shelfTraffic c
      let s := (s.leaveStations c).modPart p fun q =>
        { q with preempts := satAdd 32 q.preempts 1, maxPre := max q.maxPre (min took (2 ^ 32 - 1)) }
      .next ((s.gateEvent 7 1).modCtx c fun x =>
        let x := { x with window := k.window }
        if k.evict then x.evictNow else x.becomesReady s.now)

/-- BLOCK_EXPECTED_END (R359): a READY context ceases to be blocked. -/
def execBlockExpectedEnd (c : Nat) (s : State) : Res :=
  let k := s.ctx c
  let past := match k.blocked with | some ⟨_, some t⟩ => decide (t ≤ s.now) | _ => false
  .next (if k.state == .ready && past then s.modCtx c fun k => { k with blocked := none } else s)

/-! ### Reserved windows (R361) -/

/-- The start of the reserved window whose lead or length `now` lies in or follows, ns. -/
def Reservation.start (r : Reservation) (now : Nat) : Option Nat :=
  let t := (now - r.since) / 1000 + r.leadUs
  if t < r.phaseUs || r.periodUs == 0 then none
  else some (r.since + us ((t - r.phaseUs) / r.periodUs * r.periodUs + r.phaseUs))

/-- RESERVED_WINDOW_LEAD (R361, R363): the pre-emption of another holder is requested; a slice switch that
has been requested or is under way completes first, the reserved context's own among them. -/
def execReservedWindowLead (c : Nat) (s : State) : Res :=
  let k := s.ctx c
  let p := partOfCtx c
  match k.resv with
  | none => .next s
  | some r =>
    match r.start s.now with
    | none => .next s
    | some t =>
      let able := k.state == .ready || k.state == .running || k.state == .saving || k.state == .restoring
      if k.window.isSome || !able || t + us r.lengthUs ≤ s.now then .next s
      else
        let s := s.modCtx c fun k => { k with window := some t }
        let switching : Bool := match (s.part p).holder with
          | some d => (s.ctx d).state == .saving || ((s.ctx d).state == .running && (s.part p).preSince.isSome)
          | none => false
        .next (if (s.part p).holder.isNone || (s.holds c && !switching) then s
          else if switching then s.modPart p fun q => { q with switchFirst := true }
          else s.askPreempt p)

/-- RESERVED_WINDOW_END (R361): the reserved context yields. -/
def execReservedWindowEnd (c : Nat) (s : State) : Res :=
  let k := s.ctx c
  match k.resv, k.window with
  | some r, some t =>
    if s.now < t + us r.lengthUs then .next s
    else
      let s := s.modCtx c fun k => { k with window := none }
      .next (if s.holds c then s.askPreempt (partOfCtx c) else s)
  | _, _ => .next s

/-! ### Swapping (R367) -/

/-- The swap candidates: started contexts that are SWAPPED and neither HELD nor PARKED, and those started with PARKED (R443). -/
def Ctx.swappable (k : Ctx) : Bool :=
  k.started && ((k.state == .swapped && k.under.isNone && (!k.complete || k.hostAnswer)) ||
    (k.state == .parked && k.swapFirst && !k.resident))

/-- The swap candidate of partition `p`. -/
def State.candidate (s : State) (p : Nat) : Option Nat :=
  let l := (ctxsOfPart p).filter fun c => (s.ctx c).swappable
  s.leastCtx (·.runnableSince) (l.filter fun c => (s.ctx c).swapFirst) <|> s.leastCtx (·.runnableSince) l

/-- The footprint of `c` fits the free bytes of every slice when the contexts of `gone` have left. -/
def State.fitsWithout (s : State) (c : Nat) (gone : List Nat) : Bool :=
  (s.stnsOfCtx c).all fun st => s.ctxSliceBytes c st ≤ s.sliceFree (fun d => (s.ctx d).occupies && !gone.contains d) st

/-- Resident contexts of partition `p`. -/
def State.residents (s : State) (p : Nat) : List Nat := (ctxsOfPart p).filter fun c => (s.ctx c).resident

/-- The evictable residents of partition `p`. -/
def State.evictable (s : State) (p : Nat) : List Nat :=
  (s.residents p).filter fun c =>
    let k := s.ctx c
    k.state != .tearingDown && k.resv.isNone && k.residentSince + ms 1 ≤ s.now && (k.itin.job == 0 || k.isHeld)

/-- A swap of the partition is under way or has been decided. -/
def State.swapping (s : State) (p : Nat) : Bool :=
  (ctxsOfPart p).any fun c =>
    let k := s.ctx c
    k.state == .swappingIn || k.state == .swappingOut || k.evict

/-- The order in which blocked residents are evicted: class 1, 2, 3 by earliest residency, then class 4 by latest expected end. -/
def State.evictFirst (s : State) (l : List Nat) : Option Nat :=
  let cls (n : Nat) : List Nat := l.filter fun c => (s.ctx c).block.map (·.cls) == some n
  let ends (k : Ctx) : Option Nat := k.block.bind (·.until_)
  let last := ((cls 4).filterMap fun c => ends (s.ctx c)).foldl max 0
  ((s.leastCtx (·.residentSince) (cls 1) <|> s.leastCtx (·.residentSince) (cls 2)) <|> s.leastCtx (·.residentSince) (cls 3)) <|>
    s.leastCtx (fun k => match ends k with | none => 0 | some t => 1 + last - t) (cls 4)

/-- Evict a context; a holder is pre-empted first. -/
def State.evictCtx (s : State) (c : Nat) : State :=
  if s.holds c then (s.modCtx c fun k => { k with evict := true }).askPreempt (partOfCtx c)
  else s.modCtx c (·.evictNow)

/-- A swap-in brings the live groups itself: the context has been resident and holds no station records, which a restore would follow
(R191, R364). -/
def Ctx.fetchesAgain (k : Ctx) : Bool := k.everResident && !k.hamper

/-- SWAP_IN_START (R367): the candidate's swap-in begins, or one blocked resident is evicted for it. -/
def execSwapInStart (p : Nat) (s : State) : Res :=
  match s.candidate p with
  | none => .next s
  | some c =>
    if s.swapping p || !s.hasPart p then .next s
    else if s.fitsWithout c [] then
      let s := s.modCtx c fun k => { k with
        under := if k.state == .parked then some .parked else none, state := .swappingIn, swapFirst := false }
      .next (if (s.ctx c).fetchesAgain then s.askAgain c else s)
    else if (s.residents p).all fun d => (s.ctx d).block.isSome then
      match s.evictFirst (s.evictable p) with
      | some d => .next (if s.fitsWithout c (s.evictable p) then s.evictCtx d else s)
      | none => .next s
    else .next s

/-- SWAP_AGE_EXPIRE (R367): the evictable resident that has been resident longest is evicted. -/
def execSwapAgeExpire (p : Nat) (s : State) : Res :=
  match s.candidate p with
  | none => .next s
  | some c =>
    let age := bitsOf (s.part p).cfg.toNat 40 16
    if s.swapping p || !s.hasPart p || s.fitsWithout c [] || s.now < (s.ctx c).runnableSince + ms age then .next s
    else
      match s.leastCtx (·.residentSince) (s.evictable p) with
      | some d => .next (if s.fitsWithout c (s.evictable p) then (s.evictCtx d).scEvent 2 else s)
      | none => .next s

/-- SWAP_IN_DONE (R355, R367): the context is resident, and its image closes (R180). -/
def execSwapInDone (c : Nat) (s : State) : Res :=
  let k := s.ctx c
  if k.state != .swappingIn || 128 ≤ c || (k.fetchesAgain && !s.againHere c) then .next s
  else
    let s := s.modCtx c fun k =>
      let x := { k with
        resident := true, everResident := true, residentSince := s.now, hostAnswer := false, under := none }
      if k.under == some .parked then { x with state := .parked } else x.becomesReady s.now
    let s := match k.itin.caravan with
      | some v => s.modImage (partOfCtx c) v.imageId fun g => { g with open_ := false }
      | none => s
    let s := s.swapTraffic c
    .next (if k.fetchesAgain then (s.refetch c).restage c else s).serveWaiting

/-- SWAP_OUT_DONE (R367): the context is SWAPPED, and its slice bytes are zero. -/
def execSwapOutDone (c : Nat) (s : State) : Res :=
  if (s.ctx c).state != .swappingOut || 128 ≤ c then .next s
  else
    let s := (s.swapTraffic c).dropLab c
    let s := s.modCtx c fun k =>
      { k.dropCopies with
        state := if k.parkPending then .parked else .swapped, parkPending := false, runnableSince := s.now }
    .next ((s.gateEvent 8 1).modPart (partOfCtx c) fun q => { q with swaps := satAdd 32 q.swaps 1 })

end Sys2Proof.Machine
end

