-- ==== Sys2Proof/Machine/Waits.lean ====
section
/-!
DEFINITION. What a station waits on (02_stations.md R53, 12_partitions_contexts.md R359): the completions that are outstanding
for a counter, the external wait of a step, and the test by which a holder is judged blocked.
-/

namespace Sys2Proof.Machine

/-! ### The waits of a station (R95) -/

/-- The counters that the next bundle waits on in vain; a station at a STEP, or past its FINISH, waits on none. -/
def Arch.waits (a : Arch) : List Nat :=
  match a.run, a.nextBundle with
  | .issuing, some b => a.unmetAll b
  | _, _ => []

/-- The station's next bundle can issue now (R36, R37). -/
def State.canIssue (s : State) (st : Nat) : Bool :=
  match s.issuing st with
  | none => false
  | some c =>
    let x := s.seenSite st c
    match x.a.nextBundle with
    | none => false
    | some b => (x.a.unmet b).isNone && x.accepts s b

/-! ### Internal completions (R359) -/

/-- The counters that an incomplete operation of station `st` will raise: context-relative station and counter. -/
def State.raised (s : State) (c st : Nat) : XferKind → List (Nat × Nat)
  | .xld _ _ _ t => [(s.relStn c st, t)]
  | .xst _ _ _ t n => (s.relStn c st, t) :: n.toList
  | .send l _ _ _ tl tr _ => (s.relStn c st, tl) :: ((s.linkPeer c st l).map fun r => (r, tr)).toList
  | .halo b h _ _ _ =>
    let h := h.getD (haloOf b)
    (s.relStn c st, h.localTok) :: ((s.linkPeer c st h.link).map fun r => (r, h.remoteTok)).toList
  | .note j t _ => [(j, t)]

/-- The counters that the engines of station `st` will raise. -/
def State.stationRaises (s : State) (c st : Nat) : List (Nat × Nat) :=
  let a := (s.stn st).arch
  let own (t : Nat) : Nat × Nat := (s.relStn c st, t)
  a.inflight.flatMap (fun x => s.raised c st x.kind) ++ a.notices.map (fun n => (n.target, n.t)) ++
    a.shapes.map (fun l => own l.t) ++
    ((a.weaveRun ++ a.weaveWait.toList).filter (·.op.ten)).map fun j => own j.op.t.toNat

/-- The counter is raised by a caravan group that has begun, or by the next one when it may begin (R190). -/
def Ctx.groupRaises (k : Ctx) (rel t : Nat) : Bool :=
  match k.itin.caravan with
  | none => false
  | some v =>
    let names (g : Nat) : Bool := match v.groups[g]? with
      | some d => d.notifyToken == t && (k.itin.notified d).contains rel
      | none => false
    (k.caravan.live.any fun r => !r.notified && names r.group) ||
      (match v.groups[k.caravan.next]? with
        | some d => k.groupMayBegin d && names k.caravan.next
        | none => false)

/-- A walk request or a staged item raises the counter (R218, R222). -/
def Ctx.walkRaises (k : Ctx) (rel t : Nat) : Bool :=
  (k.walk.reqs.any fun r => (r.station == rel && r.doneToken == t) ||
    (r.groupFirst ≤ rel && rel < r.groupFirst + r.groupCount && (r.listToken == t || r.itemToken == t))) ||
    k.walk.staging.any fun g => g.station == rel && g.itemToken == t

/-- A completion inside the package is outstanding for counter `t` of station `rel`. -/
def State.internalDue (s : State) (c rel t : Nat) : Bool :=
  ((s.stnsOfCtx c).any fun st => (s.stationRaises c st).contains (rel, t)) ||
    (s.ctx c).groupRaises rel t || (s.ctx c).walkRaises rel t

/-! ### External producers (R53, R359) -/

/-- Descriptors of the context's station at a drover that name the counter. -/
def State.descsOn (s : State) (c rel t : Nat) : List FabDesc :=
  (List.range 16).flatMap fun d =>
    ((s.drover d).queue ++ (s.drover d).active).filter fun f => f.ctx == c && f.station == rel && f.token == t

/-- The first ROUTE of the step waits for its plan (R271). -/
def Ctx.planWaits (k : Ctx) (p : StepPlan) : Bool :=
  k.itin.stepPlanMode && !k.moe.planTaken && k.step != 0 &&
    k.moe.routes.any fun r => !r.listed && r.reqs.length == p.groups.length

/-- A request of the dispatch engine that waits for another package or for a step plan will raise the counter (R258, R259, R263,
R267): a ROUTE that waits for its plan; one whose records are held back until results of an earlier layer come, for DONE_TOKEN
alone; a SERVE that waits for shipment-done notices. -/
def Ctx.dispRaises (k : Ctx) (rel t : Nat) : Bool :=
  match k.itin.stepPlan with
  | none => false
  | some p =>
    let m := k.moe
    let done (r : DispReq) : Bool := r.station == rel && r.doneToken == t
    let lists (r : DispReq) : Bool := (r.listToken == t || r.laneToken == t) &&
      p.groups.zipIdx.any fun (g, i) => (r.op == 2 || i == r.group) && g.stations.contains rel
    (k.planWaits p && m.routes.any fun r => !r.listed && r.reqs.any fun q => done q || lists q) ||
      (m.routes.any fun r => r.listed && !r.shipped && r.reqs.any done) ||
      m.serving.any fun r => !k.noticed r.step r.layer && (done r || lists r)

/-- A borrowed lane that has not arrived, or a pair whose result has not, will raise the counter (R259, R278). -/
def Ctx.returnRaises (k : Ctx) (rel t : Nat) : Bool :=
  match k.itin.stepPlan with
  | none => false
  | some p =>
    (k.moe.borrows.any fun b => b.lanes.any fun (g, _, u) =>
      u == t && (match p.groups[g]? with | some d => d.stations.contains rel | none => false)) ||
    k.moe.await.any fun a => match p.groups[a.group]? with
      | some d => d.returnToken == t && d.stations.contains rel
      | none => false

/-- The counter belongs to a Send ring of the context (R357). -/
def State.sendRaises (s : State) (c rel t : Nat) : Bool :=
  (s.host.qps.any fun q => q.kind == 1 && q.ctx == c && !q.error && q.recvStation == rel && q.recvToken == t) ||
    mget .unattributed (s.stn (s.stnOfCtx c rel)).arch.producers t == .hostSend

/-- The counter waits on a completion that comes from outside the package: a request is outstanding, or the counter's producer
was outside when it was last raised or named. A counter of the dispatch engine does so only while a request of the engine waits for
another package or for a plan (R267). -/
def State.externalDue (s : State) (c rel t : Nat) : Bool :=
  (match mget Producer.unattributed (s.stn (s.stnOfCtx c rel)).arch.producers t with
    | .brisor | .hostSend => true
    | _ => false) || !(s.descsOn c rel t).isEmpty ||
    (s.ctx c).dispRaises rel t || (s.ctx c).returnRaises rel t || s.sendRaises c rel t

/-- The external waits of a context: its station and counter. -/
def State.externalWaits (s : State) (c : Nat) : List (Nat × Nat) :=
  (List.range (s.stnCount c)).flatMap fun rel =>
    ((s.stn (s.stnOfCtx c rel)).arch.waits.filter (s.externalDue c rel)).map fun t => (rel, t)

/-- The two conditions of external wait (R53): no station issues, and one waits on a completion from outside, or for the top-ups
of a borrowed lane (R275). -/
def State.waitsOutside (s : State) (c : Nat) : Bool :=
  (!(s.externalWaits c).isEmpty || !(s.ctx c).caravan.topAsked.isEmpty) && !(s.stnsOfCtx c).any s.canIssue

/-! ### The blocked test (R359) -/

/-- The station has issued FINISH, or waits on a counter for which nothing inside the package is outstanding. -/
def State.stnBlocked (s : State) (c rel : Nat) : Bool :=
  let a := (s.stn (s.stnOfCtx c rel)).arch
  a.run == .finished || a.waits.any fun t => !s.internalDue c rel t

/-- The external waits for which nothing inside the package is outstanding. -/
def State.blockingWaits (s : State) (c : Nat) : List (Nat × Nat) :=
  (s.externalWaits c).filter fun (rel, t) => !s.internalDue c rel t

/-- The context would be blocked if this lasted BLOCK_US. -/
def State.blockTest (s : State) (c : Nat) : Bool :=
  (List.range (s.stnCount c)).all (s.stnBlocked c) && !(s.blockingWaits c).isEmpty

/-- Earliest of a list of times. -/
def earliest (l : List Nat) : Option Nat := l.foldl (fun b n => match b with | none => some n | some m => some (min m n)) none

/-- The expected ends of one external wait of a context blocked since `t0` (R359). -/
def State.waitEnds (s : State) (c t0 rel t : Nat) : List Nat :=
  let k := s.ctx c
  let ids := (s.descsOn c rel t).map (·.id)
  let sent := (List.range 16).flatMap fun d =>
    ((s.drover d).units.filter fun u => u.ctx == c && match u.kind with
      | .desc id _ => ids.contains id
      | _ => false).map (·.deadline)
  let plan := match k.itin.stepPlan with
    | some p => if k.planWaits p && k.dispRaises rel t then [k.stepStart + p.deadlineNs] else []
    | none => []
  let back := if k.returnRaises rel t || k.dispRaises rel t then [t0 + us s.fab.timeoutUs] else []
  sent ++ if plan.isEmpty then back else plan

/-- BLOCK_CLASS and the expected end (R359). -/
def State.blockedNow (s : State) (c t0 : Nat) : Blocked :=
  let l := s.blockingWaits c
  if l.all fun (rel, t) => s.sendRaises c rel t then ⟨1, none⟩
  else ⟨4, earliest (l.flatMap fun (rel, t) => s.waitEnds c t0 rel t)⟩

/-- BLOCK_DETECT (R358, R359): the test has held for BLOCK_US. -/
def execBlockDetect (p : Nat) (s : State) : Res :=
  match s.holderWith p fun k => k.state == .running with
  | none => .next s
  | some c =>
    let k := s.ctx c
    match k.blockSince with
    | none => .next s
    | some t =>
      if s.now < t + us k.blockNow || !s.blockTest c then .next s
      else
        let s := s.modCtx c fun k => { k with blocked := some (s.blockedNow c t) }
        .next (if k.window.isNone && s.otherReady p c then s.askPreempt p else s)

/-- Every station of the holder of partition `p` waits for its present cause, if it waits. -/
def State.noteHolder (s : State) (p : Nat) : State :=
  match s.holderWith p fun k => k.state == .running with
  | none => s
  | some c => s.foldNat (s.stnsOfCtx c) State.noteCause

/-- One microsecond of the holder of partition `p` (R53, R359): its external wait counts, and the time for which the test has
held. -/
def State.holderWaits (s : State) (p : Nat) : State :=
  match s.holderWith p fun k => k.state == .running with
  | none => s
  | some c =>
    let out := if s.waitsOutside c then us 1 else 0
    let held := s.blockTest c
    s.modCtx c fun k => { k with
      extNs := k.extNs + out, lifeExt := k.lifeExt + out
      blockSince := if held then k.blockSince <|> some s.now else none
      blocked := if held then k.blocked else none }

end Sys2Proof.Machine
end

