-- ==== Sys2Proof/Machine/Clock.lean ====
section
/-!
DEFINITION. The passing of gate time on an empty queue (01_package.md R33; log entry 2).
-/

namespace Sys2Proof.Machine

/-- A firmware image's write goes on for one microsecond (R413). -/
def State.writeFw (s : State) : State :=
  match s.sec.fwWrite with
  | none => s
  | some w => if w.left ≤ 1 then s.endFw else { s with sec := { s.sec with fwWrite := some { w with left := w.left - 1 } } }

/-- The firmware gives a heartbeat in each microsecond in which it runs: the spec gives no period (R343; DESIGN CHOICE, log entry 2). -/
def State.beat (s : State) : State :=
  if s.cmd.responsive then { s with cmd := { s.cmd with beatAt := some s.now } } else s

/-- A block whose selection `sel` names the event code in one of its `n` counters. -/
def names (sel : Word) (n code : Nat) : Bool := (List.range n).any fun i => bitsOf sel.toNat (8 * i) 8 == code

/-- The events of R452 that come with the passing of time: cycles in which compiled requesters wait at a slice (0x04), the waits, refreshes
and row activations of a stack (0x03 to 0x05), of which the spec gives no count, so that each is free; and a drover's entries in use,
in each of its 2,000 cycles of a microsecond (0x07). -/
def State.countTime (s : State) : State :=
  let s := s.foldNat (List.range 1024) fun s i =>
    if names (s.stn i).sliceSel 4 4 then
      let (d, s) := s.draw
      s.modStn i (·.sliceEvent 4 (Config.openValue d).toNat)
    else s
  let s := s.foldNat (List.range 32) fun s n => s.foldNat [3, 4, 5] fun s code =>
    if names (s.stk n).sel 8 code then
      let (d, s) := s.draw
      s.modStk n (·.event_ code (Config.openValue d).toNat)
    else s
  s.foldNat (List.range 16) fun s d =>
    if names (s.drover d).sel 8 7 then s.modDrover d fun v => v.event 7 (2000 * v.units.length) else s

/-- With no command waiting, a powered package's gate clock advances by one microsecond: the waits of each holder count, stations note what
they wait for (R450), events that come with time are counted, islands charge their holding energy (R390), a firmware image is written and commands that have waited for it run (R332, R413), and the drain of a port ends at its bound (R475); without power nothing happens. -/
def State.tick (s : State) : State :=
  if s.bring.powered then
    let s := s.foldNat (List.range s.sched.count) State.holderWaits
    let s := if s.bring.diesOn
      then ((s.foldNat (List.range s.sched.count) State.noteHolder).foldNat (List.range s.sched.count) (·.chargeHolding (us 1))).countTime
      else s
    let s := { s with now := s.now + us 1 }.beat.writeFw
    let s := State.runSerial s.cmd.serial.length s
    s.endDrains (·.drainEnds s.now) State.portDrained
  else s

end Sys2Proof.Machine
end

