-- ==== Sys2Proof/Machine/BringUp.lean ====
section
/-!
DEFINITION. Power-up, the boot ROM, training and self-test, resets, the presence latch and the JTAG port (15_bring_up.md
R434-R440, 14_security.md R409-R412, R425, R429, 17_failures_service.md R471, R473, 18_connectors_mechanical.md R484-R487).
-/

namespace Sys2Proof.Machine

/-! ### Input power (R434, R439) -/

/-- POWER_APPLIED (R434): the input reaches 40.0 V after having been removed. Fuses, flash and MRAM stay; the pins are as they
are; the lid mesh reads as it did; everything else starts anew, and PGOOD rises at the end of step 1. -/
def execPowerApplied (mv : Nat) (s : State) : Res :=
  if mv < 40000 then .next s
  else
    .next { pending := s.pending, nv := s.nv, out := s.out, free := s.free
            bring := { pgood := true, rstLow := s.bring.rstLow, prsntHigh := s.bring.prsntHigh }
            gov := { envelope := s.nv.fallbackW, inputMv := mv, event := s.gaspEvent, powerUps := s.gov.powerUps + 1 }
            sched := { count := s.nv.layout }, sec := { tamperOpen := s.sec.tamperOpen } }

/-! ### The boot ROM (R409-R412) -/

/-- The keys of R412 from an image: id_pub, at_priv, at_pub, alias_sig. -/
def bootKeys (fw rollback : Nat) (digest : Bytes) : Bytes × Bytes × Bytes × Bytes :=
  let ser := toBe 8 Config.serial.toNat
  let idSeed := hkdf (ascii "NGK7 identity") (toBe 32 Config.uds.toNat) ser 32
  let atSeed := hkdf digest idSeed (ascii "NGK7 attestation") 32
  let atPub := edPublic atSeed
  let signed := ser ++ toBe 8 fw ++ toBe 1 rollback ++ digest ++ atPub
  (edPublic idSeed, atSeed, atPub, edSign idSeed signed)

/-- A bank's state after the boot ROM's check of it (R433). -/
def Bank.checked (b : Bank) (ok : Bool) : Bank :=
  { b with state := if ok then 1 else if b.image.isEmpty && b.state == 0 then 0 else 2 }

/-- A bank whose write was cut short has failed at the next boot (R413). -/
def Bank.cut (b : Bank) : Bank := if b.state == 3 then { b with state := 2 } else b

/-- The boot ROM boots a bank (R409 steps 4 and 5): keys, GATE_FW, metering, and the firmware starts. -/
def State.bootFrom (s : State) (bank : Bool) : State :=
  let img := (if bank then s.nv.bankB else s.nv.bankA).image
  let fw := leAt img 16 8
  let digest := sha512 img
  let s := { s with
    gate := { s.gate with fw := BitVec.ofNat 64 fw }
    bring := { s.bring with romDone := true }
    cmd := { s.cmd with responsive := true, beatAt := some s.now }
    sec := { s.sec with
      bootBank := bank, fwDigest := BitVec.ofNat 512 (beNat digest), imageRollback := Fin.ofNat 65 (leAt img 26 1), contained := false } }
  if s.nv.revoked then s
  else
    let (idPub, atPriv, atPub, sig) := bootKeys fw s.nv.rollback digest
    { s with sec := { s.sec with idPub := idPub, atPriv := some atPriv, atPub := atPub, aliasSig := sig } }

/-- The firmware starts (R434 step 3): the ports train, the packets and alarms that waited for it are taken, and step 4 begins
if the reservoir is charged. -/
def State.startFirmware (s : State) : State :=
  let s := s.foldNat (List.range 8) fun s r => s.modPort r fun p => p.train s.now
  (s.startMetering.applyDeferred.runWaiting).tryDies

/-- BOOT_ROM (R407, R409): it reads the fuses and locks their port, and takes the selected bank, or the other one; with both failed it stops. -/
def execBootRom (s : State) : Res :=
  let b := s.bring
  if !b.powered || !b.pgood || b.romDone || b.stopped || b.rstLow.isSome || s.mode != 0 then .next s
  else
    let okA := fwCheck s.nv.bankA.image s.nv.rollback == 0
    let okB := fwCheck s.nv.bankB.image s.nv.rollback == 0
    let first := s.nv.nextBank
    let okFirst := if first then okB else okA
    let okOther := if first then okA else okB
    let s := { s with nv := { s.nv with bootCount := s.nv.bootCount + 1 } }
    let s := { s with
      bring := { s.bring with fuseLocked := true }
      nv := { s.nv with
        bankA := if first && okFirst then s.nv.bankA.cut else s.nv.bankA.checked okA
        bankB := if !first && okFirst then s.nv.bankB.cut else s.nv.bankB.checked okB } }
    if okFirst then .next (s.bootFrom first).startFirmware
    else if okOther then
      let s := { s with nv := { s.nv with nextBank := !first } }.seEvent 5
      .next (s.bootFrom (!first)).startFirmware
    else .next { s with bring := { s.bring with stopped := true } }

/-- RESERVOIR_CHARGED (R434 step 3, R435). -/
def execReservoirCharged (s : State) : Res :=
  if s.bring.powered && s.bring.romDone then .next { s with bring := { s.bring with reservoir := true } }.tryDies else .next s

/-! ### Training and self-test (R434 steps 4 and 5, R436) -/

/-- A channel is left out of live (R436): TRAIN_FAIL, and the fault-log entry. -/
def State.channelOut (s : State) (n ch : Nat) : State :=
  if 32 ≤ n || 32 ≤ ch then s
  else
    let s := s.modStk n fun k => { k with
      live := putBit (putBit k.live (2 * ch) false) (2 * ch + 1) false, out := putBit (putBit k.out (2 * ch) true) (2 * ch + 1) true }
    (s.hbEvent n 1).logFaultQuiet { kind := 7, flags := 1, unit := n * 256 + ch, info := 1 }

/-- A stack's state once its channels are known (R205, R436): with no live channel 0x04 where every channel has been removed, and
0x03 where some failed training or self-test and the others were removed (DESIGN CHOICE, log entry 49). -/
def Stk.settle (k : Stk) : Stk := { k with state := if k.live != 0 then 2 else if k.removed == BitVec.allOnes 64 then 4 else 3 }

/-- HBM_TRAINING_DONE (R434 step 4, R436, R439): every channel is live but the failed ones and those marked out of live since
power-up. Stations are then under test. -/
def execHbmTrainingDone (failed : List (Nat × Nat)) (s : State) : Res :=
  if !s.bring.diesOn || s.bring.trained || s.mode != 0 then .next s
  else
    let s := s.foldNat (List.range 32) fun s n => s.modStk n fun k => { k with live := ~~~ (k.out ||| k.removed) }
    let s := failed.foldl (fun s (n, ch) => s.channelOut n ch) s
    let s := s.foldNat (List.range 32) fun s n => s.modStk n Stk.settle
    let s := s.foldNat (List.range 1024) fun s i => s.modStn i fun t => { t with state := if t.failed then 4 else 5 }
    .next { s with bring := { s.bring with trained := true } }

/-- Self-test marks a station failed (R436). A failure of its own checks is written to the fault log; a station that only its slice,
ring stop or router fails, and that has failed already, is marked no further. -/
def State.testStation (s : State) (i : Nat) (bits : BitVec 7) : State :=
  if 1024 ≤ i || ((s.stn i).failed && bits == 0) then s
  else (s.modStn i fun t => { t.faults s.now bits with failed := true, state := 4 }).logFaultQuiet
    { kind := 3, flags := 1, station := i, unit := i, info := bits.setWidth 64 }

/-- Self-test marks the station above a failed slice, and writes the failure to the fault log (R196, R436). -/
def State.testSlice (s : State) (i : Nat) : State :=
  if 1024 ≤ i then s
  else
    let a := BitVec.ofNat 64 (2 ^ 63 + fld i 23 10)
    let s := { s with cst := { s.cst with uncorr := satAdd 64 s.cst.uncorr 1, errAddr := a } }
    let s := (s.csEvent 0).logFaultQuiet { kind := 5, flags := 1, unit := i, info := a }
    s.testStation i 0

/-- Self-test marks a link failed at both ends, with LINK_ERR (R61, R62, R436). -/
def State.testLink (s : State) (st l : Nat) : State :=
  match linkFar st l with
  | none => s
  | some far =>
    let mark (m : Nat) (t : Stn) : Stn := { t.faults s.now 0x40 with linkFailed := putBit t.linkFailed m true }
    ((s.modStn st (mark l)).modStn far (mark (linkBack l))).logFaultQuiet { kind := 4, flags := 1, unit := st * 4 + l }

/-- The links of a station that pass (R61). -/
def Stn.passLinks (t : Stn) (st : Nat) : Stn :=
  { t with linkUp := BitVec.ofNat 4 ((List.range 4).map fun l =>
      if (linkFar st l).isSome && !t.linkFailed.getLsbD l then 2 ^ l else 0).sum }

/-- SELF_TEST_DONE (R434 steps 5 and 6, R436): the marks, zeros everywhere, the stored layout and GATE_MODE 0x01, which the
zeroing of HBM precedes after a warm reset. -/
def execSelfTestDone (r : SelfTest) (s : State) : Res :=
  if !s.bring.trained || s.bring.selfTested || s.mode != 0 then .next s
  else
    let s := r.stations.foldl (fun s (i, bits) => s.testStation i bits) s
    let s := s.foldNat r.slices State.testSlice
    let s := s.foldNat r.served fun s i => s.testStation i 0
    let s := r.links.foldl (fun s (st, l) => s.testLink st l) s
    let s := r.channels.foldl (fun s (n, ch) => s.channelOut n ch) s
    let s := s.foldNat (List.range 32) fun s n => s.modStk n Stk.settle
    let s := s.foldNat (List.range 1024) fun s i => s.modStn i fun t => t.clear.passLinks i
    .next { s with bring := { s.bring with selfTested := true } }.trySplit

/-! ### Warm resets and pins (R396, R425, R437, R438, R473, R484-R487) -/

/-- RST_N_LOW (R437): low for 10 us; a warm reset begins. A removal's sequence runs to its end first: a RST_N that falls in it and
is still low when the latch closes begins the reset then (R487). -/
def execRstNLow (s : State) : Res :=
  if s.bring.rstLow.isSome then .next s
  else
    let s := { s with bring := { s.bring with rstLow := some s.now } }
    .next (if s.bring.removal && s.saving then s else s.warmReset)

/-- RST_N_RELEASE (R437): the boot ROM may start. -/
def execRstNRelease (s : State) : Res := .next { s with bring := { s.bring with rstLow := none } }

/-- RESET_TEMPERATURE_OK (R396, R438): every sensor reads 90 degrees or below; a warm reset that waits for this leaves GATE_MODE
0x03 and goes on with the boot ROM. -/
def execResetTemperatureOk (maxTemp : Int) (s : State) : Res :=
  if !s.bring.hot || 90 < maxTemp || !s.bring.powered || s.mode != 3 || s.sec.zeroizing then .next s
  else .next { s.setMode 0 with bring := { s.bring with hot := false } }

/-- HBM_ZERO_DONE (R425): the zeros of a warm reset have reached every populated HBM byte. -/
def execHbmZeroDone (s : State) : Res :=
  if s.bring.zeroPending && s.bring.trained then .next { s with bring := { s.bring with zeroPending := false } }.trySplit
  else .next s

/-- The latch opens during a save (R473): one save runs, and the entry of kind 0x0B joins a last-gasp save's if time allows. -/
def State.removeInSave (s : State) : State :=
  if s.bring.removal then s
  else
    let (d, s) := s.draw
    if (Config.openValue d).getLsbD 0 then s.logFaultQuiet { kind := 0x0B, flags := 2 } else s

/-- TRAY_REMOVAL (R471, R473): PRSNT_N has been high for 20 us. -/
def execTrayRemoval (s : State) : Res :=
  if s.bring.prsntHigh.isSome then .next s
  else
    let s := { s with bring := { s.bring with prsntHigh := some s.now } }
    if !s.bring.powered then .next s
    else
      let s := if s.saving then s.removeInSave else s.save 1 0x0B true
      .next { s with bring := { s.bring with removal := true } }

/-- PRESENCE_CLOSE (R473, R487): PRSNT_N has been low for 20 us. A RST_N still low after a removal begins a warm reset; a start
that waits before step 4 goes on. -/
def execPresenceClose (s : State) : Res :=
  let s := { s with bring := { s.bring with prsntHigh := none } }
  if s.bring.removal && s.bring.rstLow.isSome then .next s.warmReset
  else .next s.tryDies

/-- What a debug instruction reads (R429): a word of a station's state, of a slice or of a stack's HBM. Which one its code names is
a constant of the package (log entry 21). -/
def State.debugRead (s : State) (n : Nat) : Word :=
  let u := Config.debugUnit n
  let w := 8 * Config.debugWord n
  let bytes := match Config.debugKind n % 3 with
    | 0 =>
      let st := u % 1024
      let r := (s.stn st).arch.record ((List.range 64).map (s.stn st).arch.token)
      ((r.find? fun (o, bs) => o ≤ w && w + 8 ≤ o + bs.length).map fun (o, bs) => slice bs (w - o) 8).getD []
    | 1 =>
      let st := u % 1024
      match (s.stn st).ctx with
      | some c => rdBytes (s.ctx c).store w 8
      | none => rdBytes s.cst.split (2 ^ 23 * st + w % 2 ^ 23) 8
    | _ =>
      let k := u % 32
      match s.images.find? fun g => 4 * g.part * s.eighths ≤ k && k < 4 * (g.part + 1) * s.eighths with
      | some g => rdBytes g.data w 8
      | none => rdBytes s.cst.hbm (2 ^ 36 * k + w) 8
  BitVec.ofNat 64 (leNat bytes)

/-- JTAG_INSTRUCTION (R409 step 1, R429): taken, or refused and without effect. What IDCODE answers is not stated. To shift it in, the
debugger has driven TRST_N high, and TDO is let go when the shift ends (R484). -/
def execJtagInstruction (op : JtagOp) (s : State) : Res :=
  if !s.bring.powered then .next s
  else
    let ok := match op with
      | .bypass | .idcode | .samplePreload => true
      | .extest => s.mode == 0 || s.mode == 3
      | .debug _ => !s.nv.policy.isolation
    if !ok then .next s
    else
      let (d, s) := s.draw
      let v := match op with | .debug n => s.debugRead n | _ => Config.debugValue d
      .next { s with sec := { s.sec with jtag := some (op, v) }, bring := { s.bring with trstHigh := true, tdo := none } }

end Sys2Proof.Machine
end

