-- ==== Sys2Proof/Machine/Loader.lean ====
section
/-!
DEFINITION. The loader (04_station_instructions.md R131, R132): ITIN_LOAD's fetch, the eight checks in order, and the context
that an accepted itinerary becomes.
-/

namespace Sys2Proof.Machine

/-- A check: nothing, or the status and DETAIL of the refusal (R334). -/
abbrev Check := Except (BitVec 16 × Nat) Unit

/-- The item at file offset `off` must satisfy `c`. -/
def need (c : Bool) (st : BitVec 16) (off : Nat) : Check := if c then .ok () else .error (st, off)

/-- Every item of a list must pass. -/
def each {α : Type} : List α → (α → Check) → Check
  | [], _ => .ok ()
  | x :: rest, f => match f x with | .ok _ => each rest f | .error e => .error e

/-- Every number below `n` must pass. -/
def eachIdx (n : Nat) (f : Nat → Check) : Check := each (List.range n) f

/-- The checks of a list in order. -/
def inOrder (l : List Check) : Check := each l id

/-- Every listed (offset, bytes) field of an item at `base` is zero (R7). -/
def zeros (f : Bytes) (base : Nat) (l : List (Nat × Nat)) (st : BitVec 16) : Check :=
  each l fun (o, n) => need (zeroAt f (base + o) n) st (base + o)

/-- The elements of a list are all different. -/
def distinct (l : List Nat) : Bool := l.dedup.length == l.length

/-- Ranges (start, bytes) that do not overlap. -/
def disjoint (l : List (Nat × Nat)) : Bool :=
  l.zipIdx.all fun ((a, n), i) => l.zipIdx.all fun ((b, m), j) => j ≤ i || n == 0 || m == 0 || a + n ≤ b || b + m ≤ a

/-! ### Checks 1 to 3 -/

/-- Check 1: length, MAGIC, VERSION, HEADER_BYTES (R124). -/
def checkForm (f : Bytes) : Check :=
  inOrder [need (224 ≤ f.length && leAt f 8 8 == f.length) 0x0110 8, need (f.take 4 == [0x4E, 0x47, 0x4B, 0x49]) 0x0110 0,
    need (leAt f 4 2 == 1) 0x0110 4, need (leAt f 6 2 == 128) 0x0110 6]

/-- Check 2: SIGNER and SIGNATURE (R130). -/
def checkSigner (f : Bytes) (key : BitVec 256) : Check :=
  let n := f.length
  let signer := slice f (n - 96) 32
  need (key != 0 && beNat signer == key.toNat && edVerify signer (f.take (n - 64)) (f.drop (n - 64))) 0x0204 0

/-- Check 3: service and revision. -/
def checkRevision (s : State) (f : Bytes) : Check :=
  inOrder [need (s.mode == 2) 0x0301 0,
    need (leAt f 20 2 == 0x4200 && leAt f 22 2 == bitsOf s.gate.fw.toNat 48 16 && leAt f 24 2 ≤ bitsOf s.gate.fw.toNat 32 16)
      0x0305 0]

/-! ### Check 4 (R124-R129) -/

/-- Header fields and the section table. -/
def checkTable (f : Bytes) : Check :=
  let n := leAt f 16 2
  let l := sectionsOf f
  let top := 128 + 24 * n
  inOrder [
    need (4 ≤ n && n ≤ 64) 0x0111 16, need (leAt f 18 2 < 2) 0x0111 18, zeros f 0 [(27, 1), (72, 56)] 0x0111,
    need (1 ≤ leAt f 28 2 && leAt f 28 2 ≤ 128 * leAt f 26 1) 0x0111 28,
    each l.zipIdx fun (x, i) => need (1 ≤ x.kind && x.kind ≤ 14 && x.flags == 0 && x.rsv == 0 && x.off % 64 == 0 && top ≤ x.off &&
      x.off + x.len + 96 ≤ f.length && (l.take i).all fun y => y.kind != x.kind &&
        (y.len == 0 || x.len == 0 || y.off + y.len ≤ x.off || x.off + x.len ≤ y.off)) 0x0111 (128 + 24 * i),
    need ([1, 2, 3, 4].all fun t => (findSection l t).isSome) 0x0111 128]

/-- STATIONS and LAYOUT (R126, R127). -/
def checkLayout (f : Bytes) (l : List Section) (it : Itin) : Check :=
  let so := sectionOff l 1
  let ro := sectionOff l 3
  let st := sectionBytes f l 1
  inOrder [
    need (st.length == 32 * leAt f 28 2) 0x0111 so, need ((sectionBytes f l 3).length % 32 == 0) 0x0111 ro,
    each it.regions.zipIdx fun (r, i) =>
      let o := ro + 32 * i
      match zeros f o [(17, 1), (20, 12)] 0x0111 with
      | .error e => .error e
      | .ok _ => need (r.base % 4096 == 0 && r.bytes != 0 && r.bytes % 4096 == 0 && 1 ≤ r.kind.toNat && r.kind.toNat ≤ 8) 0x0111 o,
    need (disjoint (it.regions.map fun r => (r.base, r.bytes)) && (it.regions.map (·.bytes)).sum == it.storeBytes) 0x0111 ro,
    each it.streams.zipIdx fun (d, i) =>
      let o := so + 32 * i
      let n := leAt st (32 * i + 16) 4
      match zeros f o [(2, 2), (20, 4)] 0x0111 with
      | .error e => .error e
      | .ok _ => need (((it.streams.take i).all fun x => x.station < d.station) && leAt st (32 * i + 8) 8 % 32 == 0 && 1 ≤ n &&
          d.entry < n && leAt st (32 * i + 8) 8 + 32 * n ≤ (sectionBytes f l 2).length && d.regionBase % 32 == 0 &&
          it.regions.any fun r => r.kind == 1 && r.holds d.regionBase (32 * n)) 0x0111 o]

/-- BOUNDS, SHAPES, BARRIERS, SUMMARY (R128). -/
def checkShapes (f : Bytes) (l : List Section) (it : Itin) : Check :=
  let bo := sectionOff l 4
  let bb := sectionBytes f l 4
  let inKind (k : BitVec 8) (a n : Nat) : Bool := it.regions.any fun r => r.kind == k && r.holds a n
  inOrder [
    need (1 ≤ leAt bb 0 2 && leAt bb 0 2 ≤ 4096 && bb.length == 8 + 8 * leAt bb 0 2 && zeroAt bb 2 6) 0x0111 bo,
    need (it.firstBound < it.bounds.length) 0x0111 30,
    need ((sectionBytes f l 5).length % 16 == 0) 0x0111 (sectionOff l 5),
    each it.shapes.zipIdx fun (d, i) =>
      let o := sectionOff l 5 + 16 * i
      need (zeroAt f (o + 1) 3 && d.addr % 8 == 0 && inKind 5 d.addr 8 && (it.shapes.take i).all fun x => x.slot != d.slot) 0x0111 o,
    need ((sectionBytes f l 6).length % 136 == 0) 0x0111 (sectionOff l 6),
    each it.barriers.zipIdx fun (d, i) =>
      let o := sectionOff l 6 + 136 * i
      need (d.group ≤ 15 && zeroAt f (o + 1) 7 && 2 ≤ d.members.length && d.members.all (· < it.streams.length) &&
        (it.barriers.take i).all fun x => x.group != d.group) 0x0111 o,
    match it.summary with
    | none => .ok ()
    | some (base, n) =>
      need ((sectionBytes f l 8).length == 16 && 1 ≤ n && zeroAt (sectionBytes f l 8) 12 4 && inKind 6 base (64 * n)) 0x0111
        (sectionOff l 8)]

/-- TENSORS and WIDEREF (R128). -/
def checkTensors (f : Bytes) (l : List Section) (it : Itin) : Check :=
  inOrder [
    need ((sectionBytes f l 9).length % 32 == 0) 0x0111 (sectionOff l 9),
    each it.tensors.zipIdx fun (t, i) =>
      let o := sectionOff l 9 + 32 * i
      need (1 ≤ t.format.toNat && t.format.toNat ≤ 15 && leAt f (o + 5) 1 < 4 && zeroAt f (o + 6) 2 &&
        (!t.hasTopup || t.format == 7) && (!t.wideCopy || t.format == 11) && (t.hasTopup || t.topup == 0) &&
        (t.bytes == 0 || (t.offset + t.bytes ≤ it.hbmBytes &&
          (!t.hasTopup || t.topup + t.bytes / 136 * 128 ≤ it.hbmBytes)))) 0x0111 o,
    need ((sectionBytes f l 10).length % 8 == 0) 0x0111 (sectionOff l 10),
    each it.wideRef.zipIdx fun ((a, b), i) =>
      need ((match it.tensor a with | some t => recordLen t.format.toNat ≤ 264 && !t.wideCopy | none => false) &&
        (match it.tensor b with | some t => t.wideCopy | none => false)) 0x0111 (sectionOff l 10 + 8 * i)]

/-! ### Checks 5 and 6 (R365) -/

/-- Check 5: EIGHTHS, stations, stacks. -/
def checkShape (s : State) (p : Nat) (it : Itin) : Check :=
  let n := 4 * s.eighths
  need (it.eighths == s.eighths && it.stackMask < 2 ^ n &&
    it.streams.all (fun d => d.station < 128 * s.eighths && !(s.stn (s.stnBase p + d.station)).failed) &&
    (List.range n).all fun i => !bitOf it.stackMask i || (s.stk (p * n + i)).live != 0) 0x0405 0

/-- The contexts that count against a slice in check 6 and in R176: those with a reservation. -/
def State.reserved (s : State) (c : Nat) : Bool := (s.ctx c).resv.isSome

/-- The context number that an accepted itinerary takes: the lowest FREE one of its partition (DESIGN CHOICE, log entry 48: R131,
R132 and R352 name no order). -/
def State.freeCtx (s : State) (p : Nat) : Option Nat := (ctxsOfPart p).find? fun c => !s.loaded c

/-- Image bytes that the itinerary adds: none when it shares an image. -/
def State.newImage (s : State) (p : Nat) (it : Itin) : Nat :=
  match it.caravan with
  | none => it.hbmBytes
  | some c => if (s.image p c.imageId).isSome then 0 else it.hbmBytes

/-- Check 6: a free context, caravanserai, HBM. -/
def checkSpace (s : State) (p : Nat) (it : Itin) : Check :=
  inOrder [need (s.freeCtx p).isSome 0x0402 0,
    need (it.footprint ≤ ((s.stnsOfPart p).map (s.sliceFree s.reserved)).sum) 0x0403 0,
    need (s.newImage p it + it.hamperBytes ≤ s.hbmFree p) 0x0404 0]

/-! ### Check 7 (R114, R131) -/

/-- The target of a branch from bundle `i` lies in a stream of `n` bundles. -/
def inStream (i n : Nat) (off : BitVec 30) : Bool := 0 ≤ (i : Int) + off.toInt && (i : Int) + off.toInt < n

/-- What check 7 asks of an S slot. -/
def sNamed (it : Itin) (i n : Nat) : SOp → Bool
  | .br _ _ _ off | .jmp off | .call off => inStream i n off
  | .tinc _ k => k != 0
  | .ldshp _ _ k => it.shapes.any (·.slot == k.toNat)
  | .rdspec _ imm => imm.toNat ≤ 7
  | .step b => b.toNat < it.bounds.length
  | .bar _ g => it.barriers.any (·.group == g.toNat)
  | _ => true

/-- What check 7 asks of an X slot at package station `st`: a link that has not failed, with a far station of the context
(R131, R466). -/
def xNamed (s : State) (p : Nat) (it : Itin) (st : Nat) : XOp → Bool
  | .xsend link .. =>
    match linkFar st link.toNat with
    | some far => !(s.stn st).linkFailed.getLsbD link.toNat && it.streams.any fun d => s.stnBase p + d.station == far
    | none => false
  | .xnote _ _ n => n != 0
  | _ => true

/-- Check 7: every bundle of every stream. -/
def checkBundles (s : State) (p : Nat) (f : Bytes) (l : List Section) (it : Itin) : Check :=
  each it.streams.zipIdx fun (d, j) =>
    let st := s.stnBase p + d.station
    each d.words.zipIdx fun (w, i) =>
      need (match decodeBundle w with
        | none => false
        | some b => portsOk b && sNamed it i d.words.length b.s && xNamed s p it st b.x) 0x0112
          (sectionOff l 2 + leAt (sectionBytes f l 1) (32 * j + 8) 8 + 32 * i)

/-- Some bundle's X slot satisfies a test. -/
def Itin.issues (it : Itin) (t : XOp → Bool) : Bool :=
  it.streams.any fun d => d.words.any fun w => match decodeBundle w with | some b => t b.x | none => false

/-! ### Check 8: POLICY, placement and CARAVAN (R86, R175, R176, R185-R189) -/

/-- POLICY (R86). -/
def checkPolicy (f : Bytes) (l : List Section) (it : Itin) : Check :=
  match findSection l 7 with
  | none => .ok ()
  | some s => need (s.len == 24 && it.policy.boundExt == 0 && leAt f (s.off + 16) 1 < 2 && zeroAt f (s.off + 17) 7) 0x0113 s.off

/-- A region's placement allows its bytes (R174-R176). A Spread region of the KV kind must be whole 64 KiB pages, since R175 places
it by pages (DESIGN CHOICE, log entry 49). -/
def placed (it : Itin) (r : Region) : Bool :=
  let n := it.streams.length
  let p := r.placement.toNat
  r.base + r.bytes ≤ 0x00F000000000 && (r.kind != 4 || r.bytes % 65536 == 0 || p != 0) &&
    (p == 0 || (p == 1 && r.bytes % ((if r.kind == 4 then 65536 else 4096) * n) == 0) || (0x8000 ≤ p && p < 0x8000 + n && n ≤ 1024))

/-- Placement and slice room (R176). -/
def checkPlacement (s : State) (p : Nat) (l : List Section) (it : Itin) : Check :=
  inOrder [
    each it.regions.zipIdx fun (r, i) => need (placed it r) 0x0113 (sectionOff l 3 + 32 * i),
    each it.streams.zipIdx fun (d, j) => need (it.sliceBytes j ≤ s.sliceFree s.reserved (s.stnBase p + d.station)) 0x0403 0]

/-- The range lies wholly in one region of kind `k`. -/
def Itin.inKind (it : Itin) (k : BitVec 8) (a n : Nat) : Bool := it.regions.any fun r => r.kind == k && r.holds a n

/-- The range lies wholly in one image region. -/
def Caravan.inRegion (c : Caravan) (o n : Nat) : Bool := c.regions.any fun r => r.offset ≤ o && o + n ≤ r.offset + r.bytes

/-- The barrier group is declared. -/
def Itin.hasGroup (it : Itin) (g : Nat) : Bool := it.barriers.any (·.group == g)

/-- A caravan entry is sound for one tensor it may name (R188, R189). -/
def entryOk (it : Itin) (e : EntryDecl) (id : Nat) : Bool :=
  match it.tensor id, it.entrySource e id with
  | some t, some (o, n, w) =>
    let b := recordLen t.format.toNat
    e.src + e.bytes ≤ t.bytes && o + n ≤ w.bytes && it.inKind 2 e.dst n &&
      ((it.wide id).isNone || (e.src % b == 0 && e.bytes % b == 0))
  | _, _ => false

/-- Every tensor that a caravan entry may name is sound. -/
def entrySound (it : Itin) (e : EntryDecl) : Bool :=
  e.bytes != 0 && e.bytes % 8 == 0 &&
    if e.indirect then
      match it.shapes.find? (·.slot == e.slot), it.tensor e.tensor with
      | some d, some t =>
        entryOk it e e.tensor && (List.range d.max).all fun v =>
          match it.tensor (e.tensor + v) with
          | some x => x.format == t.format && x.bytes == t.bytes && entryOk it e (e.tensor + v)
          | none => false
      | _, _ => false
    else e.slot == 0 && entryOk it e e.tensor

/-- CARAVAN (R185-R189) and the image it names (R180). -/
def checkCaravan (s : State) (p : Nat) (f : Bytes) (l : List Section) (it : Itin) : Check :=
  match it.caravan with
  | none => need (it.hbmBytes == 0) 0x0113 48
  | some c =>
    let o := sectionOff l 11
    let b := sectionBytes f l 11
    let (ro, go, eo, len) := caravanTables b
    inOrder [
      need (b.length == len && c.imageId != 0 && leAt b 8 8 == it.hbmBytes && it.hbmBytes != 0 && it.hbmBytes % 4096 == 0 &&
        (c.storeSeeds.isEmpty || c.storeSeeds.length == it.regions.length) && 1 ≤ c.regions.length && c.regions.length ≤ 64 &&
        leAt b 22 2 < 2 && c.entries.length ≤ 1048576 && zeroAt b 28 36) 0x0113 o,
      each c.regions.zipIdx fun (r, i) =>
        need (r.offset % 4096 == 0 && r.bytes != 0 && r.bytes % 4096 == 0 && 1 ≤ r.homes && r.homes ≤ 256 &&
          (r.homes == 1 || (match it.peers with | some x => r.homes ≤ x.ids.length | none => false)) &&
          r.offset + r.bytes ≤ it.hbmBytes && zeroAt b (ro + 32 * i + 26) 6) 0x0113 (o + ro + 32 * i),
      need (disjoint (c.regions.map fun r => (r.offset, r.bytes)) && (c.regions.map (·.bytes)).sum == it.hbmBytes &&
        it.tensors.all fun t => t.bytes == 0 || (c.inRegion t.offset t.bytes &&
          (!t.hasTopup || c.inRegion t.topup (t.bytes / 136 * 128)))) 0x0113 (o + ro),
      each c.groups.zipIdx fun (g, i) =>
        need (((c.groups.take i).all fun x => x.entryEnd ≤ g.entryEnd) && (c.cyclic || g.passStride == 0) &&
          (g.releaseSrc == 0xFE || g.releaseSrc == 0xFF || (g.releaseSrc ≤ 15 && it.hasGroup g.releaseSrc)) &&
          (g.notifyGroup == 0xFF || (g.notifyGroup ≤ 15 && it.hasGroup g.notifyGroup)) && g.notifyToken ≤ 63 &&
          zeroAt b (go + 16 * i + 15) 1) 0x0113 (o + go + 16 * i),
      need ((match c.groups.getLast? with | some g => g.entryEnd | none => 0) == c.entries.length) 0x0113 (o + go),
      each c.entries.zipIdx fun (e, i) =>
        let x := eo + 32 * i
        need (leAt b (x + 4) 1 < 2 && zeroAt b (x + 6) 2 && zeroAt b (x + 28) 4 && entrySound it e) 0x0113 (o + x),
      match s.image p c.imageId with
      | none => .ok ()
      | some g => need (g.size == it.hbmBytes && g.regions == c.regions) 0x0303 0]

/-! ### Check 8: KVCONF (R213, R214) -/

/-- The value is a power of two from `2^lo` to `2^hi`. -/
def powTwo (v lo hi : Nat) : Bool := (List.range (hi - lo + 1)).any fun i => v == 2 ^ (lo + i)

/-- KVCONF (R213, R214). -/
def checkKv (s : State) (p : Nat) (f : Bytes) (l : List Section) (it : Itin) : Check :=
  match it.kv with
  | none => need (!it.issues fun x => match x with | .desc .walk .. => true | _ => false) 0x0113 0
  | some k =>
    let o := sectionOff l 13
    let b := sectionBytes f l 13
    let n := it.streams.length
    let tables := k.seqMax * (64 + 8 * k.blocks)
    let frames := k.frameGroups * k.layers * 65536
    let stage := n * k.stageFrames * 65536
    let exact (kind : BitVec 8) (a m : Nat) : Bool := it.regions.any fun r => r.kind == kind && r.base == a && r.bytes == m && r.placement == 1
    inOrder [
      need (b.length == 128 && powTwo k.tokenBytes 8 16 && 1 ≤ k.layers && k.layers ≤ 128 && 1 ≤ k.seqMax &&
        k.tokensMax != 0 && k.tokensMax % k.slots == 0 && leAt b 12 4 < 2 && 1 ≤ k.frameGroups && k.frameGroups ≤ 1048575 &&
        1 ≤ k.stageFrames && k.stageFrames ≤ 64 && k.listItems != 0 && k.listItems % 128 == 0 && k.frameBase % 65536 == 0 &&
        (!k.ledger || (k.modelTag != 0 && k.slots == 16)) && zeroAt b 38 2 && zeroAt b 60 4 && zeroAt b 88 40) 0x0113 o,
      need (it.inKind 4 k.btBase tables) 0x0113 (o + 16), need (it.inKind 4 k.frameBase frames) 0x0113 (o + 24),
      need (exact 4 k.stageBase stage) 0x0113 (o + 40), need (exact 8 k.listBase (n * k.listItems * 32)) 0x0113 (o + 48),
      need (it.inKind 3 k.tokenBase (k.seqMax * k.tokensMax * 4)) 0x0113 (o + 80),
      need (disjoint [(k.btBase, tables), (k.frameBase, frames), (k.stageBase, stage)]) 0x0113 (o + 16),
      need (s.newImage p it + it.hamperBytes + 65536 * k.poolPages ≤ s.hbmFree p) 0x0404 0]

/-! ### Check 8: STEPPLAN (R254-R256, R270) -/

/-- Plan entries are ascending without duplicates and in range (R270). -/
def quotasOk (p : StepPlan) (l : List Quota) : Bool :=
  l.all (fun q => q.layer < p.moeLayers && q.expert < p.experts) &&
    l.zipIdx.all fun (q, i) => match l[i + 1]? with
      | some r => q.layer < r.layer || (q.layer == r.layer && q.expert < r.expert)
      | none => true

/-- This package's PEERS index, and the number of PEERS entries. -/
def Itin.selfPeers (it : Itin) : Nat × Nat := match it.peers with | some x => (x.self, x.ids.length) | none => (0, 1)

/-- Home-map entries of a layer homed here, in expert order. -/
def StepPlan.homed (p : StepPlan) (self layer : Nat) : List HomeDecl :=
  ((List.range p.experts).filterMap (p.home layer)).filter fun h => h.home == self

/-- The home map of a layer is sound (R255, R256). -/
def layerOk (it : Itin) (p : StepPlan) (layer : Nat) : Bool :=
  let (self, peers) := it.selfPeers
  let mine := p.homed self layer
  ((List.range p.experts).filterMap (p.home layer)).all (fun h => h.home < peers && (h.home == self || (h.ordinal == 0 && h.tensor == 0))) &&
    mine.map (·.ordinal) == List.range mine.length &&
    mine.all (fun h => match it.tensor h.tensor, mine.head?.bind fun x => it.tensor x.tensor with
      | some t, some u => t.format == u.format && t.bytes == u.bytes
      | _, _ => false)

/-- The most experts of one layer homed here. -/
def StepPlan.maxHomed (p : StepPlan) (self : Nat) : Nat :=
  ((List.range p.moeLayers).map fun l => (p.homed self l).length).foldl max 0

/-- A group's slot block is declared with the maxima of R252 (R256). -/
def slotsOk (it : Itin) (p : StepPlan) (g : ExpertGroup) : Bool :=
  let n := p.lanes
  let has (i m : Nat) : Bool := it.shapes.any fun d => d.slot == g.slotBase + i && d.max == m
  let v := p.maxHomed it.selfPeers.1
  g.slotBase + 2 + 4 * n ≤ 256 && has 0 n && has 1 n && (List.range n).all fun j =>
    has (2 + j) v && has (2 + n + j) p.routeMax && has (2 + 2 * n + j) v && has (2 + 3 * n + j) p.serveRows

/-- A group's areas and tensors are sound (R253, R255, R256). -/
def groupOk (it : Itin) (p : StepPlan) (g : ExpertGroup) : Bool :=
  let self := it.selfPeers.1
  let sizes := (List.range p.moeLayers).flatMap fun l => (p.homed self l).filterMap fun h => (it.tensor h.tensor).map (·.bytes)
  1 ≤ g.count && g.first + g.count ≤ it.streams.length && g.returnToken ≤ 63 && (it.shapes.any fun d => d.slot == g.shipSlot) &&
    it.inKind 3 g.actBase p.actBytes &&
    it.inKind 8 g.listBase (64 * p.lanes + 8 * p.lanes * p.routeMax + 8 * p.lanes * p.serveRows) &&
    it.inKind 7 g.returnBase (p.routeMax * p.topK * (64 + p.resultBytes)) &&
    (List.range p.lanes).all fun j => match it.tensor (g.borrowTensor + j) with
      | some t => t.format == 7 && t.hasTopup && sizes.all (· == t.bytes)
      | none => false

/-- STEPPLAN (R254-R256). -/
def checkStepPlan (f : Bytes) (l : List Section) (it : Itin) : Check :=
  match it.stepPlan with
  | none => need (!it.issues fun x => match x with | .desc .disp .. => true | _ => false) 0x0113 0
  | some p =>
    let o := sectionOff l 12
    let b := sectionBytes f l 12
    let (go, po, len) := planTables b
    let mode := it.stepPlanMode
    inOrder [
      need (b.length == len && 1 ≤ p.experts && p.experts ≤ 4096 && 1 ≤ p.moeLayers && p.moeLayers ≤ 128 && 1 ≤ p.topK && p.topK ≤ 8 &&
        1 ≤ p.groups.length && p.groups.length ≤ 64 && 1 ≤ p.lanes && p.lanes ≤ 64 && zeroAt b 7 1 && 1 ≤ p.routeMax &&
        p.routeMax ≤ 65536 && 1 ≤ p.serveRows && p.serveRows ≤ 1048576 && p.actBytes % 64 == 0 && p.resultBytes % 64 == 0 &&
        1 ≤ p.shipMax && (p.hysteresis == 0xFFFF || p.threshold == 0xFFFF || p.hysteresis < p.threshold) && zeroAt b 80 48) 0x0113 o,
      need (if mode then 1000 ≤ p.deadlineNs && p.deadlineNs ≤ 1000000 else p.deadlineNs == 0) 0x0113 (o + 32),
      need (match it.caravan with
        | some c => p.caravanBase + p.moeLayers * p.groups.length * 2 * p.lanes ≤ c.groups.length
        | none => false) 0x0113 (o + 36),
      need (it.inKind 7 p.arrivalBase (2 * it.selfPeers.2 * p.shipMax * (64 + p.actBytes))) 0x0113 (o + 40),
      need (!mode || (p.histSlots != 0 && p.histSlotBytes % 64 == 0 && it.inKind 6 p.histBase (p.histSlots * p.histSlotBytes)))
        0x0113 (o + 48),
      need (!mode || (p.planBytes % 64 == 0 && it.inKind 5 p.planBase (2 * p.planBytes) && 32 + 8 * p.initPlan.length ≤ p.planBytes))
        0x0113 (o + 64),
      eachIdx p.moeLayers fun y => need (layerOk it p y) 0x0113 (o + 128 + 8 * y * p.experts),
      each p.groups.zipIdx fun (g, i) =>
        need (groupOk it p g && slotsOk it p g && zeroAt b (go + 64 * i + 7) 1 && zeroAt b (go + 64 * i + 36) 28) 0x0113 (o + go + 64 * i),
      need (disjoint (p.groups.map fun g => (g.first, g.count)) &&
        disjoint (p.groups.map fun g => (g.slotBase, 2 + 4 * p.lanes))) 0x0113 (o + go),
      need (quotasOk p p.initPlan && (List.range p.initPlan.length).all fun i => zeroAt b (po + 8 * i + 6) 2) 0x0113 (o + po)]

/-! ### Check 8: PEERS (R314) -/

/-- PEERS (R312, R314). -/
def checkPeers (s : State) (f : Bytes) (l : List Section) (it : Itin) : Check :=
  match it.peers with
  | none => need (it.job == 0) 0x0113 36
  | some x =>
    let o := sectionOff l 14
    let b := sectionBytes f l 14
    inOrder [
      need (it.job != 0) 0x0113 o,
      need (b.length == 16 + 4 * x.ids.length && 1 ≤ x.ids.length && x.ids.length ≤ 256 && x.self < x.ids.length && zeroAt b 4 12) 0x0113 o,
      each x.ids.zipIdx fun (_, i) => need (zeroAt b (16 + 4 * i + 1) 3) 0x0113 (o + 16 + 4 * i),
      need (distinct x.ids) 0x0113 (o + 16),
      need s.fab.plan.isSome 0x0303 0, need (x.ids.getD x.self 256 == s.fabricId) 0x0303 0,
      need (s.loadedCtxs.all fun c => (s.ctx c).itin.job != it.job) 0x0303 0,
      need (!s.jobBarred it.job) 0x0306 0]

/-! ### The whole of R131 -/

/-- The loader's checks on a file for partition `p`, in order (R131). -/
def State.checkFile (s : State) (p : Nat) (f : Bytes) : Check :=
  let l := sectionsOf f
  let it := readItin f
  inOrder [checkForm f, checkSigner f (s.part p).key, checkRevision s f, checkTable f, checkLayout f l it, checkShapes f l it,
    checkTensors f l it, checkShape s p it, checkSpace s p it, checkBundles s p f l it, checkPolicy f l it, checkPlacement s p l it,
    checkCaravan s p f l it, checkKv s p f l it, checkStepPlan f l it, checkPeers s f l it]

/-! ### Acceptance (R132) -/

/-- The streams placed at their REGION_BASE, and every sequence record free, its CHAIN_KEY the MODEL_TAG (R215). -/
def Itin.initialStore (it : Itin) : Mem :=
  let m := it.streams.foldl (fun m d => wrBytes m d.regionBase (d.words.flatMap fun w => toLe 32 w.toNat)) []
  match it.kv with
  | none => m
  | some v => (List.range v.seqMax).foldl (fun m q => wrBytes m (v.rec_ q + 8) (toLe 8 v.modelTag.toNat)) m

/-- The image that an accepted itinerary creates, when it names one that does not exist (R180). -/
def State.createImage (s : State) (p : Nat) (it : Itin) : State :=
  match it.caravan with
  | none => s
  | some c =>
    if (s.image p c.imageId).isSome then s
    else
      let stale (t : Transit) : Bool := match t with | .image q i .. => q == p && i == c.imageId | .split .. => false
      let tr := s.cst.transit.filterMap fun (k, l) =>
        let l := l.filter fun t => !stale t
        if l.isEmpty then none else some (k, l)
      { s with
        cst := { s.cst with transit := tr }
        images := s.images ++ [{ part := p, id := c.imageId, size := it.hbmBytes, regions := c.regions }] }

/-- An accepted itinerary becomes context `c` in the state LOADED (R132, R352, R355). -/
def State.createContext (s : State) (p c : Nat) (f : Bytes) : State :=
  let it := readItin f
  let u := (s.ctx c).use_
  (s.createImage p it).modCtx c fun _ =>
    { state := .loaded, use_ := (u + 1) % 32, handle := ctxHandle c (u + 1), itin := it, hamperBytes := it.hamperBytes
      digest := BitVec.ofNat 512 (beNat (sha512 f))
      store := it.initialStore, policy := it.policy, bound := it.firstBound
      moe := { plan := match it.stepPlan with | some x => x.initPlan | none => [] } }

/-- Check an itinerary and answer its ITIN_LOAD (R131, R132). -/
def State.loadFile (s : State) (j : LoadJob) : State :=
  match s.checkFile j.part j.file, s.freeCtx j.part with
  | .ok _, some c =>
    let s := (s.createContext j.part c j.file).gateEvent 6 1
    let s := s.hamperTraffic c (s.ctx c).itin.footprintAt (s.ctx c).itin.savedBytes
    let k := s.ctx c
    s.replyOwed j.owed 0 0 (toBe 2 k.handle.toNat ++ toBe 6 0 ++ toBe 64 k.digest.toNat)
  | .error (st, d), _ =>
    { s with tally := { s.tally with itinRefused := satAdd 32 s.tally.itinRefused 1 } }.replyOwed j.owed st (BitVec.ofNat 32 d)
  | .ok _, none => s.replyOwed j.owed 0x0402

/-- ITIN_CHECK (R131): the loader checks a file that has been read. -/
def execItinCheck (file : Bytes) (s : State) : Res :=
  match s.host.loads.find? fun j => j.file == file with
  | none => .next s
  | some j =>
    if !s.alive then .next s
    else .next ({ s with host := { s.host with loads := s.host.loads.erase j } }.loadFile j).runServices

/-- ITIN_LOAD (R344, R345). -/
def execItinLoad (p : Pkt) (s : State) : Res :=
  .next (s.receive 0x40 p fun s p k => s.withParams p 32 [(1, 3), (20, 4)] fun s =>
    let b := p.params
    if !s.hasPart (beAt b 0 1) then s.reply p 0x0105 0
    else if (s.outbound k (beAt b 4 4)).isNone then s.reply p 0x0105 4
    else if 2 ^ 31 < beAt b 24 8 then s.reply p 0x0105 24
    else s.enqueueService p k)

end Sys2Proof.Machine
end

