-- ==== Sys2Proof/Machine/CtxCmds.lean ====
section
/-!
DEFINITION. The commands that name a context (12_partitions_contexts.md R356, R361, R368, 03_number_formats.md R86,
09_experts.md R270, R278).
-/

namespace Sys2Proof.Machine

/-- A command of fixed parameters on the context that CONTEXT names; commands of one context run one at a time (R332, R333). -/
def State.ctxCmd (s : State) (op : Nat) (p : Pkt) (n : Nat) (l : List (Nat × Nat)) (f : State → Nat → Slot → State) : State :=
  s.receive op p fun s p k => s.withParams p n l fun s => s.withCtx p fun s c => s.serial p k c fun s => f s c k

/-! ### CTX_START, CTX_END, CTX_QUERY (R356) -/

/-- CTX_START (R356). -/
def execCtxStart (p : Pkt) (s : State) : Res :=
  .next (s.receive 0x41 p fun s p k => s.withLength p 8 fun s =>
    if 2 ≤ beAt p.params 0 4 then s.reply p 0x0102 0
    else s.withZeros p [(4, 4)] fun s => s.withCtx p fun s c => s.serial p k c fun s =>
      if (s.ctx c).state != .loaded then s.reply p 0x0302
      else
        let parked := beAt p.params 0 4 == 1
        (s.modCtx c fun k => { k with
          state := if parked then .parked else .swapped, swapFirst := parked, started := true, runnableSince := s.now }).reply p 0)

/-- CTX_END (R356): a FINISHED context becomes FREE; any other is torn down, and the reply follows the teardown. -/
def execCtxEnd (p : Pkt) (s : State) : Res :=
  .next (s.ctxCmd 0x42 p 0 [] fun s c k =>
    if (s.ctx c).state == .finished then
      let step := (s.ctx c).step
      ((s.releaseAll c).endContext c).reply p 0 0 (toBe 8 step)
    else (s.beginTeardown c 0x0D).modCtx c fun x => { x with owed := x.owed ++ [⟨k, p⟩] })

/-- The reply of CTX_QUERY (R356); RUN_NS and EXTERNAL_NS cover the context's life. -/
def State.queryBody (s : State) (c : Nat) : Bytes :=
  let k := (s.ctx c).account s.now
  let b := k.block
  toBe 1 k.state.code ++ toBe 1 (b2n b.isSome + 2 * b2n k.resident + 4 * b2n k.resv.isSome + 8 * b2n k.breach) ++
    toBe 1 (match b with | some x => x.cls | none => 0) ++ toBe 1 0 ++ toBe 4 k.itin.job.toNat ++ toBe 8 k.step ++
    toBe 2 k.itin.streams.length ++ toBe 1 k.itin.eighths ++ toBe 5 0 ++ toBe 8 k.itin.footprint ++ toBe 8 k.hamperBytes ++
    toBe 8 k.lifeRun ++ toBe 8 k.lifeExt

/-- CTX_QUERY (R356). -/
def execCtxQuery (p : Pkt) (s : State) : Res :=
  .next (s.ctxCmd 0x47 p 0 [] fun s c _ => s.reply p 0 0 (s.queryBody c))

/-! ### CTX_SCHED (R356) -/

/-- The parameter fields that an OP uses. -/
def schedUses (op : Nat) : List Nat :=
  match op with
  | 1 => [4]
  | 2 => [8, 12, 16, 20]
  | 6 => [24]
  | _ => []

/-- The fields (offset, bytes) that an OP does not use and that must be 0, the reserved ones included. -/
def schedZeros (op : Nat) : List (Nat × Nat) :=
  [(1, 3), (4, 4), (8, 4), (12, 4), (16, 4), (20, 4), (24, 2), (26, 6)].filter fun f => !(schedUses op).contains f.1

/-- CTX_SCHED with this OP on a context that its state does not forbid; the row of OP 1 also answers an OP out of range. -/
def State.schedCmd (s : State) (op : Nat) (p : Pkt) (f : State → Nat → State) : State :=
  let own := beAt p.params 0 1
  let valid := 1 ≤ own && own ≤ 6
  if own != op && (valid || op != 1) then s
  else s.ctxCmd 0x43 p 32 (if valid then schedZeros own else [(1, 3), (26, 6)]) fun s c _ =>
    if !valid then s.reply p 0x0105 0 else if (s.ctx c).state == .tearingDown then s.reply p 0x0302 else f s c

/-- CTX_SCHED OP 1 (R356): the slice, from the next slice on. -/
def execCtxSchedSlice (p : Pkt) (s : State) : Res :=
  .next (s.schedCmd 1 p fun s c =>
    let n := beAt p.params 4 4
    if n != 0 && (n < 100 || 1000000 < n) then s.reply p 0x0105 4
    else (s.modCtx c fun k => { k with sliceUs := n }).reply p 0)

/-- The microseconds of a period that a reservation takes, lead included (R361). -/
def Reservation.covers (r : Reservation) (t : Nat) : Bool :=
  (t + r.leadUs + r.periodUs * (r.phaseUs + r.leadUs) - r.phaseUs) % r.periodUs < r.leadUs + r.lengthUs

/-- Two reservations of one period overlap, modulo the period (R361). -/
def Reservation.overlaps (a b : Reservation) : Bool :=
  let first (r : Reservation) : Nat := (r.phaseUs + r.periodUs * r.leadUs - r.leadUs) % r.periodUs
  a.covers (first b) || b.covers (first a)

/-- The reservation breaks a rule of R361 beside those of the partition's other contexts. -/
def State.reserveRefused (s : State) (c : Nat) (r : Reservation) : Bool :=
  let others := ((ctxsOfPart (partOfCtx c)).filter (· != c)).filterMap fun d => (s.ctx d).resv
  !(s.ctx c).resident || r.periodUs == 0 || r.periodUs < r.leadUs + r.lengthUs || 4 ≤ others.length ||
    others.any fun o => o.periodUs != r.periodUs || o.overlaps r

/-- CTX_SCHED OP 2 (R361): reserve; an eviction that has been decided lapses. -/
def execCtxSchedReserve (p : Pkt) (s : State) : Res :=
  .next (s.schedCmd 2 p fun s c =>
    let b := p.params
    let r : Reservation := ⟨beAt b 8 4, beAt b 12 4, beAt b 16 4, beAt b 20 4, s.now⟩
    if r.lengthUs < 100 then s.reply p 0x0105 12
    else if r.leadUs < s.fab.timeoutUs + 100 then s.reply p 0x0105 20
    else if s.reserveRefused c r then s.reply p 0x0303
    else (s.modCtx c fun k => { k with resv := some r, window := none, evict := false }).reply p 0)

/-- CTX_SCHED OP 3 (R356): end the reservation. -/
def execCtxSchedUnreserve (p : Pkt) (s : State) : Res :=
  .next (s.schedCmd 3 p fun s c => (s.modCtx c fun k => { k with resv := none, window := none }).reply p 0)

/-- CTX_SCHED OP 4 (R356): PARK, at once where the context is LOADED, SWAPPED, READY or FINISHED. -/
def execCtxSchedPark (p : Pkt) (s : State) : Res :=
  .next (s.schedCmd 4 p fun s c =>
    let k := s.ctx c
    if k.isHeld || k.isParked then s.reply p 0x0302
    else if k.state == .loaded || k.state == .swapped || k.state == .ready || k.state == .finished then
      (s.modCtx c fun k => { k with state := .parked, window := none }).reply p 0
    else (s.modCtx c fun k => { k with parkPending := true }).reply p 0)

/-- A parked context returns to READY when it is resident, and to SWAPPED when it is not (R356); one that was parked before CTX_START is
SWAPPED then, and never swapped in (R443). -/
def Ctx.unpark (k : Ctx) (now : Nat) : Ctx :=
  if k.state == .parked then
    if k.resident then k.nowReady now
    else { k with state := .swapped, swapFirst := false, runnableSince := now }
  else { k with under := none, runnableSince := now }

/-- CTX_SCHED OP 5 (R356): UNPARK. -/
def execCtxSchedUnpark (p : Pkt) (s : State) : Res :=
  .next (s.schedCmd 5 p fun s c =>
    if !(s.ctx c).isParked then s.reply p 0x0302 else (s.modCtx c (·.unpark s.now)).reply p 0)

/-- CTX_SCHED OP 6 (R356, R368): INTERVAL. -/
def execCtxSchedInterval (p : Pkt) (s : State) : Res :=
  .next (s.schedCmd 6 p fun s c =>
    let n := beAt p.params 24 2
    if n == 0 then s.reply p 0x0105 24 else (s.modCtx c fun k => { k with interval := n }).reply p 0)

/-! ### CTX_POLICY, PLAN_POST, BATCH_CANCEL -/

/-- The replacement record of CTX_POLICY: the fields of R86 in order, each big-endian (R344). -/
def policyOf (b : Bytes) : Policy :=
  ⟨beAt b 0 2, beAt b 2 2, beAt b 4 2, beAt b 6 2, beAt b 8 4, beAt b 12 4, bitOf (beAt b 16 1) 0⟩

/-- CTX_POLICY (R86). -/
def execCtxPolicy (p : Pkt) (s : State) : Res :=
  .next (s.receive 0x44 p fun s p k => s.withLength p 24 fun s =>
    if 2 ≤ beAt p.params 16 1 then s.reply p 0x0102 16
    else s.withZeros p [(17, 7)] fun s => s.withCtx p fun s c => s.serial p k c fun s =>
      let new := policyOf p.params
      if (s.ctx c).state == .tearingDown then s.reply p 0x0302
      else if new.detourCycles != (s.ctx c).itin.policy.detourCycles then s.reply p 0x0105 8
      else (s.modCtx c fun k => { k with newPolicy := some new }).reply p 0)

/-- A refused plan post is counted (R282). -/
def State.refusePost (s : State) (p : Pkt) (c : Nat) (st : BitVec 16) : State :=
  ((s.moEvent 3).modPart (partOfCtx c) fun q => { q with postsRefused := satAdd 32 q.postsRefused 1 }).reply p st

/-- The entries of a plan record in the buffer of step `n`, when the record keeps R270. -/
def Ctx.planRecord (k : Ctx) (p : StepPlan) (n : Nat) : Option (List Quota) :=
  let b := rdBytes k.store (p.planBase + n % 2 * p.planBytes) p.planBytes
  let m := leAt b 8 4
  if p.planBytes < 32 + 8 * m || !zeroAt b 12 20 || leAt b 0 8 != n then none
  else
    let l := readQuotas b 32 m
    if quotasOk p l && (List.range m).all fun i => zeroAt b (38 + 8 * i) 2 then some l else none

/-- PLAN_POST (R270). -/
def execPlanPost (p : Pkt) (s : State) : Res :=
  .next (s.ctxCmd 0x45 p 8 [] fun s c _ =>
    let k := s.ctx c
    let n := beAt p.params 0 8
    match k.itin.stepPlan with
    | none => s.refusePost p c 0x0302
    | some x =>
      if !k.itin.stepPlanMode || k.state == .tearingDown then s.refusePost p c 0x0302
      else
        match k.planRecord x n with
        | none => s.refusePost p c 0x0106
        | some l =>
          if n < k.moe.planNext || k.moe.planNext + 1 < n then s.refusePost p c 0x0303
          else (s.modMoe c fun m => { m with planStore := (n, l) :: m.planStore.filter fun x => x.1 != n }).reply p 0)

/-- BATCH_CANCEL (R278). -/
def execBatchCancel (p : Pkt) (s : State) : Res :=
  .next (s.ctxCmd 0x46 p 0 [] fun s c _ =>
    if (s.ctx c).state == .tearingDown then s.reply p 0x0302
    else
      let s := s.batchCancel c
      s.reply p 0 0 (toBe 2 (s.ctx c).moe.epoch.toNat ++ toBe 6 0))

end Sys2Proof.Machine
end

