-- ==== Sys2Proof/Machine/Messages.lean ====
section
/-!
DEFINITION. The requests of peers as they arrive (10_brisor_fabric.md R294, R296, R300, R302).
-/

namespace Sys2Proof.Machine

/-- READ (R294, R296): 64 or 256 bytes by FLAGS [0]. -/
def execRead (m : Msg) (s : State) : Res := .next (s.onReq 0x01 m)

/-- WRITE (R294, R296): 256 bytes. -/
def execWrite (m : Msg) (s : State) : Res := .next (s.onReq 0x02 m)

/-- BULK_READ (R294, R296, R306): 4,096 bytes. -/
def execBulkRead (m : Msg) (s : State) : Res := .next (s.onReq 0x03 m)

/-- BULK_WRITE (R294, R296): 4,096 bytes. -/
def execBulkWrite (m : Msg) (s : State) : Res := .next (s.onReq 0x04 m)

/-- ATOMIC_ADD (R300), FLAGS [1:0] 0: adds, wrapping, and returns zeros. -/
def execAtomicAdd (m : Msg) (s : State) : Res := .next (if bitsOf m.flags.toNat 0 2 == 0 then s.onReq 0x05 m else s)

/-- ATOMIC_MAX (R300), FLAGS [1:0] 1: stores the larger value, unsigned, and returns zeros. -/
def execAtomicMax (m : Msg) (s : State) : Res := .next (if bitsOf m.flags.toNat 0 2 == 1 then s.onReq 0x05 m else s)

/-- ATOMIC_CAS (R300), FLAGS [1:0] 2: stores the operand on a match and returns the old word. -/
def execAtomicCas (m : Msg) (s : State) : Res := .next (if bitsOf m.flags.toNat 0 2 == 2 then s.onReq 0x05 m else s)

/-- ATOMIC_FADD (R300), FLAGS [1:0] 3: adds, wrapping, and returns the old word. -/
def execAtomicFadd (m : Msg) (s : State) : Res := .next (if bitsOf m.flags.toNat 0 2 == 3 then s.onReq 0x05 m else s)

/-- NOTIFY (R294, R296, R360). -/
def execNotify (m : Msg) (s : State) : Res := .next (s.onReq 0x06 m)

end Sys2Proof.Machine
end

