-- ==== Sys2Proof/Machine/Flits.lean ====
section
/-!
DEFINITION. Flits that bring messages (10_brisor_fabric.md R289-R294): the messages that a flit completes are taken from its class's
byte stream and served as if each had arrived whole.
-/

namespace Sys2Proof.Machine

/-- The state that a command leaves. -/
def State.left (s : State) (r : Res) : State :=
  match r with
  | .next t => t
  | _ => s

/-- Read a relay header, as `relayHeader` writes it (log entry 29). -/
def relayOf (b : Bytes) : RelayHdr :=
  { tree := beAt b 0 4, block := beAt b 4 4, layer := beAt b 8 2, expert := beAt b 10 2, position := beAt b 12 2
    members := (List.range (beAt b 14 2)).map fun i => (beAt b (16 + 3 * i) 1, beAt b (17 + 3 * i) 2) }

/-- Serve a message of type `t` that has arrived (R294). A reserved type is discarded as a message that fails its end-to-end check. -/
def State.takeMsg (s : State) (t : BitVec 8) (m : Msg) : State :=
  match t.toNat with
  | 1 => s.left (execRead m s)
  | 2 => s.left (execWrite m s)
  | 3 => s.left (execBulkRead m s)
  | 4 => s.left (execBulkWrite m s)
  | 5 => s.onReq t m
  | 6 => s.left (execNotify m s)
  | 0x10 => s.left (execResponse m s)
  | 0x20 => s.left (execArrival m s)
  | 0x21 => s.left (execShipDone m (beAt m.data 0 8) (beAt m.data 8 2) (beAt m.data 10 4) s)
  | 0x22 => s.left (execBorrow m (beAt m.data 0 8) (beAt m.data 8 2) (beAt m.data 10 2) (beAt m.data 12 2) s)
  | 0x23 => s.left (execCancel m (beAt m.data 0 2) s)
  | 0x24 => s.left (execReturnRec m s)
  | 0x28 => s.left (execRelayBlock m (relayOf m.data) s)
  | 0x30 => s.left (execDeparture m s)
  | _ => s.discard 7

/-- FLIT_RECEIVE (R289, R291-R294). -/
def execFlitReceive (r : Nat) (f : Flit) (s : State) : Res :=
  if 8 ≤ r || !s.portsRun || !s.portLinked r then .next s
  else
    let (l, s) := s.takeFlit r f
    .next (l.foldl (fun s (t, m) => s.takeMsg t m) s)

end Sys2Proof.Machine
end

