-- ==== Sys2Proof/Machine/Governor.lean ====
section
/-!
DEFINITION. The governor's loop and the islands' clocks (13_power_thermal.md R380-R385, R390, 02_stations.md R50, R51).
-/

namespace Sys2Proof.Machine

/-! ### The governor's loop (R382-R384, R390) -/

/-- Island `i`'s sensors: its own, the four stacks of its eighth, the gate die's and the converter's (R384, R394), each with
its control point. -/
def State.islandSensors (s : State) (i : Nat) : List (Int × Int) :=
  let at_ (cp : Int) (k : Nat) : Int × Int := ((s.sens k).temp, cp)
  at_ 95 i :: (((List.range 4).map fun j => at_ 95 (1024 + 4 * (i / 128) + j)) ++
    ((List.range 4).map fun j => at_ 95 (1056 + j)) ++ (List.range 4).map fun j => at_ 110 (1060 + j))

/-- The thermal cap of an island in its next period (R384). -/
def State.nextCap (s : State) (i : Nat) : Nat :=
  let l := s.islandSensors i
  let cap := (s.stn i).island.thermalCap
  if l.any fun (t, cp) => decide (cp ≤ t) then max 1000 (cap - 50)
  else if l.all fun (t, cp) => decide (t ≤ cp - 5) then min 2700 (cap + 5)
  else cap

/-- Candidate frequencies above the floor, highest first (R382). -/
def candidates (fmax : Nat) : List Nat := (List.range ((fmax - 1800) / 5)).map fun i => fmax - 5 * i

/-- The predicted energy of a period at `c` MHz is within the cap, both times 20 f (1050 + f)^2 (R382). -/
def predictOk (dyn hold hbm f c cap20 : Nat) : Bool :=
  20 * (dyn * c * (1050 + c) ^ 2 + hold * (1050 + c) * f * (1050 + f) + hbm * f * (1050 + f) ^ 2) ≤
    cap20 * f * (1050 + f) ^ 2

/-- The energy left in the second keeps the floor clock feasible at `c` MHz: room of R382, times the period. -/
def roomOk (e c shareSec8 used leftNs : Nat) : Bool :=
  (worstTick e c + used) * 10000 + worstTick e 1800 * leftNs ≤ (shareSec8 * (joule / 8) + worstTick e 1800) * 10000

/-- The frequency of a partition in its next period (R382). -/
def governed (e dyn hold hbm f fmax cap20 shareSec8 used leftNs : Nat) : Nat :=
  ((candidates fmax).find? fun c => predictOk dyn hold hbm f c cap20 && roomOk e c shareSec8 used leftNs).getD 1800

/-- An island in its next period: its thermal cap, its target within it and the shed, and its voltage, which stands one step
higher for 1 ms after a period that stretched more than 1 % of its cycles (R382, R384, R398). -/
def Island.govern (i : Island) (cap target now : Nat) : Island :=
  { i with
    thermalCap := cap, target := target, perCycles := 0, perStretched := 0
    lowWin := if cap < 1800 && i.lowWin == 0 then 1 else i.lowWin
    raised := if i.perCycles < 100 * i.perStretched then some (now + ms 1)
      else i.raised.bind fun t => if t ≤ now then none else some t }

/-- The islands of a partition begin their next period (R382, R384, R398). -/
def State.setTargets (s : State) (p f : Nat) : State :=
  let cap := if s.gov.shed then 1000 else 2700
  s.foldNat (s.stnsOfPart p) fun s st =>
    let t := s.nextCap st
    s.modStn st fun x => { x with island := x.island.govern t (min f (min t cap)) s.now }

/-- The energy charged in a partition's present period (R390). -/
def PartGov.spent (g : PartGov) : Nat := g.dyn + g.hold + g.hbm

/-- The modelled energy of a partition's period enters the ledger and the present millisecond (R387, R406), and the next period
begins; the partition's history grows while it has a holder (R383). -/
def State.closePeriod (s : State) (p w : Nat) : State :=
  let whole := s.now / ms 1 != s.gov.lastTick / ms 1
  let s := s.modPart p fun q => { q with gov := { q.gov with
    dyn := 0, hold := 0, hbm := 0
    historyUs := if q.holder.isSome then q.gov.historyUs + 10 else q.gov.historyUs
    lastMs := if whole then q.gov.msEnergy + w else q.gov.lastMs
    msEnergy := if whole then 0 else q.gov.msEnergy + w } }
  { s with gov := { s.gov with openModel := s.gov.openModel + w } }

/-- The loop of one partition, whose energy of the period is `w` (R382). -/
def State.runLoop (s : State) (p w : Nat) : State × Nat :=
  let g := (s.part p).gov
  let share := s.share8 p
  let fresh := s.second != s.gov.lastLoop / ms 1000
  let used := (if fresh then 0 else g.used) + w
  let shareSec := if fresh then share else max g.shareSec share
  let over_ := shareTick share < w
  let run := if over_ then g.runUs + 10 else 0
  let cap20 := shareTick share * (if run < 99990 && share == shareSec then 23 else 20)
  let f := governed s.eighths g.dyn g.hold g.hbm g.fNow (if g.historyUs < 100000 then 2100 else 2700) cap20 shareSec used
    (ms 1000 - s.now % ms 1000)
  (s.modPart p fun q => { q with gov := { q.gov with used := used, shareSec := shareSec, runUs := run, fNow := f } }, f)

/-- EXCURSION and the gate die's count of such periods (R406, R452): the period ran above the share, in a shed too. -/
def State.excursion (s : State) (p w : Nat) : State :=
  let over_ := decide (shareTick (s.share8 p) < w)
  let s := s.modPart p fun q => { q with gov := { q.gov with excursion := over_ } }
  if over_ then s.gateEvent 0x0C 1 else s

/-- The governor's period of one partition (R382): the loop, unless a shed bypasses it (R398), and the islands' next period. -/
def State.governPart (s : State) (p : Nat) : State :=
  let s := s.foldNat (s.stnsOfPart p) State.weaveSoFar
  let g := (s.part p).gov
  let w := g.spent
  let (s, f) := if s.gov.shed then (s, g.fNow) else s.runLoop p w
  ((s.excursion p w).closePeriod p w).setTargets p f

/-- Modelled power of the whole package, the reserve included (R406). -/
def State.totalModelled (s : State) : Nat :=
  ((List.range s.sched.count).map fun p => (s.part p).gov.lastMs).sum * 1000 / joule + 320

/-- GOVERNOR_TICK (R382): every 10 us, the loop of every partition; with the dies off only the modelled power is carried on (R406). -/
def execGovernorTick (s : State) : Res :=
  if !s.bring.powered || !s.bring.romDone || s.now < s.gov.lastTick + us 10 then .next s
  else
    let t := s.now
    let loop := s.bring.diesOn && !s.gov.shed
    let s := s.foldNat (List.range s.sched.count) fun s p => if s.bring.diesOn then s.governPart p else s.closePeriod p (s.part p).gov.spent
    .next { s with gov := { s.gov with
      lastTick := t, lastLoop := if loop then t else s.gov.lastLoop, modelledW := s.totalModelled } }

/-! ### Floor breaches (R385) -/

/-- The cause of a floor shortfall: a shed or a thermal cap below 1,800 MHz in the window, or else droop. -/
def State.breachCause (s : State) (st : Nat) : Nat := if (s.stn st).island.lowWin == 0 then 3 else (s.stn st).island.lowWin

/-- Send the POWER event of a partition's floor breaches. -/
def State.sendBreach (s : State) (p : Nat) : State :=
  let g := (s.part p).gov
  (s.modPart p fun q => { q with gov := { q.gov with breachPending := 0, breachAt := some s.now } }).powerEvent 3 g.breachCause p 0
    g.breachPending

/-- A floor shortfall of station `st`'s island (R52, R385). -/
def State.floorBreach (s : State) (st : Nat) : State :=
  let p := s.partOfStn st
  let cause := s.breachCause st
  let s := { s with gov := { s.gov with
    breachWindows := satAdd 32 s.gov.breachWindows 1, lastCause := cause, openBreach := true } }.gvEvent 2
  let s := s.modPart p fun q => { q with gov := { q.gov with
    breachWin := satAdd 32 q.gov.breachWin 1, breachPending := q.gov.breachPending + 1, breachCause := cause } }
  let s := match (s.stn st).ctx with
    | some c => s.modCtx c fun k => { k with breach := true }
    | none => s
  match (s.part p).gov.breachAt with
  | some t => if s.now < t + ms 100 then s else s.sendBreach p
  | none => s.sendBreach p

/-- FLOOR_BREACH_REPORT (R385): 100 ms after the last event, the windows short since then are reported. -/
def execFloorBreachReport (p : Nat) (s : State) : Res :=
  let g := (s.part p).gov
  match g.breachAt with
  | none => .next s
  | some t => .next (if !s.hasPart p || g.breachPending == 0 || s.now < t + ms 100 then s else s.sendBreach p)

/-! ### Oscillators and droop (R50, R51) -/

/-- Change an island. -/
def State.modIsland (s : State) (st : Nat) (f : Island → Island) : State := s.modStn st fun t => { t with island := f t.island }

/-- DCO_SETTLE (R50, R62): the oscillator settles on its target, or the station's DCO_LOCK check fails. -/
def execDcoSettle (st : Nat) (locked : Bool) (s : State) : Res :=
  let t := s.stn st
  if 1024 ≤ st || !s.bring.diesOn || t.island.freq == t.island.target then .next s
  else if locked then .next (s.modIsland st fun x => { x with freq := x.target })
  else .next (s.failStation st 1)

/-- DROOP_DETECT (R51): the cycles are stretched by 1 to 4 eighths. -/
def execDroopDetect (st eighths : Nat) (s : State) : Res :=
  if 1024 ≤ st || !s.bring.diesOn || eighths == 0 || 4 < eighths then .next s
  else .next (s.modIsland st fun x => { x with stretch := eighths, droopWin := true })

/-- DROOP_RECOVER (R51): the stretch is released, one step per cycle: of `k` eighths the next `k - 1` cycles are lengthened
still, the last of them by one. -/
def execDroopRecover (st : Nat) (s : State) : Res :=
  if 1024 ≤ st || !s.bring.diesOn then .next s
  else .next (s.modIsland st fun x => { x with
    stretch := 0, stretchAll := false, release := x.release + (x.stretch - 1) })

end Sys2Proof.Machine
end

