-- ==== Sys2Proof/Machine/Movement.lean ====
section
/-!
DEFINITION. The X-slot operations (04_station_instructions.md R112-R122): the bundle that holds the operation issues.
-/

namespace Sys2Proof.Machine

/-- XLD (R113). -/
def execXld (st : Nat) (b : Bundle) (x : XtOp) (s : State) : Res :=
  .next (s.issue st { b with x := .xld x })

/-- XST (R113). -/
def execXst (st : Nat) (b : Bundle) (x : XtOp) (s : State) : Res :=
  .next (s.issue st { b with x := .xst x })

/-- VLD (R113). -/
def execVld (st : Nat) (b : Bundle) (v : VReg) (a : Reg) (off : BitVec 12) (s : State) : Res :=
  .next (s.issue st { b with x := .vld v a off })

/-- VST (R113). -/
def execVst (st : Nat) (b : Bundle) (v : VReg) (a : Reg) (off : BitVec 12) (s : State) : Res :=
  .next (s.issue st { b with x := .vst v a off })

/-- XVS (R113). -/
def execXvs (st : Nat) (b : Bundle) (v : VReg) (a : Reg) (lane : BitVec 6) (s : State) : Res :=
  .next (s.issue st { b with x := .xvs v a lane })

/-- XSV (R113). -/
def execXsv (st : Nat) (b : Bundle) (v : VReg) (a : Reg) (lane : BitVec 6) (s : State) : Res :=
  .next (s.issue st { b with x := .xsv v a lane })

/-- XSEND (R121). -/
def execXsend (st : Nat) (b : Bundle) (link : BitVec 2) (rs rd rl : Reg) (tl tr : Tok) (s : State) : Res :=
  .next (s.issue st { b with x := .xsend link rs rd rl tl tr })

/-- XHALO (R122). -/
def execXhalo (st : Nat) (b : Bundle) (a : Reg) (off : BitVec 13) (s : State) : Res :=
  .next (s.issue st { b with x := .desc .halo a off })

/-- XNOTE (R113). -/
def execXnote (st : Nat) (b : Bundle) (a : Reg) (t : Tok) (n : BitVec 16) (s : State) : Res :=
  .next (s.issue st { b with x := .xnote a t n })

/-- XFAB (R295). -/
def execXfab (st : Nat) (b : Bundle) (a : Reg) (off : BitVec 13) (s : State) : Res :=
  .next (s.issue st { b with x := .desc .fab a off })

/-- XWALK (R218). -/
def execXwalk (st : Nat) (b : Bundle) (a : Reg) (off : BitVec 13) (s : State) : Res :=
  .next (s.issue st { b with x := .desc .walk a off })

/-- XDISP (R258). -/
def execXdisp (st : Nat) (b : Bundle) (a : Reg) (off : BitVec 13) (s : State) : Res :=
  .next (s.issue st { b with x := .desc .disp a off })

end Sys2Proof.Machine
end

