-- ==== Sys2Proof/Machine/Scalar.lean ====
section
/-!
DEFINITION. The S-slot operations (04_station_instructions.md R100-R111) and the empty bundle: the bundle that holds the
operation issues.
-/

namespace Sys2Proof.Machine

/-- ADD (R102). -/
def execAdd (st : Nat) (b : Bundle) (d a r : Reg) (s : State) : Res :=
  .next (s.issue st { b with s := .sr .add d a r })

/-- SUB (R102). -/
def execSub (st : Nat) (b : Bundle) (d a r : Reg) (s : State) : Res :=
  .next (s.issue st { b with s := .sr .sub d a r })

/-- AND (R102). -/
def execAnd (st : Nat) (b : Bundle) (d a r : Reg) (s : State) : Res :=
  .next (s.issue st { b with s := .sr .and d a r })

/-- OR (R102). -/
def execOr (st : Nat) (b : Bundle) (d a r : Reg) (s : State) : Res :=
  .next (s.issue st { b with s := .sr .or d a r })

/-- XOR (R102). -/
def execXor (st : Nat) (b : Bundle) (d a r : Reg) (s : State) : Res :=
  .next (s.issue st { b with s := .sr .xor d a r })

/-- SHL (R102). -/
def execShl (st : Nat) (b : Bundle) (d a r : Reg) (s : State) : Res :=
  .next (s.issue st { b with s := .sr .shl d a r })

/-- SHR (R102). -/
def execShr (st : Nat) (b : Bundle) (d a r : Reg) (s : State) : Res :=
  .next (s.issue st { b with s := .sr .shr d a r })

/-- SRA (R102). -/
def execSra (st : Nat) (b : Bundle) (d a r : Reg) (s : State) : Res :=
  .next (s.issue st { b with s := .sr .sra d a r })

/-- MUL (R102). -/
def execMul (st : Nat) (b : Bundle) (d a r : Reg) (s : State) : Res :=
  .next (s.issue st { b with s := .sr .mul d a r })

/-- MULHU (R102). -/
def execMulhu (st : Nat) (b : Bundle) (d a r : Reg) (s : State) : Res :=
  .next (s.issue st { b with s := .sr .mulhu d a r })

/-- MIN (R102). -/
def execMin (st : Nat) (b : Bundle) (d a r : Reg) (s : State) : Res :=
  .next (s.issue st { b with s := .sr .min d a r })

/-- MAX (R102). -/
def execMax (st : Nat) (b : Bundle) (d a r : Reg) (s : State) : Res :=
  .next (s.issue st { b with s := .sr .max d a r })

/-- MINU (R102). -/
def execMinu (st : Nat) (b : Bundle) (d a r : Reg) (s : State) : Res :=
  .next (s.issue st { b with s := .sr .minu d a r })

/-- MAXU (R102). -/
def execMaxu (st : Nat) (b : Bundle) (d a r : Reg) (s : State) : Res :=
  .next (s.issue st { b with s := .sr .maxu d a r })

/-- SLT (R102). -/
def execSlt (st : Nat) (b : Bundle) (d a r : Reg) (s : State) : Res :=
  .next (s.issue st { b with s := .sr .slt d a r })

/-- SLTU (R102). -/
def execSltu (st : Nat) (b : Bundle) (d a r : Reg) (s : State) : Res :=
  .next (s.issue st { b with s := .sr .sltu d a r })

/-- CHK (R102). -/
def execChk (st : Nat) (b : Bundle) (a r : Reg) (s : State) : Res :=
  .next (s.issue st { b with s := .chk a r })

/-- ADDI (R102). -/
def execAddi (st : Nat) (b : Bundle) (d a : Reg) (imm : BitVec 30) (s : State) : Res :=
  .next (s.issue st { b with s := .si .addi d a imm })

/-- ANDI (R102). -/
def execAndi (st : Nat) (b : Bundle) (d a : Reg) (imm : BitVec 30) (s : State) : Res :=
  .next (s.issue st { b with s := .si .andi d a imm })

/-- ORI (R102). -/
def execOri (st : Nat) (b : Bundle) (d a : Reg) (imm : BitVec 30) (s : State) : Res :=
  .next (s.issue st { b with s := .si .ori d a imm })

/-- XORI (R102). -/
def execXori (st : Nat) (b : Bundle) (d a : Reg) (imm : BitVec 30) (s : State) : Res :=
  .next (s.issue st { b with s := .si .xori d a imm })

/-- SHLI (R102). -/
def execShli (st : Nat) (b : Bundle) (d a : Reg) (imm : BitVec 30) (s : State) : Res :=
  .next (s.issue st { b with s := .si .shli d a imm })

/-- SHRI (R102). -/
def execShri (st : Nat) (b : Bundle) (d a : Reg) (imm : BitVec 30) (s : State) : Res :=
  .next (s.issue st { b with s := .si .shri d a imm })

/-- SRAI (R102). -/
def execSrai (st : Nat) (b : Bundle) (d a : Reg) (imm : BitVec 30) (s : State) : Res :=
  .next (s.issue st { b with s := .si .srai d a imm })

/-- LI (R102). -/
def execLi (st : Nat) (b : Bundle) (d : Reg) (imm : BitVec 30) (s : State) : Res :=
  .next (s.issue st { b with s := .si .li d 0 imm })

/-- LIM (R102). -/
def execLim (st : Nat) (b : Bundle) (d a : Reg) (imm : BitVec 30) (s : State) : Res :=
  .next (s.issue st { b with s := .si .lim d a imm })

/-- LIT (R102). -/
def execLit (st : Nat) (b : Bundle) (d a : Reg) (imm : BitVec 30) (s : State) : Res :=
  .next (s.issue st { b with s := .si .lit d a imm })

/-- LD (R102). -/
def execLd (st : Nat) (b : Bundle) (d a : Reg) (imm : BitVec 30) (s : State) : Res :=
  .next (s.issue st { b with s := .mem .ld d a imm })

/-- LDW (R102). -/
def execLdw (st : Nat) (b : Bundle) (d a : Reg) (imm : BitVec 30) (s : State) : Res :=
  .next (s.issue st { b with s := .mem .ldw d a imm })

/-- ST (R102). -/
def execSt (st : Nat) (b : Bundle) (d a : Reg) (imm : BitVec 30) (s : State) : Res :=
  .next (s.issue st { b with s := .mem .st d a imm })

/-- STW (R102). -/
def execStw (st : Nat) (b : Bundle) (d a : Reg) (imm : BitVec 30) (s : State) : Res :=
  .next (s.issue st { b with s := .mem .stw d a imm })

/-- BEQ (R103). -/
def execBeq (st : Nat) (b : Bundle) (a r : Reg) (off : BitVec 30) (s : State) : Res :=
  .next (s.issue st { b with s := .br .beq a r off })

/-- BNE (R103). -/
def execBne (st : Nat) (b : Bundle) (a r : Reg) (off : BitVec 30) (s : State) : Res :=
  .next (s.issue st { b with s := .br .bne a r off })

/-- BLT (R103). -/
def execBlt (st : Nat) (b : Bundle) (a r : Reg) (off : BitVec 30) (s : State) : Res :=
  .next (s.issue st { b with s := .br .blt a r off })

/-- BGE (R103). -/
def execBge (st : Nat) (b : Bundle) (a r : Reg) (off : BitVec 30) (s : State) : Res :=
  .next (s.issue st { b with s := .br .bge a r off })

/-- BLTU (R103). -/
def execBltu (st : Nat) (b : Bundle) (a r : Reg) (off : BitVec 30) (s : State) : Res :=
  .next (s.issue st { b with s := .br .bltu a r off })

/-- BGEU (R103). -/
def execBgeu (st : Nat) (b : Bundle) (a r : Reg) (off : BitVec 30) (s : State) : Res :=
  .next (s.issue st { b with s := .br .bgeu a r off })

/-- JMP (R103). -/
def execJmp (st : Nat) (b : Bundle) (off : BitVec 30) (s : State) : Res :=
  .next (s.issue st { b with s := .jmp off })

/-- CALL (R102). -/
def execCall (st : Nat) (b : Bundle) (off : BitVec 30) (s : State) : Res :=
  .next (s.issue st { b with s := .call off })

/-- RET (R102). -/
def execRet (st : Nat) (b : Bundle) (s : State) : Res :=
  .next (s.issue st { b with s := .ret })

/-- TINC (R44). -/
def execTinc (st : Nat) (b : Bundle) (t : Tok) (n : BitVec 16) (s : State) : Res :=
  .next (s.issue st { b with s := .tinc t n })

/-- TWAIT (R95). -/
def execTwait (st : Nat) (b : Bundle) (a : Reg) (t : Tok) (s : State) : Res :=
  .next (s.issue st { b with s := .twait a t })

/-- TREAD (R102). -/
def execTread (st : Nat) (b : Bundle) (d : Reg) (t : Tok) (s : State) : Res :=
  .next (s.issue st { b with s := .tread d t })

/-- LDSHP (R107). -/
def execLdshp (st : Nat) (b : Bundle) (d : Reg) (t : Tok) (k : BitVec 8) (s : State) : Res :=
  .next (s.issue st { b with s := .ldshp d t k })

/-- RDSPEC (R104). -/
def execRdspec (st : Nat) (b : Bundle) (d : Reg) (imm : BitVec 30) (s : State) : Res :=
  .next (s.issue st { b with s := .rdspec d imm })

/-- STEP (R108). -/
def execStep (st : Nat) (b : Bundle) (bound : BitVec 12) (s : State) : Res :=
  .next (s.issue st { b with s := .step bound })

/-- FINISH (R111). -/
def execFinish (st : Nat) (b : Bundle) (s : State) : Res :=
  .next (s.issue st { b with s := .finish })

/-- BAR (R109). -/
def execBar (st : Nat) (b : Bundle) (t : Tok) (g : BitVec 4) (s : State) : Res :=
  .next (s.issue st { b with s := .bar t g })

/-- NOP (R95). -/
def execNop (st : Nat) (b : Bundle) (s : State) : Res :=
  .next (s.issue st { b with m := .nop, v := .nop, s := .nop, x := .nop })

end Sys2Proof.Machine
end

