-- ==== Sys2Proof/Machine/Vector.lean ====
section
/-!
DEFINITION. The V-slot operations (05_weave_and_vector.md R146-R156): the bundle that holds the operation issues.
-/

namespace Sys2Proof.Machine

/-- The fields of an operation with one vector source. -/
def vr1 (d a : VReg) (ty : BitVec 4) : VrArgs := { d := d, a := a, ty := ty }
/-- The fields of an operation with two. -/
def vr2 (d a b : VReg) (ty : BitVec 4) : VrArgs := { d := d, a := a, b := b, ty := ty }
/-- The fields of an operation with three. -/
def vr3 (d a b c : VReg) (ty : BitVec 4) : VrArgs := { d := d, a := a, b := b, c := c, ty := ty }

/-- VADD (R148). -/
def execVadd (st : Nat) (b : Bundle) (d a r : VReg) (ty : BitVec 4) (s : State) : Res :=
  .next (s.issue st { b with v := .vr .vadd (vr2 d a r ty) })

/-- VSUB (R148). -/
def execVsub (st : Nat) (b : Bundle) (d a r : VReg) (ty : BitVec 4) (s : State) : Res :=
  .next (s.issue st { b with v := .vr .vsub (vr2 d a r ty) })

/-- VMUL (R148). -/
def execVmul (st : Nat) (b : Bundle) (d a r : VReg) (ty : BitVec 4) (s : State) : Res :=
  .next (s.issue st { b with v := .vr .vmul (vr2 d a r ty) })

/-- VFMA (R148). -/
def execVfma (st : Nat) (b : Bundle) (d a r c : VReg) (ty : BitVec 4) (s : State) : Res :=
  .next (s.issue st { b with v := .vr .vfma (vr3 d a r c ty) })

/-- VMAX (R148). -/
def execVmax (st : Nat) (b : Bundle) (d a r : VReg) (ty : BitVec 4) (s : State) : Res :=
  .next (s.issue st { b with v := .vr .vmax (vr2 d a r ty) })

/-- VMIN (R148). -/
def execVmin (st : Nat) (b : Bundle) (d a r : VReg) (ty : BitVec 4) (s : State) : Res :=
  .next (s.issue st { b with v := .vr .vmin (vr2 d a r ty) })

/-- VABS (R148). -/
def execVabs (st : Nat) (b : Bundle) (d a : VReg) (ty : BitVec 4) (s : State) : Res :=
  .next (s.issue st { b with v := .vr .vabs (vr1 d a ty) })

/-- VNEG (R148). -/
def execVneg (st : Nat) (b : Bundle) (d a : VReg) (ty : BitVec 4) (s : State) : Res :=
  .next (s.issue st { b with v := .vr .vneg (vr1 d a ty) })

/-- VSEL (R148). -/
def execVsel (st : Nat) (b : Bundle) (d a r c : VReg) (ty : BitVec 4) (s : State) : Res :=
  .next (s.issue st { b with v := .vr .vsel (vr3 d a r c ty) })

/-- VBCAST (R148). -/
def execVbcast (st : Nat) (b : Bundle) (d a : VReg) (ty : BitVec 4) (lane : BitVec 8) (s : State) : Res :=
  .next (s.issue st { b with v := .vr .vbcast { d := d, a := a, ty := ty, lane := lane } })

/-- VIOTA (R148). -/
def execViota (st : Nat) (b : Bundle) (d : VReg) (ty : BitVec 4) (s : State) : Res :=
  .next (s.issue st { b with v := .vr .viota { d := d, ty := ty } })

/-- VCVT (R152). -/
def execVcvt (st : Nat) (b : Bundle) (d a : VReg) (ty sty : BitVec 4) (part : BitVec 2) (s : State) : Res :=
  .next (s.issue st { b with v := .vr .vcvt { d := d, a := a, ty := ty, sty := sty, part := part } })

/-- VEXP (R149). -/
def execVexp (st : Nat) (b : Bundle) (d a : VReg) (ty : BitVec 4) (s : State) : Res :=
  .next (s.issue st { b with v := .vr .vexp (vr1 d a ty) })

/-- VLOG (R149). -/
def execVlog (st : Nat) (b : Bundle) (d a : VReg) (ty : BitVec 4) (s : State) : Res :=
  .next (s.issue st { b with v := .vr .vlog (vr1 d a ty) })

/-- VRSQRT (R149). -/
def execVrsqrt (st : Nat) (b : Bundle) (d a : VReg) (ty : BitVec 4) (s : State) : Res :=
  .next (s.issue st { b with v := .vr .vrsqrt (vr1 d a ty) })

/-- VTANH (R149). -/
def execVtanh (st : Nat) (b : Bundle) (d a : VReg) (ty : BitVec 4) (s : State) : Res :=
  .next (s.issue st { b with v := .vr .vtanh (vr1 d a ty) })

/-- VRCP (R149). -/
def execVrcp (st : Nat) (b : Bundle) (d a : VReg) (ty : BitVec 4) (s : State) : Res :=
  .next (s.issue st { b with v := .vr .vrcp (vr1 d a ty) })

/-- VRSUM (R150). -/
def execVrsum (st : Nat) (b : Bundle) (d a : VReg) (ty : BitVec 4) (s : State) : Res :=
  .next (s.issue st { b with v := .vr .vrsum (vr1 d a ty) })

/-- VRMAX (R150). -/
def execVrmax (st : Nat) (b : Bundle) (d a : VReg) (ty : BitVec 4) (s : State) : Res :=
  .next (s.issue st { b with v := .vr .vrmax (vr1 d a ty) })

/-- VRMAXI (R150). -/
def execVrmaxi (st : Nat) (b : Bundle) (d a : VReg) (ty : BitVec 4) (s : State) : Res :=
  .next (s.issue st { b with v := .vr .vrmaxi (vr1 d a ty) })

/-- VRDACC (R151). -/
def execVrdacc (st : Nat) (b : Bundle) (v : VReg) (acc : BitVec 2) (seg : BitVec 6) (sr : Reg) (s : State) : Res :=
  .next (s.issue st { b with v := .vrdacc v acc seg sr })

/-- VWRACC (R151). -/
def execVwracc (st : Nat) (b : Bundle) (v : VReg) (acc : BitVec 2) (seg : BitVec 6) (sr : Reg) (s : State) : Res :=
  .next (s.issue st { b with v := .vwracc v acc seg sr })

/-- VQ (R154). -/
def execVq (st : Nat) (b : Bundle) (q : VqOp) (s : State) : Res :=
  .next (s.issue st { b with v := .vq q })

/-- VDQ (R155). -/
def execVdq (st : Nat) (b : Bundle) (d : VReg) (ar : Reg) (fmt : BitVec 4) (half : Bool) (s : State) : Res :=
  .next (s.issue st { b with v := .vdq d ar fmt half })

end Sys2Proof.Machine
end

