-- ==== Sys2Proof/Machine/Windows.lean ====
section
/-!
DEFINITION. The end of an island's window (02_stations.md R51, R52, R59, R60; 16_tallies.md R446-R451): the cycle count, floor
shortfalls, and the cycles of the window in which no bundle issued.
-/

namespace Sys2Proof.Machine

/-- The accept channels, in the order of R450. -/
def channelCodes : List Nat := [0x1C, 0x1D, 0x1E]

/-- `n` cycles in which station `st` held its context and issued nothing. -/
def Stn.idle (t : Stn) (code n : Nat) : Stn :=
  let m := BitVec.ofNat 48 (4 * n)
  { t with tally := { t.tally with
      hold := t.tally.hold + BitVec.ofNat 48 n
      front := if code == 8 then t.tally.front + m else t.tally.front
      back := if code == 8 then t.tally.back else t.tally.back + m } }.event code (4 * n)

/-- How many of `n` cycles: all, some number that nothing fixes, or none. -/
def someOf (all any_ : Bool) (n d : Nat) : Nat :=
  if all then n else if any_ then (Config.openValue d).toNat % (n + 1) else 0

/-- `n` idle cycles among the waits that the station had: each takes a share that nothing fixes, the last what is left, since
the spec gives an issue no time within a window. -/
def State.shareIdle (s : State) (st : Nat) : List Nat → Nat → State
  | [], _ => s
  | [code], n => s.modStn st fun t => t.idle code n
  | code :: rest, n =>
    let (d, s) := s.draw
    let m := (Config.openValue d).toNat % (n + 1)
    (s.modStn st fun t => t.idle code m).shareIdle st rest (n - m)

/-- The cycles of the window in which no bundle issued (R446, R448, R450), among the waits that were noted in it and the present
one. Where there was none, the next bundle was resident and no counter held it, so an accept channel did: which one is free. -/
def State.countIdle (s : State) (st rest : Nat) : State :=
  let t := s.stn st
  let (d, s) := s.draw
  let (e, s) := s.draw
  let n := someOf t.island.wholeWin t.island.ranWin rest d
  let codes := (t.noteWaits (s.cause st).toList).island.waited
  let codes := if codes.isEmpty then [channelCodes.getD ((Config.openValue e).toNat % 3) 0x1E] else codes
  (s.modStn st fun t => { t with tally := { t.tally with cycles := t.tally.cycles + BitVec.ofNat 64 rest } }).shareIdle st codes n

/-- The stretched cycles of the window (R51): all of them when the droop lasted all of it, else at least one for a droop in it,
with those of a release that fall in it: how many of a release's cycles the window's end leaves to the next is free. -/
def State.countStretch (s : State) (st cycles : Nat) : State :=
  let i := (s.stn st).island
  let (d, s) := s.draw
  let (e, s) := s.draw
  let (f, s) := s.draw
  let now := (Config.openValue f).toNat % (i.release + 1)
  let droop := if i.stretchAll then cycles
    else if i.droopWin then min cycles (1 + (Config.openValue d).toNat % (cycles + 1)) else 0
  let n := min cycles (droop + i.releaseLeft + now)
  let run := someOf i.wholeWin i.ranWin n e
  s.modStn st fun t => { t with island := { t.island with
    stretched := satAdd 48 t.island.stretched n
    perCycles := t.island.perCycles + cycles, perStretched := t.island.perStretched + n, release := 0, releaseLeft := i.release - now } }.event 0x21 run

/-- The cause that a window which begins now gives a shortfall (R385): a shed in force, a thermal cap below 1,800 MHz, or the cause
of the window before while the target or the clock is still below 1,800 MHz. -/
def Island.cause (i : Island) (shed : Bool) : Nat :=
  if shed then 2 else if i.thermalCap < 1800 then 1 else if i.target < 1800 || i.freq < 1800 then i.lowWin else 0

/-- The next window begins. -/
def Stn.nextWindow (t : Stn) (cycles : Nat) (shed : Bool) (cause : Option Nat) : Stn :=
  { t with island := { t.island with
      lastWindow := min cycles 0xFFFF
      minWindow := if t.island.wholeWin then min t.island.minWindow cycles else t.island.minWindow
      issuedWin := 0, wholeWin := t.state == 1, ranWin := t.state == 1
      waited := cause.toList, lowWin := t.island.cause shed
      droopWin := t.island.stretch != 0, stretchAll := t.island.stretch != 0 } }

/-- ISLAND_WINDOW_END (R52): the island of station `st` has completed `cycles` cycles in the window. -/
def execIslandWindowEnd (st cycles : Nat) (s : State) : Res :=
  let i := (s.stn st).island
  if 1024 ≤ st || !s.bring.diesOn || cycles < i.issuedWin then .next s
  else
    let s := (s.countIdle st (cycles - i.issuedWin)).countStretch st cycles
    let s := if i.wholeWin && cycles < 1800 then s.floorBreach st else s
    .next (s.modStn st fun t => t.nextWindow cycles s.gov.shed (s.cause st))

end Sys2Proof.Machine
end

