-- ==== Sys2Proof/Machine/Dispatch.lean ====
section
/-!
DEFINITION. What each command does: one arm per row of the operation table.
-/

namespace Sys2Proof.Machine

def exec (i : Instr) (s : State) : Host.Outcome State Fault Refusal :=
  match i with
  | .add st b d a r => Sys2Proof.Machine.execAdd st b d a r s
  | .sub st b d a r => Sys2Proof.Machine.execSub st b d a r s
  | .and st b d a r => Sys2Proof.Machine.execAnd st b d a r s
  | .or st b d a r => Sys2Proof.Machine.execOr st b d a r s
  | .xor st b d a r => Sys2Proof.Machine.execXor st b d a r s
  | .shl st b d a r => Sys2Proof.Machine.execShl st b d a r s
  | .shr st b d a r => Sys2Proof.Machine.execShr st b d a r s
  | .sra st b d a r => Sys2Proof.Machine.execSra st b d a r s
  | .mul st b d a r => Sys2Proof.Machine.execMul st b d a r s
  | .mulhu st b d a r => Sys2Proof.Machine.execMulhu st b d a r s
  | .min st b d a r => Sys2Proof.Machine.execMin st b d a r s
  | .max st b d a r => Sys2Proof.Machine.execMax st b d a r s
  | .minu st b d a r => Sys2Proof.Machine.execMinu st b d a r s
  | .maxu st b d a r => Sys2Proof.Machine.execMaxu st b d a r s
  | .slt st b d a r => Sys2Proof.Machine.execSlt st b d a r s
  | .sltu st b d a r => Sys2Proof.Machine.execSltu st b d a r s
  | .chk st b a r => Sys2Proof.Machine.execChk st b a r s
  | .addi st b d a imm => Sys2Proof.Machine.execAddi st b d a imm s
  | .andi st b d a imm => Sys2Proof.Machine.execAndi st b d a imm s
  | .ori st b d a imm => Sys2Proof.Machine.execOri st b d a imm s
  | .xori st b d a imm => Sys2Proof.Machine.execXori st b d a imm s
  | .shli st b d a imm => Sys2Proof.Machine.execShli st b d a imm s
  | .shri st b d a imm => Sys2Proof.Machine.execShri st b d a imm s
  | .srai st b d a imm => Sys2Proof.Machine.execSrai st b d a imm s
  | .li st b d imm => Sys2Proof.Machine.execLi st b d imm s
  | .lim st b d a imm => Sys2Proof.Machine.execLim st b d a imm s
  | .lit st b d a imm => Sys2Proof.Machine.execLit st b d a imm s
  | .ld st b d a imm => Sys2Proof.Machine.execLd st b d a imm s
  | .ldw st b d a imm => Sys2Proof.Machine.execLdw st b d a imm s
  | .st st b d a imm => Sys2Proof.Machine.execSt st b d a imm s
  | .stw st b d a imm => Sys2Proof.Machine.execStw st b d a imm s
  | .beq st b a r off => Sys2Proof.Machine.execBeq st b a r off s
  | .bne st b a r off => Sys2Proof.Machine.execBne st b a r off s
  | .blt st b a r off => Sys2Proof.Machine.execBlt st b a r off s
  | .bge st b a r off => Sys2Proof.Machine.execBge st b a r off s
  | .bltu st b a r off => Sys2Proof.Machine.execBltu st b a r off s
  | .bgeu st b a r off => Sys2Proof.Machine.execBgeu st b a r off s
  | .jmp st b off => Sys2Proof.Machine.execJmp st b off s
  | .call st b off => Sys2Proof.Machine.execCall st b off s
  | .ret st b => Sys2Proof.Machine.execRet st b s
  | .tinc st b t n => Sys2Proof.Machine.execTinc st b t n s
  | .twait st b a t => Sys2Proof.Machine.execTwait st b a t s
  | .tread st b d t => Sys2Proof.Machine.execTread st b d t s
  | .ldshp st b d t k => Sys2Proof.Machine.execLdshp st b d t k s
  | .rdspec st b d imm => Sys2Proof.Machine.execRdspec st b d imm s
  | .step st b bound => Sys2Proof.Machine.execStep st b bound s
  | .finish st b => Sys2Proof.Machine.execFinish st b s
  | .bar st b t g => Sys2Proof.Machine.execBar st b t g s
  | .xld st b x => Sys2Proof.Machine.execXld st b x s
  | .xst st b x => Sys2Proof.Machine.execXst st b x s
  | .vld st b v a off => Sys2Proof.Machine.execVld st b v a off s
  | .vst st b v a off => Sys2Proof.Machine.execVst st b v a off s
  | .xvs st b v a lane => Sys2Proof.Machine.execXvs st b v a lane s
  | .xsv st b v a lane => Sys2Proof.Machine.execXsv st b v a lane s
  | .xsend st b link rs rd rl tl tr => Sys2Proof.Machine.execXsend st b link rs rd rl tl tr s
  | .xhalo st b a off => Sys2Proof.Machine.execXhalo st b a off s
  | .xnote st b a t n => Sys2Proof.Machine.execXnote st b a t n s
  | .xfab st b a off => Sys2Proof.Machine.execXfab st b a off s
  | .xwalk st b a off => Sys2Proof.Machine.execXwalk st b a off s
  | .xdisp st b a off => Sys2Proof.Machine.execXdisp st b a off s
  | .vadd st b d a r ty => Sys2Proof.Machine.execVadd st b d a r ty s
  | .vsub st b d a r ty => Sys2Proof.Machine.execVsub st b d a r ty s
  | .vmul st b d a r ty => Sys2Proof.Machine.execVmul st b d a r ty s
  | .vfma st b d a r c ty => Sys2Proof.Machine.execVfma st b d a r c ty s
  | .vmax st b d a r ty => Sys2Proof.Machine.execVmax st b d a r ty s
  | .vmin st b d a r ty => Sys2Proof.Machine.execVmin st b d a r ty s
  | .vabs st b d a ty => Sys2Proof.Machine.execVabs st b d a ty s
  | .vneg st b d a ty => Sys2Proof.Machine.execVneg st b d a ty s
  | .vsel st b d a r c ty => Sys2Proof.Machine.execVsel st b d a r c ty s
  | .vbcast st b d a ty lane => Sys2Proof.Machine.execVbcast st b d a ty lane s
  | .viota st b d ty => Sys2Proof.Machine.execViota st b d ty s
  | .vcvt st b d a ty sty part => Sys2Proof.Machine.execVcvt st b d a ty sty part s
  | .vexp st b d a ty => Sys2Proof.Machine.execVexp st b d a ty s
  | .vlog st b d a ty => Sys2Proof.Machine.execVlog st b d a ty s
  | .vrsqrt st b d a ty => Sys2Proof.Machine.execVrsqrt st b d a ty s
  | .vtanh st b d a ty => Sys2Proof.Machine.execVtanh st b d a ty s
  | .vrcp st b d a ty => Sys2Proof.Machine.execVrcp st b d a ty s
  | .vrsum st b d a ty => Sys2Proof.Machine.execVrsum st b d a ty s
  | .vrmax st b d a ty => Sys2Proof.Machine.execVrmax st b d a ty s
  | .vrmaxi st b d a ty => Sys2Proof.Machine.execVrmaxi st b d a ty s
  | .vrdacc st b v acc seg sr => Sys2Proof.Machine.execVrdacc st b v acc seg sr s
  | .vwracc st b v acc seg sr => Sys2Proof.Machine.execVwracc st b v acc seg sr s
  | .vq st b q => Sys2Proof.Machine.execVq st b q s
  | .vdq st b d ar fmt half => Sys2Proof.Machine.execVdq st b d ar fmt half s
  | .wv st b w => Sys2Proof.Machine.execWv st b w s
  | .pendingMarkClear st mark => Sys2Proof.Machine.execPendingMarkClear st mark s
  | .lineFetchArrive st line => Sys2Proof.Machine.execLineFetchArrive st line s
  | .xldComplete st ix => Sys2Proof.Machine.execXldComplete st ix s
  | .xstComplete st ix => Sys2Proof.Machine.execXstComplete st ix s
  | .xstNotifyDeliver st ix => Sys2Proof.Machine.execXstNotifyDeliver st ix s
  | .xnoteDeliver st ix => Sys2Proof.Machine.execXnoteDeliver st ix s
  | .xsendSourceRead st ix => Sys2Proof.Machine.execXsendSourceRead st ix s
  | .xsendDeliver st ix => Sys2Proof.Machine.execXsendDeliver st ix s
  | .haloDescriptorCopy st ix => Sys2Proof.Machine.execHaloDescriptorCopy st ix s
  | .haloSourceRead st ix => Sys2Proof.Machine.execHaloSourceRead st ix s
  | .haloDeliver st ix => Sys2Proof.Machine.execHaloDeliver st ix s
  | .ldshpArrive st ix => Sys2Proof.Machine.execLdshpArrive st ix s
  | .wvStart st => Sys2Proof.Machine.execWvStart st s
  | .topupArrive st => Sys2Proof.Machine.execTopupArrive st s
  | .wvComplete st => Sys2Proof.Machine.execWvComplete st s
  | .stepRelease ctx => Sys2Proof.Machine.execStepRelease ctx s
  | .barrierRelease ctx g => Sys2Proof.Machine.execBarrierRelease ctx g s
  | .dcoSettle st locked => Sys2Proof.Machine.execDcoSettle st locked s
  | .droopDetect st eighths => Sys2Proof.Machine.execDroopDetect st eighths s
  | .droopRecover st => Sys2Proof.Machine.execDroopRecover st s
  | .islandWindowEnd st cycles => Sys2Proof.Machine.execIslandWindowEnd st cycles s
  | .floorBreachReport p => Sys2Proof.Machine.execFloorBreachReport p s
  | .stationCheckFail st checks => Sys2Proof.Machine.execStationCheckFail st checks s
  | .ringStopFail router st => Sys2Proof.Machine.execRingStopFail router st s
  | .linkFail st link => Sys2Proof.Machine.execLinkFail st link s
  | .sliceUncorrectable slice offset => Sys2Proof.Machine.execSliceUncorrectable slice offset s
  | .hbmUncorrectable stack offset hit => Sys2Proof.Machine.execHbmUncorrectable stack offset hit s
  | .patrolScrubStep target found => Sys2Proof.Machine.execPatrolScrubStep target found s
  | .transitWriteDown eighth => Sys2Proof.Machine.execTransitWriteDown eighth s
  | .caravanGroupBegin ctx => Sys2Proof.Machine.execCaravanGroupBegin ctx s
  | .caravanGroupComplete ctx ix => Sys2Proof.Machine.execCaravanGroupComplete ctx ix s
  | .walkRead ctx => Sys2Proof.Machine.execWalkRead ctx s
  | .walkAppend ctx => Sys2Proof.Machine.execWalkAppend ctx s
  | .walkCommit ctx => Sys2Proof.Machine.execWalkCommit ctx s
  | .sealComplete ix => Sys2Proof.Machine.execSealComplete ix s
  | .walkLookup ctx => Sys2Proof.Machine.execWalkLookup ctx s
  | .walkFork ctx => Sys2Proof.Machine.execWalkFork ctx s
  | .walkRelease ctx => Sys2Proof.Machine.execWalkRelease ctx s
  | .walkAck ctx => Sys2Proof.Machine.execWalkAck ctx s
  | .walkStageArrive ctx crcOk => Sys2Proof.Machine.execWalkStageArrive ctx crcOk s
  | .route ctx group => Sys2Proof.Machine.execRoute ctx group s
  | .routeProceed ctx => Sys2Proof.Machine.execRouteProceed ctx s
  | .borrowRequestSend ctx layer expert => Sys2Proof.Machine.execBorrowRequestSend ctx layer expert s
  | .planDeadline ctx => Sys2Proof.Machine.execPlanDeadline ctx s
  | .serve ctx => Sys2Proof.Machine.execServe ctx s
  | .serveProceed ctx => Sys2Proof.Machine.execServeProceed ctx s
  | .dispatchReturn ctx => Sys2Proof.Machine.execDispatchReturn ctx s
  | .relayTreeStart ctx layer expert => Sys2Proof.Machine.execRelayTreeStart ctx layer expert s
  | .droverDescriptorStart d => Sys2Proof.Machine.execDroverDescriptorStart d s
  | .read m => Sys2Proof.Machine.execRead m s
  | .write m => Sys2Proof.Machine.execWrite m s
  | .bulkRead m => Sys2Proof.Machine.execBulkRead m s
  | .bulkWrite m => Sys2Proof.Machine.execBulkWrite m s
  | .atomicAdd m => Sys2Proof.Machine.execAtomicAdd m s
  | .atomicMax m => Sys2Proof.Machine.execAtomicMax m s
  | .atomicCas m => Sys2Proof.Machine.execAtomicCas m s
  | .atomicFadd m => Sys2Proof.Machine.execAtomicFadd m s
  | .notify m => Sys2Proof.Machine.execNotify m s
  | .response m => Sys2Proof.Machine.execResponse m s
  | .arrival m => Sys2Proof.Machine.execArrival m s
  | .shipDone m stepNo layer count => Sys2Proof.Machine.execShipDone m stepNo layer count s
  | .borrow m stepNo layer expert epoch => Sys2Proof.Machine.execBorrow m stepNo layer expert epoch s
  | .cancel m epoch => Sys2Proof.Machine.execCancel m epoch s
  | .returnRec m => Sys2Proof.Machine.execReturnRec m s
  | .relayBlock m r => Sys2Proof.Machine.execRelayBlock m r s
  | .departure m => Sys2Proof.Machine.execDeparture m s
  | .retryResend d ix => Sys2Proof.Machine.execRetryResend d ix s
  | .unitTimeout d ix => Sys2Proof.Machine.execUnitTimeout d ix s
  | .heldUnitsRelease pkg => Sys2Proof.Machine.execHeldUnitsRelease pkg s
  | .holdExpire ctx => Sys2Proof.Machine.execHoldExpire ctx s
  | .quarantineEnd job => Sys2Proof.Machine.execQuarantineEnd job s
  | .flitReceive port f => Sys2Proof.Machine.execFlitReceive port f s
  | .identityFlitRx port record => Sys2Proof.Machine.execIdentityFlitRx port record s
  | .portLaneLock port locked => Sys2Proof.Machine.execPortLaneLock port locked s
  | .creditInitDone port credits => Sys2Proof.Machine.execCreditInitDone port credits s
  | .trainStepTimeout port => Sys2Proof.Machine.execTrainStepTimeout port s
  | .laneFail port lane codewords => Sys2Proof.Machine.execLaneFail port lane codewords s
  | .portDown port => Sys2Proof.Machine.execPortDown port s
  | .farEndSilent port => Sys2Proof.Machine.execFarEndSilent port s
  | .rdmaWrite q data => Sys2Proof.Machine.execRdmaWrite q data s
  | .rdmaRead q len => Sys2Proof.Machine.execRdmaRead q len s
  | .rdmaSend q data => Sys2Proof.Machine.execRdmaSend q data s
  | .rdmaCompletion qpn data => Sys2Proof.Machine.execRdmaCompletion qpn data s
  | .rdmaRetryTimeout qpn => Sys2Proof.Machine.execRdmaRetryTimeout qpn s
  | .cnpReceive qpn => Sys2Proof.Machine.execCnpReceive qpn s
  | .rateRecovery qpn => Sys2Proof.Machine.execRateRecovery qpn s
  | .hostLinkUp => Sys2Proof.Machine.execHostLinkUp s
  | .hostLinkDown => Sys2Proof.Machine.execHostLinkDown s
  | .frameDiscard f => Sys2Proof.Machine.execFrameDiscard f s
  | .arp f m => Sys2Proof.Machine.execArp f m s
  | .neighborDiscovery f m => Sys2Proof.Machine.execNeighborDiscovery f m s
  | .icmpEcho f v6 src dst body => Sys2Proof.Machine.execIcmpEcho f v6 src dst body s
  | .plouthDiscard payload => Sys2Proof.Machine.execPlouthDiscard payload s
  | .eventRetransmit slot => Sys2Proof.Machine.execEventRetransmit slot s
  | .statusMin p => Sys2Proof.Machine.execStatusMin p s
  | .reset p => Sys2Proof.Machine.execReset p s
  | .halt p => Sys2Proof.Machine.execHalt p s
  | .zeroize p => Sys2Proof.Machine.execZeroize p s
  | .zeroizeComplete => Sys2Proof.Machine.execZeroizeComplete s
  | .batonBreak p => Sys2Proof.Machine.execBatonBreak p s
  | .envelopeDrop p => Sys2Proof.Machine.execEnvelopeDrop p s
  | .sessionOpen p => Sys2Proof.Machine.execSessionOpen p s
  | .enrol p => Sys2Proof.Machine.execEnrol p s
  | .sessionClose p => Sys2Proof.Machine.execSessionClose p s
  | .eventAck p => Sys2Proof.Machine.execEventAck p s
  | .batonTake p => Sys2Proof.Machine.execBatonTake p s
  | .batonRenew p => Sys2Proof.Machine.execBatonRenew p s
  | .batonRelease p => Sys2Proof.Machine.execBatonRelease p s
  | .batonExpire => Sys2Proof.Machine.execBatonExpire s
  | .fwClaimTimeout => Sys2Proof.Machine.execFwClaimTimeout s
  | .regRead p => Sys2Proof.Machine.execRegRead p s
  | .regWrite p => Sys2Proof.Machine.execRegWrite p s
  | .qpCreate p => Sys2Proof.Machine.execQpCreate p s
  | .qpDestroy p => Sys2Proof.Machine.execQpDestroy p s
  | .itinLoad p => Sys2Proof.Machine.execItinLoad p s
  | .itinCheck file => Sys2Proof.Machine.execItinCheck file s
  | .ctxStart p => Sys2Proof.Machine.execCtxStart p s
  | .ctxEnd p => Sys2Proof.Machine.execCtxEnd p s
  | .ctxSchedSlice p => Sys2Proof.Machine.execCtxSchedSlice p s
  | .ctxSchedReserve p => Sys2Proof.Machine.execCtxSchedReserve p s
  | .ctxSchedUnreserve p => Sys2Proof.Machine.execCtxSchedUnreserve p s
  | .ctxSchedPark p => Sys2Proof.Machine.execCtxSchedPark p s
  | .ctxSchedUnpark p => Sys2Proof.Machine.execCtxSchedUnpark p s
  | .ctxSchedInterval p => Sys2Proof.Machine.execCtxSchedInterval p s
  | .ctxQuery p => Sys2Proof.Machine.execCtxQuery p s
  | .ctxPolicy p => Sys2Proof.Machine.execCtxPolicy p s
  | .planPost p => Sys2Proof.Machine.execPlanPost p s
  | .batchCancel p => Sys2Proof.Machine.execBatchCancel p s
  | .partLayout p => Sys2Proof.Machine.execPartLayout p s
  | .partKey p => Sys2Proof.Machine.execPartKey p s
  | .wiringPlan p => Sys2Proof.Machine.execWiringPlan p s
  | .jobTeardown p => Sys2Proof.Machine.execJobTeardown p s
  | .envelopeGrant p => Sys2Proof.Machine.execEnvelopeGrant p s
  | .leaseExpire => Sys2Proof.Machine.execLeaseExpire s
  | .ledgerRead p => Sys2Proof.Machine.execLedgerRead p s
  | .alarmPolicy p => Sys2Proof.Machine.execAlarmPolicy p s
  | .attest p => Sys2Proof.Machine.execAttest p s
  | .fwUpdate p image => Sys2Proof.Machine.execFwUpdate p image s
  | .tallyStreamStart p => Sys2Proof.Machine.execTallyStreamStart p s
  | .tallyStreamStop p => Sys2Proof.Machine.execTallyStreamStop p s
  | .netConfig p => Sys2Proof.Machine.execNetConfig p s
  | .serviceStartUnified p => Sys2Proof.Machine.execServiceStartUnified p s
  | .serviceStartSplit p => Sys2Proof.Machine.execServiceStartSplit p s
  | .faultLogRead p => Sys2Proof.Machine.execFaultLogRead p s
  | .clrMin p => Sys2Proof.Machine.execClrMin p s
  | .markFailed p => Sys2Proof.Machine.execMarkFailed p s
  | .remove p => Sys2Proof.Machine.execRemove p s
  | .csScrub p => Sys2Proof.Machine.execCsScrub p s
  | .hbScrub p => Sys2Proof.Machine.execHbScrub p s
  | .retrain p => Sys2Proof.Machine.execRetrain p s
  | .forceUp p => Sys2Proof.Machine.execForceUp p s
  | .disable p => Sys2Proof.Machine.execDisable p s
  | .fbReach p => Sys2Proof.Machine.execFbReach p s
  | .freeze p => Sys2Proof.Machine.execFreeze p s
  | .clear p => Sys2Proof.Machine.execClear p s
  | .tlRing p => Sys2Proof.Machine.execTlRing p s
  | .tlSel p => Sys2Proof.Machine.execTlSel p s
  | .pxWays p => Sys2Proof.Machine.execPxWays p s
  | .pxPages p => Sys2Proof.Machine.execPxPages p s
  | .gvCtrl p => Sys2Proof.Machine.execGvCtrl p s
  | .gvEvent p => Sys2Proof.Machine.execGvEvent p s
  | .tallyPeriodPulse => Sys2Proof.Machine.execTallyPeriodPulse s
  | .tallyCollectDone => Sys2Proof.Machine.execTallyCollectDone s
  | .tallyRecordWritten => Sys2Proof.Machine.execTallyRecordWritten s
  | .takeStations p => Sys2Proof.Machine.execTakeStations p s
  | .sliceExpire p => Sys2Proof.Machine.execSliceExpire p s
  | .blockDetect p => Sys2Proof.Machine.execBlockDetect p s
  | .blockExpectedEnd ctx => Sys2Proof.Machine.execBlockExpectedEnd ctx s
  | .preemptStart p => Sys2Proof.Machine.execPreemptStart p s
  | .preemptSaved p => Sys2Proof.Machine.execPreemptSaved p s
  | .restoreDone p => Sys2Proof.Machine.execRestoreDone p s
  | .swapInStart p => Sys2Proof.Machine.execSwapInStart p s
  | .swapInDone ctx => Sys2Proof.Machine.execSwapInDone ctx s
  | .swapOutDone ctx => Sys2Proof.Machine.execSwapOutDone ctx s
  | .swapAgeExpire p => Sys2Proof.Machine.execSwapAgeExpire p s
  | .reservedWindowLead ctx => Sys2Proof.Machine.execReservedWindowLead ctx s
  | .reservedWindowEnd ctx => Sys2Proof.Machine.execReservedWindowEnd ctx s
  | .watchdogExpire ctx => Sys2Proof.Machine.execWatchdogExpire ctx s
  | .teardownComplete ctx => Sys2Proof.Machine.execTeardownComplete ctx s
  | .governorTick => Sys2Proof.Machine.execGovernorTick s
  | .ledgerWindowClose => Sys2Proof.Machine.execLedgerWindowClose s
  | .thermalCrossing sensor ix temp => Sys2Proof.Machine.execThermalCrossing sensor ix temp s
  | .thermalReportHoldoff sensor ix => Sys2Proof.Machine.execThermalReportHoldoff sensor ix s
  | .thermalTrip sensor ix temp => Sys2Proof.Machine.execThermalTrip sensor ix temp s
  | .supplyOut mv => Sys2Proof.Machine.execSupplyOut mv s
  | .supplyOutClear mv => Sys2Proof.Machine.execSupplyOutClear mv s
  | .shed mv => Sys2Proof.Machine.execShed mv s
  | .shedEnd mv => Sys2Proof.Machine.execShedEnd mv s
  | .lastGaspSave mv => Sys2Proof.Machine.execLastGaspSave mv s
  | .alarmFire source partition detail => Sys2Proof.Machine.execAlarmFire source partition detail s
  | .fwIntegrityCheck digest => Sys2Proof.Machine.execFwIntegrityCheck digest s
  | .powerApplied mv => Sys2Proof.Machine.execPowerApplied mv s
  | .bootRom => Sys2Proof.Machine.execBootRom s
  | .reservoirCharged => Sys2Proof.Machine.execReservoirCharged s
  | .hbmTrainingDone failed => Sys2Proof.Machine.execHbmTrainingDone failed s
  | .selfTestDone r => Sys2Proof.Machine.execSelfTestDone r s
  | .rstNLow => Sys2Proof.Machine.execRstNLow s
  | .resetTemperatureOk maxTemp => Sys2Proof.Machine.execResetTemperatureOk maxTemp s
  | .hbmZeroDone => Sys2Proof.Machine.execHbmZeroDone s
  | .trayRemoval => Sys2Proof.Machine.execTrayRemoval s
  | .presenceClose => Sys2Proof.Machine.execPresenceClose s
  | .hbmDoubledRefresh stack temp => Sys2Proof.Machine.execHbmDoubledRefresh stack temp s
  | .identityFlitSend port => Sys2Proof.Machine.execIdentityFlitSend port s
  | .trainingRestart port => Sys2Proof.Machine.execTrainingRestart port s
  | .rstNRelease => Sys2Proof.Machine.execRstNRelease s
  | .jtagInstruction op => Sys2Proof.Machine.execJtagInstruction op s
  | .nop st b => Sys2Proof.Machine.execNop st b s

end Sys2Proof.Machine
end

