-- ==== Sys2Proof/Safety.lean ====
section
/-!
DEFINITION. Safe runs, and the conditions and frames in which statements about the block are made.
-/

namespace Sys2Proof

/-- Only the S slot of the bundle holds an operation. -/
def Bundle.onlyS (b : Bundle) : Bool := b.m == .nop && b.v == .nop && b.x == .nop
/-- Only the V slot of the bundle holds an operation. -/
def Bundle.onlyV (b : Bundle) : Bool := b.m == .nop && b.s == .nop && b.x == .nop
/-- Only the X slot of the bundle holds an operation. -/
def Bundle.onlyX (b : Bundle) : Bool := b.m == .nop && b.v == .nop && b.s == .nop
/-- Only the M slot of the bundle holds an operation. -/
def Bundle.onlyM (b : Bundle) : Bool := b.v == .nop && b.s == .nop && b.x == .nop

end Sys2Proof

namespace Sys2Proof.Machine

/-- The command runs to a next state: it neither faults nor is refused. -/
def Runs (i : Instr) (s : State) : Prop := ∃ t, exec i s = .next t

/-- The command leaves the queue of waiting commands alone. -/
def KeepsQueue (i : Instr) (s : State) : Prop := ∀ t, exec i s = .next t → t.pending = s.pending

/-! ### Stations -/

/-- The station and the bundle of a station operation's row: the bundle that it carries, with the row's own operation in its slot
(R92-R95); none for the other rows. -/
def rowBundle (i : Instr) : Option (Nat × Bundle) :=
  match i with
  | .add st b d a r => some (st, { b with s := .sr .add d a r })
  | .sub st b d a r => some (st, { b with s := .sr .sub d a r })
  | .and st b d a r => some (st, { b with s := .sr .and d a r })
  | .or st b d a r => some (st, { b with s := .sr .or d a r })
  | .xor st b d a r => some (st, { b with s := .sr .xor d a r })
  | .shl st b d a r => some (st, { b with s := .sr .shl d a r })
  | .shr st b d a r => some (st, { b with s := .sr .shr d a r })
  | .sra st b d a r => some (st, { b with s := .sr .sra d a r })
  | .mul st b d a r => some (st, { b with s := .sr .mul d a r })
  | .mulhu st b d a r => some (st, { b with s := .sr .mulhu d a r })
  | .min st b d a r => some (st, { b with s := .sr .min d a r })
  | .max st b d a r => some (st, { b with s := .sr .max d a r })
  | .minu st b d a r => some (st, { b with s := .sr .minu d a r })
  | .maxu st b d a r => some (st, { b with s := .sr .maxu d a r })
  | .slt st b d a r => some (st, { b with s := .sr .slt d a r })
  | .sltu st b d a r => some (st, { b with s := .sr .sltu d a r })
  | .chk st b a r => some (st, { b with s := .chk a r })
  | .addi st b d a imm => some (st, { b with s := .si .addi d a imm })
  | .andi st b d a imm => some (st, { b with s := .si .andi d a imm })
  | .ori st b d a imm => some (st, { b with s := .si .ori d a imm })
  | .xori st b d a imm => some (st, { b with s := .si .xori d a imm })
  | .shli st b d a imm => some (st, { b with s := .si .shli d a imm })
  | .shri st b d a imm => some (st, { b with s := .si .shri d a imm })
  | .srai st b d a imm => some (st, { b with s := .si .srai d a imm })
  | .li st b d imm => some (st, { b with s := .si .li d 0 imm })
  | .lim st b d a imm => some (st, { b with s := .si .lim d a imm })
  | .lit st b d a imm => some (st, { b with s := .si .lit d a imm })
  | .ld st b d a imm => some (st, { b with s := .mem .ld d a imm })
  | .ldw st b d a imm => some (st, { b with s := .mem .ldw d a imm })
  | .st st b d a imm => some (st, { b with s := .mem .st d a imm })
  | .stw st b d a imm => some (st, { b with s := .mem .stw d a imm })
  | .beq st b a r off => some (st, { b with s := .br .beq a r off })
  | .bne st b a r off => some (st, { b with s := .br .bne a r off })
  | .blt st b a r off => some (st, { b with s := .br .blt a r off })
  | .bge st b a r off => some (st, { b with s := .br .bge a r off })
  | .bltu st b a r off => some (st, { b with s := .br .bltu a r off })
  | .bgeu st b a r off => some (st, { b with s := .br .bgeu a r off })
  | .jmp st b off => some (st, { b with s := .jmp off })
  | .call st b off => some (st, { b with s := .call off })
  | .ret st b => some (st, { b with s := .ret })
  | .tinc st b t n => some (st, { b with s := .tinc t n })
  | .twait st b a t => some (st, { b with s := .twait a t })
  | .tread st b d t => some (st, { b with s := .tread d t })
  | .ldshp st b d t k => some (st, { b with s := .ldshp d t k })
  | .rdspec st b d imm => some (st, { b with s := .rdspec d imm })
  | .step st b bound => some (st, { b with s := .step bound })
  | .finish st b => some (st, { b with s := .finish })
  | .bar st b t g => some (st, { b with s := .bar t g })
  | .xld st b x => some (st, { b with x := .xld x })
  | .xst st b x => some (st, { b with x := .xst x })
  | .vld st b v a off => some (st, { b with x := .vld v a off })
  | .vst st b v a off => some (st, { b with x := .vst v a off })
  | .xvs st b v a lane => some (st, { b with x := .xvs v a lane })
  | .xsv st b v a lane => some (st, { b with x := .xsv v a lane })
  | .xsend st b link rs rd rl tl tr => some (st, { b with x := .xsend link rs rd rl tl tr })
  | .xhalo st b a off => some (st, { b with x := .desc .halo a off })
  | .xnote st b a t n => some (st, { b with x := .xnote a t n })
  | .xfab st b a off => some (st, { b with x := .desc .fab a off })
  | .xwalk st b a off => some (st, { b with x := .desc .walk a off })
  | .xdisp st b a off => some (st, { b with x := .desc .disp a off })
  | .vadd st b d a r ty => some (st, { b with v := .vr .vadd (vr2 d a r ty) })
  | .vsub st b d a r ty => some (st, { b with v := .vr .vsub (vr2 d a r ty) })
  | .vmul st b d a r ty => some (st, { b with v := .vr .vmul (vr2 d a r ty) })
  | .vfma st b d a r c ty => some (st, { b with v := .vr .vfma (vr3 d a r c ty) })
  | .vmax st b d a r ty => some (st, { b with v := .vr .vmax (vr2 d a r ty) })
  | .vmin st b d a r ty => some (st, { b with v := .vr .vmin (vr2 d a r ty) })
  | .vabs st b d a ty => some (st, { b with v := .vr .vabs (vr1 d a ty) })
  | .vneg st b d a ty => some (st, { b with v := .vr .vneg (vr1 d a ty) })
  | .vsel st b d a r c ty => some (st, { b with v := .vr .vsel (vr3 d a r c ty) })
  | .vbcast st b d a ty lane => some (st, { b with v := .vr .vbcast { d := d, a := a, ty := ty, lane := lane } })
  | .viota st b d ty => some (st, { b with v := .vr .viota { d := d, ty := ty } })
  | .vcvt st b d a ty sty part => some (st, { b with v := .vr .vcvt { d := d, a := a, ty := ty, sty := sty, part := part } })
  | .vexp st b d a ty => some (st, { b with v := .vr .vexp (vr1 d a ty) })
  | .vlog st b d a ty => some (st, { b with v := .vr .vlog (vr1 d a ty) })
  | .vrsqrt st b d a ty => some (st, { b with v := .vr .vrsqrt (vr1 d a ty) })
  | .vtanh st b d a ty => some (st, { b with v := .vr .vtanh (vr1 d a ty) })
  | .vrcp st b d a ty => some (st, { b with v := .vr .vrcp (vr1 d a ty) })
  | .vrsum st b d a ty => some (st, { b with v := .vr .vrsum (vr1 d a ty) })
  | .vrmax st b d a ty => some (st, { b with v := .vr .vrmax (vr1 d a ty) })
  | .vrmaxi st b d a ty => some (st, { b with v := .vr .vrmaxi (vr1 d a ty) })
  | .vrdacc st b v acc seg sr => some (st, { b with v := .vrdacc v acc seg sr })
  | .vwracc st b v acc seg sr => some (st, { b with v := .vwracc v acc seg sr })
  | .vq st b q => some (st, { b with v := .vq q })
  | .vdq st b d ar fmt half => some (st, { b with v := .vdq d ar fmt half })
  | .wv st b w => some (st, { b with m := .wv w })
  | .nop st b => some (st, { b with m := .nop, v := .nop, s := .nop, x := .nop })
  | _ => none

/-- Station `st` issues for context `c`, `b` is its next bundle, its waits are met, every accept channel takes it and no slot
faults, as its reads see memory (R36, R37, R46, R95, R97, R98). -/
def State.issuable (s : State) (st c : Nat) (b : Bundle) : Bool :=
  let x := s.seenSite st c
  s.issuing st == some c && x.a.nextBundle == some b && x.a.unmet b == none && x.accepts s b &&
    x.faults (s.seen c st) b == [[], [], [], []]

/-- The bundle that follows lies within the stream (R99). -/
def State.inside (s : State) (st c : Nat) (b : Bundle) : Bool := decide ((s.site st c).next b.s < (s.site st c).length)

/-- What station `st` holds for its context. -/
def State.arch (s : State) (st : Nat) : Arch := (s.stn st).arch

/-- The value of counter `k` after the waits of the bundle's header (R95). -/
def Arch.afterWait (a : Arch) (b : Bundle) (k : Nat) : Nat := a.token k - (if k = b.waitT.toNat then b.waitN.toNat else 0)

/-- From `s` to `t` nothing changes but station `st`, the energy accounts of partitions and contexts, what marks a context as
blocked, and how many free values are drawn. -/
def OnlyStation (st : Nat) (s t : State) : Prop :=
  { t with parts := s.parts, ctxs := s.ctxs, stns := s.stns, free := s.free } = s ∧
  (∀ j, j ≠ st → t.stn j = s.stn j) ∧
  (∀ p, { t.part p with gov := (s.part p).gov } = s.part p) ∧
  (∀ c, { t.ctx c with
    energy := (s.ctx c).energy, blockSince := (s.ctx c).blockSince, blocked := (s.ctx c).blocked } = s.ctx c)

/-- From `a` to `b` a station has issued the bundle `x` and nothing changes but its position, its counters as its waits say, the
use of its lines, and what the statement names. -/
def Arch.Issued (a b : Arch) (x : Bundle) (next : Nat) : Prop :=
  b.next = next ∧ b.issued = a.issued + 1 ∧ (∀ k, b.token k = a.afterWait x k) ∧
  b.istore.map (fun l => (l.line, l.words)) = a.istore.map (fun l => (l.line, l.words))

/-- From `a` to `b` an instruction writes `v` to scalar register `d` (s0 discards it), with its mark (R38, R100); beside the
station's position and counters nothing else changes. -/
def Arch.WroteS (a b : Arch) (d : Reg) (v : Word) : Prop :=
  b.sreg d = (if d = 0 then 0 else v) ∧ (∀ e, e ≠ d → b.sreg e = a.sreg e) ∧
  b.marks = (if d = 0 then a.marks else .s d :: a.marks) ∧
  { b with sregs := a.sregs, marks := a.marks, next := a.next, tokens := a.tokens, issued := a.issued, istore := a.istore } = a

/-- From `a` to `b` an instruction writes `v` to vector register `d`, with its mark; beside the station's position and counters
nothing else changes. -/
def Arch.WroteV (a b : Arch) (d : VReg) (v : BitVec 4096) : Prop :=
  b.vreg d = v ∧ (∀ e, e ≠ d → b.vreg e = a.vreg e) ∧ b.marks = .v d :: a.marks ∧
  { b with vregs := a.vregs, marks := a.marks, next := a.next, tokens := a.tokens, issued := a.issued, istore := a.istore } = a

/-- From `a` to `b` an instruction stores `bs` at saddlebag address `addr`; beside the station's position and counters, the note of
the write for reads under way (R46) and the ranges of substituted bytes (R128) nothing else changes. -/
def Arch.Stored (a b : Arch) (addr : Nat) (bs : Bytes) : Prop :=
  rdBytes b.saddle addr bs.length = bs ∧
  (∀ i, i < addr ∨ addr + bs.length ≤ i → rdByte b.saddle i = rdByte a.saddle i) ∧
  { b with
    saddle := a.saddle, writes := a.writes, wide := a.wide
    next := a.next, tokens := a.tokens, issued := a.issued, istore := a.istore } = a

/-- From `a` to `b` only the station's position, counters and use of lines change. -/
def Arch.OnlyMoved (a b : Arch) : Prop :=
  { b with next := a.next, tokens := a.tokens, issued := a.issued, istore := a.istore } = a

/-- From `a` to `b` a station begins the transfer `k` with its next bundle: beside the station's position, counters and the
producer of a counter nothing else changes (R118). -/
def Arch.Began (a b : Arch) (k : XferKind) : Prop :=
  (∃ n, b.inflight = a.inflight ++ [⟨a.next, k, a.issued, n⟩]) ∧
  { b with inflight := a.inflight, producers := a.producers, next := a.next, tokens := a.tokens, issued := a.issued, istore := a.istore } = a

/-- Of the bytes at `addr` in `m`, each byte got is the one that stood there at first, the one that stands now, or one of those
that `ws` puts there: writes since, and transfers on their way (R46). -/
def Raced (m : Mem) (addr : Nat) (ws : List (Nat × Bytes)) (old got : Bytes) : Prop :=
  got.length = old.length ∧ ∀ i < old.length,
    got[i]? = old[i]? ∨ got[i]? = some (rdByte m (addr + i)) ∨ ∃ lo bs, (lo, bs) ∈ ws ∧ lo ≤ addr + i ∧ bs[addr + i - lo]? = got[i]?

/-- From `s` to `t` nothing changes but what stations hold for their contexts, contexts' bytes, tallies and the waits noted for
them, energy accounts, HBM bytes counted and free values drawn. -/
def Bookkept (s t : State) : Prop :=
  { t with parts := s.parts, ctxs := s.ctxs, stns := s.stns, stks := s.stks, free := s.free } = s ∧
  (∀ p, { t.part p with gov := (s.part p).gov } = s.part p) ∧
  (∀ c, { t.ctx c with
    energy := (s.ctx c).energy, store := (s.ctx c).store, writes := (s.ctx c).writes, atomics := (s.ctx c).atomics
    wide := (s.ctx c).wide } = s.ctx c) ∧
  (∀ j, { t.stn j with
    arch := (s.stn j).arch, tally := (s.stn j).tally, slice := (s.stn j).slice
    island := { (t.stn j).island with waited := (s.stn j).island.waited } } = s.stn j) ∧
  (∀ n, { t.stk n with tally := (s.stk n).tally, bytes := (s.stk n).bytes } = s.stk n)

/-- As `Bookkept`, where frame groups of context `c` that waited for a read of them are freed once no read goes on (R183). -/
def BookkeptRead (c : Nat) (s t : State) : Prop :=
  let l := (s.ctx c).walk.freeWhenRead
  let busy := t.busyFrames c l
  Bookkept s (t.modCtx c fun k => { k with walk := (s.ctx c).walk }) ∧
  (t.ctx c).walk = { ((s.ctx c).freeFrames (l.filter fun g => !busy.contains g)).walk with freeWhenRead := busy }

/-- No context's bytes change. -/
def SameStores (s t : State) : Prop := ∀ c, (t.ctx c).store = (s.ctx c).store

/-- No other station than `st` changes what it holds for its context. -/
def OnlyArch (st : Nat) (s t : State) : Prop := ∀ j, j ≠ st → t.arch j = s.arch j

/-- The engines of station `st` complete operations of context `c`, which holds its stations and counts (R38, R360). -/
def State.engineRuns (s : State) (st c : Nat) : Bool :=
  s.working st == some c && (s.stnsOfCtx c).contains st && s.counting c

/-- Bytes `lo .. lo + bs.length - 1` of `m'` are `bs` and every other byte is as in `m`. -/
def BytesPut (m m' : Mem) (lo : Nat) (bs : Bytes) : Prop :=
  rdBytes m' lo bs.length = bs ∧ ∀ i, i < lo ∨ lo + bs.length ≤ i → rdByte m' i = rdByte m i

/-- Counter `t` rises by `n` from `a` to `b` and no other counter changes. -/
def Arch.Rose (a b : Arch) (t n : Nat) : Prop := ∀ k, b.token k = a.token k + if k = t then n else 0

/-! ### What the package sends -/

/-- An event with this opcode, context and body, generated now, stands in the queue of every slot whose session is open (R336). -/
def Posted (s t : State) (op ctx : BitVec 16) (body : Bytes) : Prop :=
  ∀ k, (s.session k).open_ = true →
    ∃ e ∈ (t.session k).events, e.opcode = op ∧ e.ctx = ctx ∧ e.body = body ∧ e.time = s.uptimeUs

/-- From `s` to `t` a message has begun to leave on a rail, or joined those that wait there for credits or for room in the retry
buffer (R291, R292). -/
def Sent (s t : State) (rail : Nat) (ty : BitVec 8) (m : Msg) : Prop :=
  (∃ l, t.out = l ++ s.out ∧ .msg ty { m with port := rail } ∈ l) ∨
  (∃ k l, (t.port rail).egress = k ++ l ∧ k.Sublist (s.port rail).egress ∧
    ∃ w ∈ l, w.cls = msgClass ty ∧ w.mtype = ty ∧ w.msg = { m with port := rail })

/-- A request has its response on the rail it came by (R302). -/
def Answered (s t : State) (m : Msg) (st : RspStatus) (data : Bytes) : Prop :=
  Sent s t m.port 0x10 ⟨0, BitVec.ofNat 8 s.fabricId, m.srcPkg, m.job, m.tag, st.code, 0, 0, data, 0, m.port⟩

/-- A message of type `t` arrives whole on a port that is up and can carry its answer (R293, R294, R308, R475). -/
def State.hears (s : State) (t : BitVec 8) (m : Msg) : Bool := s.arrives m && s.portUp m.port && m.intact t

/-- Something of the kind has been sent from `s` to `t`. -/
def Emitted (s t : State) (o : Out) : Prop := ∃ l, t.out = l ++ s.out ∧ o ∈ l

/-- A request on queue pair `p` that passes the checks of R321 and R322 and carries the PSN expected next. -/
def State.accepted (s : State) (q : RdmaReq) (p : Qp) (n : Nat) : Bool :=
  s.alive && s.hearsRoce q && q.service == .rc &&
    (s.host.qps.find? fun x => x.qpn == q.qpn && x.remoteGid == q.srcGid && x.remoteQpn == q.srcQpn) == some p &&
    !p.error && (q.psn + 2 ^ 24 - p.remotePsn) % 2 ^ 24 == 0 && q.inSubset && p.kind != 2 && decide (n ≤ 2 ^ 31) && q.rkey == p.rkey

/-- A request on queue pair `p` that carries the PSN of an earlier one. -/
def State.repeats (s : State) (q : RdmaReq) (p : Qp) : Bool :=
  s.alive && s.hearsRoce q && q.service == .rc &&
    (s.host.qps.find? fun x => x.qpn == q.qpn && x.remoteGid == q.srcGid && x.remoteQpn == q.srcQpn) == some p &&
    !p.error && decide (2 ^ 23 ≤ (q.psn + 2 ^ 24 - p.remotePsn) % 2 ^ 24)

/-- A message of `n` bytes has been taken on queue pair `p`: the next PSN follows its packets (R324). -/
def PsnMoved (t : State) (p : Qp) (n : Nat) : Prop :=
  ∃ x ∈ t.host.qps, x.qpn = p.qpn ∧ x.remotePsn = (p.remotePsn + rocePackets n) % 2 ^ 24

/-! ### Commands over Plouth -/

/-- A command of slot `k` that the package executes at once: it passes every check of R318 and R327-R342 that is alike for all
commands, in the open form, the signed form or the session form, has not been executed before, and waits neither for the firmware
(R343) nor for another command that needs the baton (R332). `q` is the packet as the command's own rules
read it: divided at LENGTH, without the challenge that ends the parameters of the signed form. -/
def State.takes (s : State) (p q : Pkt) (k : Slot) : Bool :=
  let r := splitAtLength p
  let n := r.params.length
  s.alive && !p.flags.getLsbD 0 && !p.flags.getLsbD 1 && s.reaches p && !s.modeRefuses p && p.version == 1 && lengthOk p &&
    (reservedHeader r).isNone && formOk r r.opcode.toNat &&
    if pktOpen p then !pktSigned p && q == r && k == .a
    else
      slotOf r.slot == some k && s.fromSlot k r && decide (s.outstanding k < 16) &&
      if pktSigned p then
        decide (8 ≤ n) && s.challengeOk (beAt r.params (n - 8) 8) && (s.binding k).enrolled &&
          edVerify (toBe 32 (s.binding k).key.toNat) (pktBytes r) r.trailer && q == { r with params := r.params.take (n - 8) }
      else
        (s.session k).open_ && r.session == (s.session k).number && plouthTag (s.session k).cmdKey (pktBytes r) == r.trailer &&
          decide ((s.session k).high ≤ r.sequence.toNat + 63) && ((s.session k).cache.all fun e => e.pkt.sequence != r.sequence) &&
          (guaranteed r.opcode.toNat || s.cmd.responsive) &&
          (!batonOp r.opcode.toNat || (s.hasLease k && !s.batonBusy)) && q == r

/-- From `s` to `t` the package has replied to command `q` with this status, DETAIL and body (R331). -/
def Replied (s t : State) (q : Pkt) (st : BitVec 16) (detail : BitVec 32) (body : Bytes) : Prop :=
  ∃ tr, Emitted s t (.reply q (q.flags ||| 1) st detail body tr)

/-- From `s` to `t` nothing changes but what answering a command changes: sessions and their counts, the port's byte counts and
the gate die's tallies. -/
def OnlyAnswered (s t : State) : Prop := { t with cmd := s.cmd, host := s.host, tally := s.tally, out := s.out } = s

/-- What answering changes, and context `c`. -/
def OnlyCtxChanged (c : Nat) (s t : State) : Prop :=
  { t with cmd := s.cmd, host := s.host, tally := s.tally, out := s.out, ctxs := s.ctxs } = s ∧ ∀ d, d ≠ c → t.ctx d = s.ctx d

/-- The state in which a session-form command that is taken executes: its bytes are counted, its source remembered, its sequence
accepted (R330, R336). -/
def State.took (s : State) (p : Pkt) (k : Slot) : State :=
  ((s.hearPkt p).heard k (splitAtLength p)).modSession k (·.accept (splitAtLength p))

/-- A REG_WRITE that the package executes and that writes `v` to the one offset `o` (R345). -/
def State.writes (s : State) (p : Pkt) (k : Slot) (o v : Nat) : Bool :=
  s.takes p p k && !s.batonBusy && p.opcode == 0x21 && p.params.length == 24 && beAt p.params 0 2 == 1 && zeroAt p.params 2 6 &&
    beAt p.params 8 8 == o && beAt p.params 16 8 == v

/-- A SESSION_OPEN or ENROL that passes every check of R342 and R415 up to the key agreement; `q` is the packet divided at LENGTH
and `r` its parameters. -/
def State.opens (s : State) (p q : Pkt) (k : Slot) (r : OpenReq) : Bool :=
  s.alive && !p.flags.getLsbD 0 && !p.flags.getLsbD 1 && s.reaches p && pktSigned p && !pktOpen p && p.opcode == 0x10 && p.version == 1 &&
    lengthOk p && q == splitAtLength p && q.params.length == 160 && s.challengeOk (beAt q.params 152 8) && s.cmd.responsive &&
    slotOf q.slot == some k && r == openReq q && (r.enrol || (s.binding k).enrolled) &&
    edVerify (if r.enrol then r.newKey else toBe 32 (s.binding k).key.toNat) (pktBytes q) q.trailer &&
    (!r.enrol || s.endorseOk q r) && (if r.enrol then r.newAddr == q.srcAddr.toNat else s.fromSlot k q) &&
    decide (s.outstanding k < 16) && (openReserved q r).isNone && s.sec.atPriv.isSome && !s.nv.revoked &&
    (s.mode == 1 || (s.mode == 2 && !(r.enrol && !s.nv.slotA.enrolled && !s.nv.slotB.enrolled)))

end Sys2Proof.Machine
end

