-- ==== Sys2Proof/Certificates/Slice0/Obligations.lean ====
section
/-!
DEFINITION. The statements for the provers, each a closed proposition over the model. What a statement claims stands in
OBLIGATIONS.json; its docstring names the rules of spec/ it follows.
-/

open Sys2Proof Sys2Proof.Machine

/-- A step takes the command at the front of the queue and runs it with the queue's rest. -/
def Obligations.StepRunsTheFrontCommand : Prop :=
  ∀ (c : Instr) (rest : List Instr) (s : State), s.pending = c :: rest → step s = exec c { s with pending := rest }

/-- ADD to SLTU, ADDI to LIT, LD, LDW, TREAD, RDSPEC (R102, R104): D of a bundle that holds the operation alone, and the frame.
The value of selector 5 is the model's choice (log entry 12). -/
def Obligations.ScalarResults : Prop :=
  ∀ (s : State) (st c : Nat) (b : Bundle) (d a r : Reg) (imm : BitVec 30) (k : Tok),
    let S := s.arch st
    let A := S.sreg a
    let B := S.sreg r
    let I : Word := imm.signExtend 64
    let seen := s.saddleSeen c st
    let special (n : Nat) : Word := match n with
      | 0 => BitVec.ofNat 64 st
      | 1 => BitVec.ofNat 64 (s.relStn c st)
      | 2 => BitVec.ofNat 64 (s.stnCount c)
      | 3 => (s.ctx c).handle.setWidth 64
      | 4 => BitVec.ofNat 64 (s.ctx c).step
      | 5 => (s.stn st).tally.cycles + 1
      | 6 => match S.quota with | none => BitVec.allOnes 64 | some q => BitVec.ofNat 64 q
      | _ => BitVec.ofNat 64 (partOfCtx c)
    ∀ i op v, (i, op, v) ∈
      [ (Instr.add st b d a r, SOp.sr .add d a r, A + B), (.sub st b d a r, .sr .sub d a r, A - B),
        (.and st b d a r, .sr .and d a r, A &&& B), (.or st b d a r, .sr .or d a r, A ||| B),
        (.xor st b d a r, .sr .xor d a r, A ^^^ B), (.shl st b d a r, .sr .shl d a r, A <<< (B.toNat % 64)),
        (.shr st b d a r, .sr .shr d a r, A >>> (B.toNat % 64)),
        (.sra st b d a r, .sr .sra d a r, A.sshiftRight (B.toNat % 64)), (.mul st b d a r, .sr .mul d a r, A * B),
        (.mulhu st b d a r, .sr .mulhu d a r, BitVec.ofNat 64 (A.toNat * B.toNat / 2 ^ 64)),
        (.min st b d a r, .sr .min d a r, if B.toInt < A.toInt then B else A),
        (.max st b d a r, .sr .max d a r, if A.toInt < B.toInt then B else A),
        (.minu st b d a r, .sr .minu d a r, if B < A then B else A), (.maxu st b d a r, .sr .maxu d a r, if A < B then B else A),
        (.slt st b d a r, .sr .slt d a r, if A.toInt < B.toInt then 1 else 0),
        (.sltu st b d a r, .sr .sltu d a r, if A < B then 1 else 0),
        (.addi st b d a imm, .si .addi d a imm, A + I), (.andi st b d a imm, .si .andi d a imm, A &&& I),
        (.ori st b d a imm, .si .ori d a imm, A ||| I), (.xori st b d a imm, .si .xori d a imm, A ^^^ I),
        (.shli st b d a imm, .si .shli d a imm, A <<< (imm.toNat % 64)),
        (.shri st b d a imm, .si .shri d a imm, A >>> (imm.toNat % 64)),
        (.srai st b d a imm, .si .srai d a imm, A.sshiftRight (imm.toNat % 64)), (.li st b d imm, .si .li d 0 imm, I),
        (.lim st b d a imm, .si .lim d a imm, (A.extractLsb' 60 4 ++ imm ++ A.extractLsb' 0 30).setWidth 64),
        (.lit st b d a imm, .si .lit d a imm, (imm.setWidth 4 ++ A.extractLsb' 0 60).setWidth 64),
        (.ld st b d a imm, .mem .ld d a imm, BitVec.ofNat 64 (leNat (rdBytes seen (A + I).toNat 8))),
        (.ldw st b d a imm, .mem .ldw d a imm, BitVec.ofNat 64 (leNat (rdBytes seen (A + I).toNat 4))),
        (.tread st b d k, .tread d k, BitVec.ofNat 64 (S.afterWait b k.toNat)),
        (.rdspec st b d imm, .rdspec d imm, special imm.toNat) ] →
      b.s = op → b.onlyS = true → s.issuable st c b = true → s.inside st c b = true →
      ∃ t, exec i s = .next t ∧ OnlyStation st s t ∧ S.Issued (t.arch st) b (S.next + 1) ∧ S.WroteS (t.arch st) d v

/-- ST, STW, VST (R5, R102, R113) of a bundle that holds the operation alone, and the frame. -/
def Obligations.SaddlebagStores : Prop :=
  ∀ (s : State) (st c : Nat) (b : Bundle) (d a : Reg) (imm : BitVec 30) (v : VReg) (off : BitVec 12),
    s.issuable st c b = true → s.inside st c b = true →
    let A := s.arch st
    let at_ := (A.sreg a + imm.signExtend 64).toNat
    ∀ i ok addr bs, (i, ok, addr, bs) ∈
      [ (Instr.st st b d a imm, b.onlyS && b.s == .mem .st d a imm, at_, toLe 8 (A.sreg d).toNat),
        (.stw st b d a imm, b.onlyS && b.s == .mem .stw d a imm, at_, toLe 4 (A.sreg d).toNat),
        (.vst st b v a off, b.onlyX && b.x == .vst v a off, (A.sreg a + 64 * off.setWidth 64).toNat,
          toLe 512 (A.vreg v).toNat) ] →
      ok = true →
      ∃ t, exec i s = .next t ∧ OnlyStation st s t ∧ A.Issued (t.arch st) b (A.next + 1) ∧ A.Stored (t.arch st) addr bs

/-- BEQ to BGEU, JMP, CALL, RET, CHK, NOP, TINC, TWAIT (R44, R95, R102, R103) of a bundle that holds the operation alone, and the frame. -/
def Obligations.PositionAndTokens : Prop :=
  (∀ (s : State) (st c : Nat) (b : Bundle) (a r : Reg) (off : BitVec 30),
    let A := (s.arch st).sreg a
    let B := (s.arch st).sreg r
    let idx := (s.arch st).next
    let tgt := ((idx : Int) + off.toInt).toNat
    ∀ i op nx stk, (i, op, nx, stk) ∈
      [ (Instr.beq st b a r off, SOp.br .beq a r off, if A = B then tgt else idx + 1, (s.arch st).retStack),
        (.bne st b a r off, .br .bne a r off, if A = B then idx + 1 else tgt, (s.arch st).retStack),
        (.blt st b a r off, .br .blt a r off, if A.toInt < B.toInt then tgt else idx + 1, (s.arch st).retStack),
        (.bge st b a r off, .br .bge a r off, if A.toInt < B.toInt then idx + 1 else tgt, (s.arch st).retStack),
        (.bltu st b a r off, .br .bltu a r off, if A < B then tgt else idx + 1, (s.arch st).retStack),
        (.bgeu st b a r off, .br .bgeu a r off, if A < B then idx + 1 else tgt, (s.arch st).retStack),
        (.jmp st b off, .jmp off, tgt, (s.arch st).retStack),
        (.call st b off, .call off, tgt, (idx + 1) :: (s.arch st).retStack),
        (.ret st b, .ret, (s.arch st).retStack.headD 0, (s.arch st).retStack.drop 1) ] →
      b.s = op → b.onlyS = true → s.issuable st c b = true → s.inside st c b = true →
      ∃ t, exec i s = .next t ∧ OnlyStation st s t ∧ (s.arch st).Issued (t.arch st) b nx ∧ (t.arch st).retStack = stk ∧
        { s.arch st with retStack := stk }.OnlyMoved (t.arch st)) ∧
  (∀ (s : State) (st c : Nat) (b : Bundle), b.onlyS = true → s.issuable st c b = true → s.inside st c b = true →
    let A := s.arch st
    let nx := A.next + 1
    (b.s = .nop → ∃ t, exec (.nop st b) s = .next t ∧ OnlyStation st s t ∧ A.Issued (t.arch st) b nx ∧ A.OnlyMoved (t.arch st)) ∧
    (∀ a r, b.s = .chk a r → A.sreg a < A.sreg r ∧
      ∃ t, exec (.chk st b a r) s = .next t ∧ OnlyStation st s t ∧ A.Issued (t.arch st) b nx ∧ A.OnlyMoved (t.arch st)) ∧
    (∀ k n, b.s = .tinc k n → s.holds c = true → A.afterWait b k.toNat + n.toNat ≤ 65535 →
      ∃ t, exec (.tinc st b k n) s = .next t ∧ OnlyStation st s t ∧ (t.arch st).next = nx ∧
        (∀ j, (t.arch st).token j = A.afterWait b j + if j = k.toNat then n.toNat else 0) ∧ A.OnlyMoved (t.arch st)) ∧
    (∀ r k, b.s = .twait r k →
      ∃ t, exec (.twait st b r k) s = .next t ∧ OnlyStation st s t ∧ (t.arch st).next = nx ∧
        (∀ j, (t.arch st).token j = A.afterWait b j - if j = k.toNat then (A.sreg r).toNat else 0) ∧
        A.OnlyMoved (t.arch st)))

/-- LDSHP, BAR, STEP, FINISH (R107-R111) of a bundle that holds the operation alone: what begins. STEP and FINISH are stated
for a station that is not the last to arrive. -/
def Obligations.ShapeBarrierStepFinish : Prop :=
  ∀ (s : State) (st c : Nat) (b : Bundle), b.onlyS = true → s.issuable st c b = true →
    let A := s.arch st
    let rel := s.relStn c st
    (∀ d k j e, b.s = .ldshp d k j → s.inside st c b = true → (s.ctx c).itin.shapes.find? (fun e => e.slot == j.toNat) = some e →
      ∃ t, exec (.ldshp st b d k j) s = .next t ∧ OnlyStation st s t ∧ A.Issued (t.arch st) b (A.next + 1) ∧
        (t.arch st).shapes = A.shapes ++
          [⟨d, k.toNat, j.toNat, BitVec.ofNat 64 (leNat (rdBytes (s.storeSeen c) e.addr 8)), A.next⟩] ∧
        (t.arch st).marks = (if d = 0 then A.marks else .s d :: A.marks) ∧ (∀ r, (t.arch st).sreg r = A.sreg r)) ∧
    (∀ k g, b.s = .bar k g → s.inside st c b = true → s.stnCount c ≤ 1024 →
      ∃ t, exec (.bar st b k g) s = .next t ∧ A.Issued (t.arch st) b (A.next + 1) ∧
        (t.ctx c).barWaits g.toNat rel = (s.ctx c).barWaits g.toNat rel ++ [(k.toNat, A.issued)] ∧
        (∀ h i, i < 1024 → (h, i) ≠ (g.toNat, rel) → (t.ctx c).barWaits h i = (s.ctx c).barWaits h i) ∧
        (∀ r, (t.arch st).sreg r = A.sreg r)) ∧
    (∀ n other, b.s = .step n → other ∈ s.stnsOfCtx c → other ≠ st → (s.arch other).run = .issuing →
      ∃ t, exec (.step st b n) s = .next t ∧ (t.arch st).run = .atStep n.toNat ∧ (t.ctx c).lastStep = some (rel, A.next) ∧
        (t.ctx c).step = (s.ctx c).step ∧ (t.ctx c).state = .running ∧ (∀ j, j ≠ st → t.stn j = s.stn j)) ∧
    (∀ other, b.s = .finish → other ∈ s.stnsOfCtx c → other ≠ st → (s.arch other).run = .issuing →
      ∃ t, exec (.finish st b) s = .next t ∧ (t.arch st).run = .finished ∧ (t.ctx c).state = .running ∧
        (∀ j, j ≠ st → t.stn j = s.stn j))

/-- VADD to VRMAXI (R146-R152) of a bundle that holds one alone: every lane of D, and the frame. -/
def Obligations.VectorResults : Prop :=
  (∀ (s : State) (st c : Nat) (b : Bundle) (d a r q : VReg) (ty : BitVec 4) (f : FpFmt),
    laneFmt ty.toNat = some f → b.onlyV = true → s.issuable st c b = true → s.inside st c b = true →
    let A := s.arch st
    let x (k : Nat) := f.ieee (laneAt f.bits (A.vreg a) k)
    let y (k : Nat) := f.ieee (laneAt f.bits (A.vreg r) k)
    let z (k : Nat) := f.ieee (laneAt f.bits (A.vreg q) k)
    ∀ (i : Instr) (op : VOp) (g : Nat → Nat), (i, op, g) ∈
      [ (Instr.vadd st b d a r ty, VOp.vr .vadd (vr2 d a r ty), fun (k : Nat) => f.encode ((x k).add (y k))),
        (Instr.vsub st b d a r ty, VOp.vr .vsub (vr2 d a r ty), fun (k : Nat) => f.encode ((x k).add (y k).negate)),
        (Instr.vmul st b d a r ty, VOp.vr .vmul (vr2 d a r ty), fun (k : Nat) => f.encode ((x k).mul (y k))),
        (Instr.vfma st b d a r q ty, VOp.vr .vfma (vr3 d a r q ty), fun (k : Nat) => f.encode (((x k).mul (y k)).add (z k))),
        (Instr.vmax st b d a r ty, VOp.vr .vmax (vr2 d a r ty), fun (k : Nat) => f.encode ((x k).max (y k))),
        (Instr.vmin st b d a r ty, VOp.vr .vmin (vr2 d a r ty), fun (k : Nat) => f.encode ((x k).min (y k))),
        (Instr.vabs st b d a ty, VOp.vr .vabs (vr1 d a ty), fun (k : Nat) => f.encode ((x k).withSign false)),
        (Instr.vneg st b d a ty, VOp.vr .vneg (vr1 d a ty), fun (k : Nat) => f.encode (x k).negate),
        (Instr.vsel st b d a r q ty, VOp.vr .vsel (vr3 d a r q ty), fun (k : Nat) => f.encode (if Sys2Proof.Machine.Num.zero.lt (x k) then y k else z k)),
        (Instr.vexp st b d a ty, VOp.vr .vexp (vr1 d a ty), fun (k : Nat) => Machine.vexp f (x k)),
        (Instr.vlog st b d a ty, VOp.vr .vlog (vr1 d a ty), fun (k : Nat) => Machine.vlog f (x k)),
        (Instr.vrsqrt st b d a ty, VOp.vr .vrsqrt (vr1 d a ty), fun (k : Nat) => Machine.vrsqrt f (x k)),
        (Instr.vtanh st b d a ty, VOp.vr .vtanh (vr1 d a ty), fun (k : Nat) => Machine.vtanh f (x k)),
        (Instr.vrcp st b d a ty, VOp.vr .vrcp (vr1 d a ty), fun (k : Nat) => Machine.vrcp f (x k)) ] →
      b.v = op →
      ∃ t v, exec i s = .next t ∧ OnlyStation st s t ∧ A.Issued (t.arch st) b (A.next + 1) ∧ A.WroteV (t.arch st) d v ∧
        ∀ k < f.lanes, laneAt f.bits v k = g k % 2 ^ f.bits) ∧
  (∀ (s : State) (st c : Nat) (b : Bundle) (d a : VReg) (ty sty : BitVec 4) (lane : BitVec 8) (part : BitVec 2) (f : FpFmt),
    laneFmt ty.toNat = some f → b.onlyV = true → s.issuable st c b = true → s.inside st c b = true →
    let A := s.arch st
    let x (k : Nat) := f.ieee (laneAt f.bits (A.vreg a) k)
    let src (k : Nat) := elemValue sty.toNat (laneAt (elemBits sty.toNat) (A.vreg a) k)
    let xs := (List.range f.lanes).map x
    ∀ (i : Instr) (op : VOp) (g : Nat → Nat), (i, op, g) ∈
      [ (Instr.vbcast st b d a ty lane, VOp.vr .vbcast { d := d, a := a, ty := ty, lane := lane },
          fun (_ : Nat) => f.encode (x lane.toNat)),
        (Instr.viota st b d ty, VOp.vr .viota { d := d, ty := ty }, fun (k : Nat) => f.encode (.ofInt k 0)),
        (Instr.vcvt st b d a ty sty part, VOp.vr .vcvt { d := d, a := a, ty := ty, sty := sty, part := part },
          fun (k : Nat) => if sty = 15
            then (if 128 * part.toNat ≤ k ∧ k < 128 * part.toNat + 128 then f.encode (src (k - 128 * part.toNat))
              else laneAt f.bits (A.vreg d) k)
            else if k < 128 then f.encode (src (128 * part.toNat + k)) else laneAt f.bits (A.vreg d) k),
        (Instr.vrsum st b d a ty, VOp.vr .vrsum (vr1 d a ty),
          fun (_ : Nat) => f.encode (halves (fun p q => f.ieee (f.encode (p.add q))) 7 64 xs)),
        (Instr.vrmax st b d a ty, VOp.vr .vrmax (vr1 d a ty), fun (_ : Nat) => f.encode (halves Sys2Proof.Machine.Num.max 7 64 xs)),
        (Instr.vrmaxi st b d a ty, VOp.vr .vrmaxi (vr1 d a ty),
          fun (k : Nat) => if k = 0 then f.encode (maxIndex xs).1 else if k = 1 then (maxIndex xs).2 else 0) ] →
      b.v = op →
      ∃ t v, exec i s = .next t ∧ OnlyStation st s t ∧ A.Issued (t.arch st) b (A.next + 1) ∧ A.WroteV (t.arch st) d v ∧
        ∀ k < f.lanes, laneAt f.bits v k = g k % 2 ^ f.bits)

/-- VRDACC, VWRACC (R151), VLD, XVS, XSV (R113) of a bundle that holds one alone, and the frame. -/
def Obligations.AccumulatorsAndLanes : Prop :=
  (∀ (s : State) (st c : Nat) (b : Bundle) (v : VReg) (acc : BitVec 2) (seg : BitVec 6) (sr : Reg),
    b.onlyV = true → s.issuable st c b = true → s.inside st c b = true →
    let A := s.arch st
    let lo := 128 * (seg.toNat + (A.sreg sr).toNat)
    (b.v = .vrdacc v acc seg sr →
      ∃ t x, exec (.vrdacc st b v acc seg sr) s = .next t ∧ OnlyStation st s t ∧ A.Issued (t.arch st) b (A.next + 1) ∧
        A.WroteV (t.arch st) v x ∧ ∀ i < 128, laneAt 32 x i = (A.accAt acc (lo + i)).toNat) ∧
    (b.v = .vwracc v acc seg sr →
      ∃ t, exec (.vwracc st b v acc seg sr) s = .next t ∧ OnlyStation st s t ∧ A.Issued (t.arch st) b (A.next + 1) ∧
        (∀ k i, i < 8192 → (t.arch st).accAt k i =
          if k = acc ∧ lo ≤ i ∧ i < lo + 128 then BitVec.ofNat 32 (laneAt 32 (A.vreg v) (i - lo)) else A.accAt k i) ∧
        (t.arch st).marks = .acc acc :: A.marks ∧
        ({ t.arch st with accs := A.accs, marks := A.marks } : Arch).OnlyMoved A)) ∧
  (∀ (s : State) (st c : Nat) (b : Bundle) (v : VReg) (a : Reg), b.onlyX = true → s.issuable st c b = true →
    s.inside st c b = true →
    let A := s.arch st
    (∀ off : BitVec 12, b.x = .vld v a off →
      ∃ t, exec (.vld st b v a off) s = .next t ∧ OnlyStation st s t ∧ A.Issued (t.arch st) b (A.next + 1) ∧
        A.WroteV (t.arch st) v (BitVec.ofNat 4096
          (leNat (rdBytes (s.saddleSeen c st) (A.sreg a + 64 * off.setWidth 64).toNat 512)))) ∧
    (∀ lane : BitVec 6, b.x = .xvs v a lane →
      ∃ t, exec (.xvs st b v a lane) s = .next t ∧ OnlyStation st s t ∧ A.Issued (t.arch st) b (A.next + 1) ∧
        A.WroteS (t.arch st) a ((A.vreg v).extractLsb' (64 * lane.toNat) 64)) ∧
    (∀ lane : BitVec 6, b.x = .xsv v a lane →
      ∃ t x, exec (.xsv st b v a lane) s = .next t ∧ OnlyStation st s t ∧ A.Issued (t.arch st) b (A.next + 1) ∧
        A.WroteV (t.arch st) v x ∧
        ∀ k < 64, x.extractLsb' (64 * k) 64 = if k = lane.toNat then A.sreg a else (A.vreg v).extractLsb' (64 * k) 64))

/-- VQ, VDQ (R83-R91, R153-R155) and WV (R138-R142) of a bundle that holds one alone. -/
def Obligations.QuantiseAndWeave : Prop :=
  (∀ (s : State) (st c : Nat) (b : Bundle), b.onlyV = true → s.issuable st c b = true → s.inside st c b = true →
    let A := s.arch st
    (∀ q : VqOp, b.v = .vq q →
      let f := q.fmt.toNat
      let h := b2n q.half
      let tr := (A.sreg q.tr).toNat
      let vals := laneVals .f32 (A.vreg q.a)
      let r := quantise f (if q.xscale then some (laneAt 8 (A.vreg q.mv) 0) else none) (vqScale (A.vreg q.mv)) vals
      let shadow := if q.shadow then halfWrites 4 h (A.sreg q.hr).toNat (quantise 4 none .zero vals) else []
      let old : TagWord := if q.mode.getLsbD 0 then { eligible := q.shadow } else .ofNat (leNat (rdBytes (s.saddleSeen c st) tr 8))
      let before := if q.mode.getLsbD 0 then 0 else ((A.openBlocks.find? fun o => o.tag == tr).map (·.count)).getD 0
      let sum : TagWord := { old with
        nonfinite := old.nonfinite || vals.any fun v => !v.isFin
        sat := old.sat + (r.2.filter (·.sat)).length, flush := old.flush + (r.2.filter (·.flush)).length }
      let closes : Bool := q.mode.getLsbD 1 || before + 128 == 4096
      let tag := if closes then sum.close (s.ctx c).policy (s.ctx c).step A.quota else sum
      let rest := A.openBlocks.filter fun o => o.tag != tr
      ∃ t, exec (.vq st b q) s = .next t ∧ (∀ j, j ≠ st → t.stn j = s.stn j) ∧ A.Issued (t.arch st) b (A.next + 1) ∧
        (t.arch st).saddle = (halfWrites f h (A.sreg q.dr).toNat r ++ shadow ++ [(tr, toLe 8 tag.toNat)]).foldl
          (fun m w => wrBytes m w.1 w.2) A.saddle ∧
        (t.arch st).openBlocks = (if closes then rest else rest ++ [⟨tr, before + 128, q.shadow⟩]) ∧
        (t.arch st).quota = (if closes && tag.detour then A.quota.map (· - 1) else A.quota) ∧
        Mark.tag tr ∈ (t.arch st).marks ∧
        (∀ w ∈ halfWrites f h (A.sreg q.dr).toNat r ++ shadow ++ [(tr, toLe 8 tag.toNat)],
          (w.1, rdBytes A.saddle w.1 w.2.length) ∈ (t.arch st).unsettled) ∧
        ({ t.arch st with saddle := A.saddle, writes := A.writes, wide := A.wide, openBlocks := A.openBlocks, quota := A.quota
                          marks := A.marks, quantised := A.quantised } : Arch).OnlyMoved A ∧
        (t.ctx c).sum = (let m := (s.ctx c).sum.add tag
          if closes then { m with storm := m.storm || decide ((s.ctx c).policy.allow < m.detoured) } else (s.ctx c).sum) ∧
        (t.ctx c).store = (s.ctx c).store) ∧
    (∀ (d : VReg) (ar : Reg) (fmt : BitVec 4) (half : Bool), b.v = .vdq d ar fmt half →
      ∃ t v, exec (.vdq st b d ar fmt half) s = .next t ∧ OnlyStation st s t ∧ A.Issued (t.arch st) b (A.next + 1) ∧
        A.WroteV (t.arch st) d v ∧
        ∀ k < 128, laneAt 32 v k = FpFmt.f32.encode (recordElem fmt.toNat
          (rdBytes (s.saddleSeen c st) (A.sreg ar).toNat (recordLen fmt.toNat)) (128 * b2n half + k)) % 2 ^ 32)) ∧
  (∀ (s : State) (st c : Nat) (b : Bundle) (o : WvOp), b.onlyM = true → b.m = .wv o → s.issuable st c b = true →
    s.inside st c b = true →
    let A := s.arch st
    let j := (s.seenSite st c).job o
    ∃ t, exec (.wv st b o) s = .next t ∧ A.Issued (t.arch st) b (A.next + 1) ∧
      (t.arch st).weaveRun = (if A.weaveRun = [] then [j] else A.weaveRun) ∧
      (t.arch st).weaveWait = (if A.weaveRun = [] then A.weaveWait else some j) ∧
      (∀ k, (t.arch st).pending k = (A.pending k || (wvAccs o).any fun a => k == .acc a)) ∧
      (t.arch st).topups = none ∧
      ({ t.arch st with weaveRun := A.weaveRun, weaveWait := A.weaveWait, marks := A.marks, topups := A.topups, producers := A.producers } : Arch).OnlyMoved A ∧
      (∀ i, i ≠ st → t.stn i = s.stn i) ∧ (t.ctx c).store = (s.ctx c).store)

/-- XLD, XST, XSEND, XHALO, XNOTE (R113-R122) of a bundle that holds one alone: what begins, and the frame. -/
def Obligations.TransfersBegin : Prop :=
  ∀ (s : State) (st c : Nat) (b : Bundle), b.onlyX = true → s.issuable st c b = true → s.inside st c b = true →
    let A := s.arch st
    let seen := A.source (s.seen c st).free (s.saddleSeen c st)
    let halo := s.saddleSeen c st
    let length (x : XtOp) := (A.sreg x.tw).toNat % 2 ^ 20
    let sa (x : XtOp) := (A.sreg x.sa + 8 * x.soff.setWidth 64).toNat
    let ca (x : XtOp) := (A.sreg x.ca + 8 * x.coff.signExtend 64).toNat
    let note (x : XtOp) := if (A.sreg x.tw).getLsbD 63
      then some ((A.sreg x.tw).toNat / 2 ^ 48 % 2 ^ 10, (A.sreg x.tw).toNat / 2 ^ 40 % 2 ^ 6) else none
    ∀ (x : XtOp) (l : BitVec 2) (rs rd rl a : Reg) (tl tr : Tok) (off : BitVec 13) (n : BitVec 16)
      (i : Instr) (op : XOp) (k : XferKind), (i, op, k) ∈
      [ (Instr.xld st b x, XOp.xld x, XferKind.xld (ca x) (sa x) (rdBytes (s.storeSeen c) (ca x) (length x)) x.t.toNat),
        (.xst st b x, .xst x, .xst (sa x) (ca x) (rdBytes seen (sa x) (length x)) x.t.toNat (note x)),
        (.xsend st b l rs rd rl tl tr, .xsend l rs rd rl tl tr, .send l.toNat (A.sreg rs).toNat (A.sreg rd).toNat
          (rdBytes seen (A.sreg rs).toNat (A.sreg rl).toNat) tl.toNat tr.toNat false),
        (.xhalo st b a off, .desc .halo a off,
          .halo (rdBytes halo (A.sreg a + 32 * off.setWidth 64).toNat 32) none [] false 0),
        (.xnote st b a tl n, .xnote a tl n, .note (A.sreg a).toNat tl.toNat n.toNat) ] →
      b.x = op →
      ∃ t, exec i s = .next t ∧ OnlyStation st s t ∧ A.Issued (t.arch st) b (A.next + 1) ∧ A.Began (t.arch st) k

/-- XFAB, XWALK, XDISP (R218, R258, R295) of a bundle that holds one alone: the request handed over, and the frame. -/
def Obligations.DescriptorsReachTheirEngines : Prop :=
  ∀ (s : State) (st c : Nat) (b : Bundle) (a : Reg) (off : BitVec 13), b.onlyX = true → s.issuable st c b = true →
    s.inside st c b = true →
    let A := s.arch st
    let k := s.ctx c
    let rel := s.relStn c st
    let bs := rdBytes (s.saddleSeen c st) (A.sreg a + 32 * off.setWidth 64).toNat 32
    let moved (t : State) := A.Issued (t.arch st) b (A.next + 1) ∧ (∀ j, j ≠ st → t.stn j = s.stn j) ∧
      ({ t.arch st with producers := A.producers } : Arch).OnlyMoved A ∧ (t.ctx c).store = k.store ∧ (t.ctx c).state = .running
    (b.x = .desc .fab a off → k.fabFault (fabOf c rel A.next s.fab.nextDesc bs) (zeroAt bs 28 4) = none →
      ∃ t, exec (.xfab st b a off) s = .next t ∧ moved t ∧
        (t.drover (droverOf st)).queue = (s.drover (droverOf st)).queue ++ [fabOf c rel A.next s.fab.nextDesc bs] ∧
        (∀ d, d ≠ droverOf st → t.drover d = s.drover d)) ∧
    (b.x = .desc .walk a off → k.walkBad (walkOf rel A.next bs) (zeroAt bs 13 1 && zeroAt bs 28 4) = false →
      ∃ t, exec (.xwalk st b a off) s = .next t ∧ moved t ∧
        (t.ctx c).walk = { k.walk with reqs := k.walk.reqs ++ [walkOf rel A.next bs] }) ∧
    (∀ p, b.x = .desc .disp a off → k.itin.stepPlan = some p →
      let q := dispOf rel A.next k.step (if p.threshold = 0xFFFF then s.moe.threshold.toNat else p.threshold)
        (if p.hysteresis = 0xFFFF then s.moe.hysteresis.toNat else p.hysteresis) bs
      k.dispBad q (zeroAt bs 17 15) = false →
      ∃ t, exec (.xdisp st b a off) s = .next t ∧ moved t ∧ (t.ctx c).moe = { k.moe with queue := k.moe.queue ++ [q] })

/-- Register operands are read before any slot of the bundle writes (R39); what its memory reads see (R46). -/
def Obligations.SlotsReadBeforeAnyWrites : Prop :=
  (∀ (s : State) (st c : Nat) (b : Bundle) (f : VrOp) (y : VrArgs) (g : SrOp) (d a r e : Reg) (lane : BitVec 6),
    b.m = .nop → b.v = .vr f y → b.s = .sr g d a r → b.x = .xvs y.d e lane → d ≠ 0 → e ≠ 0 → d ≠ e →
    s.issuable st c b = true → s.inside st c b = true →
    ∃ t, exec (.xvs st b y.d e lane) s = .next t ∧ OnlyStation st s t ∧
      (t.arch st).sreg d = srVal g ((s.arch st).sreg a) ((s.arch st).sreg r) ∧
      (t.arch st).sreg e = ((s.arch st).vreg y.d).extractLsb' (64 * lane.toNat) 64 ∧
      (t.arch st).vreg y.d = vrVal f y ((s.arch st).vreg y.a) ((s.arch st).vreg y.b) ((s.arch st).vreg y.c) ((s.arch st).vreg y.d) ∧
      (∀ x, x ≠ d → x ≠ e → (t.arch st).sreg x = (s.arch st).sreg x) ∧ (∀ x, x ≠ y.d → (t.arch st).vreg x = (s.arch st).vreg x)) ∧
  ∀ (s : State) (st c i : Nat),
    let one (m m' : Mem) (ws : List (Nat × Bytes)) := rdByte m' i = rdByte m i ∨
      ∃ lo bs, (lo, bs) ∈ ws ∧ lo ≤ i ∧ bs[i - lo]? = some (rdByte m' i)
    one (s.arch st).saddle (s.saddleSeen c st) (s.incoming c st) ∧ one (s.ctx c).store (s.storeSeen c) (s.incomingStore c) ∧
      ∀ d m, one m ((s.arch st).source d m) (s.arch st).unsettled

/-- A fault at issue (R97, R98, R372) of a context that holds its stations, whatever row carries the bundle; and a second at the same
gate time. -/
def Obligations.FaultAtIssueTearsDown : Prop :=
  ∀ (s : State) (st c : Nat) (b : Bundle) (code : Nat) (i : Instr), rowBundle i = some (st, b) →
    (s.issuing st = some c → (s.arch st).nextBundle = some b → (s.arch st).unmet b = none → (s.seenSite st c).accepts s b = true →
    firstFault ((s.seenSite st c).faults (s.seen c st) b) = some code → s.holds c = true → st ∈ s.stnsOfCtx c →
    ∃ t, exec i s = .next t ∧ (t.ctx c).state = .tearingDown ∧
      (t.ctx c).teardown = some ⟨1, BitVec.ofNat 8 code, BitVec.ofNat 16 st, (s.arch st).next, s.now⟩ ∧
      (∀ j ∈ s.stnsOfCtx c, t.arch j = {} ∧ (t.stn j).ctx = none) ∧
      (∀ j, j ∉ s.stnsOfCtx c → { t.stn j with slice := (s.stn j).slice } = s.stn j) ∧
      ((s.ctx c).itin.kv = none → (∀ j, j ∉ s.stnsOfCtx c → t.stn j = s.stn j) ∧ (t.ctx c).store = (s.ctx c).store) ∧
      (∀ v, (s.ctx c).itin.kv = some v →
        (∀ x, x < v.btBase ∨ v.rec_ v.seqMax ≤ x → rdByte (t.ctx c).store x = rdByte (s.ctx c).store x) ∧
        ∀ n < v.seqMax, ((t.ctx c).seqHead v n).live = false) ∧
      (t.part (partOfCtx c)).holder = none ∧ (∀ e, e ≠ c → t.ctx e = s.ctx e) ∧ t.pending = s.pending) ∧
    (∀ y u, st < 1024 → s.issuing st = none → s.fallenSite st = some y → y.c = c → y.a.nextBundle = some b → y.a.unmet b = none →
      y.accepts s b = true → firstFault (y.faults s b) = some code → (s.ctx c).state = .tearingDown →
      (s.ctx c).teardown = some u →
      ∃ t, exec i s = .next t ∧ (t.ctx c).state = .tearingDown ∧
        (t.ctx c).teardown = some (if st < u.station.toNat
          then ⟨1, BitVec.ofNat 8 code, BitVec.ofNat 16 st, y.a.next, s.now⟩ else u) ∧
        (∀ j, t.stn j = s.stn j) ∧ (t.ctx c).store = (s.ctx c).store ∧ (∀ e, e ≠ c → t.ctx e = s.ctx e) ∧ t.pending = s.pending)

/-- PENDING_MARK_CLEAR (R38), LDSHP_ARRIVE (R107), LINE_FETCH_ARRIVE (R41, R42), and their frames. -/
def Obligations.MarksShapesAndLines : Prop :=
  ∀ (s : State) (st c : Nat), s.engineRuns st c = true →
    let A := s.arch st
    (∀ m, A.fixedMark m = true →
      ∃ t, exec (.pendingMarkClear st m) s = .next t ∧ OnlyArch st s t ∧ Bookkept s t ∧ SameStores s t ∧
        t.arch st = { A with marks := A.marks.filter (· != m) }) ∧
    (∀ i l, A.shapes[i]? = some l → l.word.toNat < 2 ^ 32 → l.word.toNat ≤ (s.ctx c).shapeMax l.slot → A.token l.t < 65535 →
      ∃ t, exec (.ldshpArrive st i) s = .next t ∧ OnlyArch st s t ∧ Bookkept s t ∧ SameStores s t ∧
        (t.arch st).sreg l.d = (if l.d = 0 then 0 else l.word) ∧ (∀ r, r ≠ l.d → (t.arch st).sreg r = A.sreg r) ∧
        (t.arch st).marks = A.marks.filter (· != .s l.d) ∧ (t.arch st).shapes = A.shapes.eraseIdx i ∧ A.Rose (t.arch st) l.t 1 ∧
        { t.arch st with sregs := A.sregs, marks := A.marks, shapes := A.shapes, tokens := A.tokens } = A) ∧
    (∀ line, (s.ctx c).state = .running → A.run ≠ .finished → A.run ≠ .stopped →
      line ∈ (s.ctx c).lineWindow (s.relStn c st) A.next → (∀ x ∈ A.istore, x.line ≠ line) →
      ∃ t, exec (.lineFetchArrive st line) s = .next t ∧ OnlyArch st s t ∧ Bookkept s t ∧ SameStores s t ∧
        (s.ctx c).streamLine (s.relStn c st) line ∈ (t.arch st).istore ∧
        (∀ x ∈ (t.arch st).istore, x ∈ A.istore ∨ x = (s.ctx c).streamLine (s.relStn c st) line) ∧
        (∀ x ∈ A.istore, A.istore.length < 32 ∨ x.line ∈ (s.ctx c).lineWindow (s.relStn c st) A.next → x ∈ (t.arch st).istore) ∧
        { t.arch st with istore := A.istore } = A)

/-- XLD_COMPLETE, XST_COMPLETE, XST_NOTIFY_DELIVER, XNOTE_DELIVER (R44-R46, R113, R117, R119), and their frames. -/
def Obligations.TransfersComplete : Prop :=
  (∀ (s : State) (st c : Nat), s.engineRuns st c = true →
    let A := s.arch st
    (∀ i bun ca sa bs k ord n, A.inflight[i]? = some ⟨bun, .xld ca sa bs k, ord, n⟩ → A.rangeWaits ⟨bun, .xld ca sa bs k, ord, n⟩ = false →
      A.token k < 65535 →
      ∃ t got, exec (.xldComplete st i) s = .next t ∧ OnlyArch st s t ∧ BookkeptRead c s t ∧ SameStores s t ∧
        Raced (s.ctx c).store ca ((s.ctx c).writes.drop n ++ s.incomingStore c) bs got ∧ BytesPut A.saddle (t.arch st).saddle sa got ∧
        A.Rose (t.arch st) k 1 ∧ (t.arch st).inflight = A.inflight.erase ⟨bun, .xld ca sa bs k, ord, n⟩ ∧
        { t.arch st with
          saddle := A.saddle, writes := A.writes, wide := A.wide, tokens := A.tokens, inflight := A.inflight } = A) ∧
    (∀ i bun sa ca bs k note ord n, A.inflight[i]? = some ⟨bun, .xst sa ca bs k note, ord, n⟩ →
      A.rangeWaits ⟨bun, .xst sa ca bs k note, ord, n⟩ = false → (s.ctx c).stationFault true ca bs.length = none → A.token k < 65535 →
      ∃ t got, exec (.xstComplete st i) s = .next t ∧ OnlyArch st s t ∧ Bookkept s t ∧
        (∀ e, e ≠ c → (t.ctx e).store = (s.ctx e).store) ∧
        Raced A.saddle sa (A.writes.drop n ++ s.incoming c st) bs got ∧ BytesPut (s.ctx c).store (t.ctx c).store ca got ∧
        A.Rose (t.arch st) k 1 ∧ (t.arch st).inflight = A.inflight.erase ⟨bun, .xst sa ca bs k note, ord, n⟩ ∧
        (t.arch st).notices = A.notices ++ (note.map fun n => ⟨n.1, n.2, bun⟩).toList ∧
        { t.arch st with notices := A.notices, tokens := A.tokens, inflight := A.inflight } = A)) ∧
  (∀ (s : State) (st c : Nat), s.engineRuns st c = true →
    let A := s.arch st
    let raised (t : State) (far k n : Nat) : Prop :=
      Bookkept s t ∧ SameStores s t ∧ (s.arch far).Rose (t.arch far) k n ∧
      mget .unattributed (t.arch far).producers k = .notification ∧
      (∀ j, j ≠ far → (t.arch j).tokens = (s.arch j).tokens ∧ (t.arch j).producers = (s.arch j).producers) ∧
      (∀ j, j ≠ st → (t.arch j).inflight = (s.arch j).inflight ∧ (t.arch j).notices = (s.arch j).notices) ∧
      (∀ j, { t.arch j with
        tokens := (s.arch j).tokens, producers := (s.arch j).producers, inflight := (s.arch j).inflight
        notices := (s.arch j).notices } = s.arch j)
    (∀ i n, A.notices[i]? = some n → n.target < s.stnCount c → s.token c n.target n.t < 65535 →
      ∃ t, exec (.xstNotifyDeliver st i) s = .next t ∧ raised t (s.stnOfCtx c n.target) n.t 1 ∧
        (t.arch st).notices = A.notices.eraseIdx i ∧ (t.arch st).inflight = A.inflight) ∧
    (∀ i bun j k n ord w, A.inflight[i]? = some ⟨bun, .note j k n, ord, w⟩ → s.writesOpen st ord = false → j < s.stnCount c →
      s.token c j k + n ≤ 65535 →
      ∃ t, exec (.xnoteDeliver st i) s = .next t ∧ raised t (s.stnOfCtx c j) k n ∧
        (t.arch st).inflight = A.inflight.erase ⟨bun, .note j k n, ord, w⟩ ∧ (t.arch st).notices = A.notices))

/-- XSEND_SOURCE_READ, XSEND_DELIVER (R121), HALO_DESCRIPTOR_COPY, HALO_SOURCE_READ, HALO_DELIVER (R122), and their frames. -/
def Obligations.SendsComplete : Prop :=
  (∀ (s : State) (st c i bun l src dst tl tr ord w : Nat) (bs : Bytes), s.engineRuns st c = true →
    let A := s.arch st
    let x (r : Bool) : Xfer := ⟨bun, .send l src dst bs tl tr r, ord, w⟩
    (A.inflight[i]? = some (x false) → A.linkWaits (x false) l true = false → A.token tl < 65535 →
      ∃ t got, exec (.xsendSourceRead st i) s = .next t ∧ OnlyArch st s t ∧ Bookkept s t ∧ SameStores s t ∧
        Raced A.saddle src (A.writes.drop w ++ s.incoming c st) bs got ∧ A.Rose (t.arch st) tl 1 ∧
        (t.arch st).inflight[i]? = some ⟨bun, .send l src dst got tl tr true, ord, w⟩ ∧
        (t.stn st).tally.chanBytes = (s.stn st).tally.chanBytes + BitVec.ofNat 48 bs.length ∧
        { t.arch st with tokens := A.tokens, inflight := A.inflight } = A) ∧
    (∀ far, A.inflight[i]? = some (x true) → s.linkPeer c st l = some far → A.linkWaits (x true) l false = false →
      s.token c far tr < 65535 →
      let nb := s.stnOfCtx c far
      ∃ t, exec (.xsendDeliver st i) s = .next t ∧ Bookkept s t ∧ SameStores s t ∧
        BytesPut (s.arch nb).saddle (t.arch nb).saddle dst bs ∧ (s.arch nb).Rose (t.arch nb) tr 1 ∧
        (∀ j, j ≠ nb → (t.arch j).saddle = (s.arch j).saddle ∧ (t.arch j).tokens = (s.arch j).tokens) ∧
        (t.arch st).inflight = A.inflight.erase (x true) ∧
        (∀ j, { t.arch j with
          tokens := (s.arch j).tokens, producers := (s.arch j).producers, inflight := (s.arch j).inflight
          saddle := (s.arch j).saddle, writes := (s.arch j).writes, wide := (s.arch j).wide } = s.arch j))) ∧
  (∀ (s : State) (st c i bun n ord w : Nat) (b : Bytes) (rows : List Bytes), s.engineRuns st c = true →
    let A := s.arch st
    let h := haloOf b
    let x (h : Option Halo) (r : Bool) : Xfer := ⟨bun, .halo b h rows r n, ord, w⟩
    let sent (got : List Bytes) (lo hi : Nat) := got.length = rows.length ∧
      ∀ r < rows.length, if lo ≤ r ∧ r < hi
        then Raced A.saddle (h.src + r * h.srcStride) (A.writes.drop w ++ s.incoming c st) (rows.getD r []) (got.getD r [])
        else got.getD r [] = rows.getD r []
    (A.inflight[i]? = some (x none false) → haloFault b (s.linkPeer c st h.link).isSome = none →
      ∃ t, exec (.haloDescriptorCopy st i) s = .next t ∧ OnlyArch st s t ∧ Bookkept s t ∧ SameStores s t ∧
        (t.arch st).inflight[i]? = some ⟨bun, .halo b (some h)
          ((List.range h.count).map fun r => rdBytes (A.source s.free A.saddle) (h.src + r * h.srcStride) h.width) false 0, ord, w⟩ ∧
        { t.arch st with inflight := A.inflight } = A) ∧
    (A.inflight[i]? = some (x (some h) false) → A.linkWaits (x (some h) false) h.link true = false →
      (∀ r ∈ rows, r.length = h.width) → A.token h.localTok < 65535 →
      ∃ t got, exec (.haloSourceRead st i) s = .next t ∧ OnlyArch st s t ∧ Bookkept s t ∧ SameStores s t ∧
        sent got n h.count ∧
        (t.arch st).inflight[i]? = some ⟨bun, .halo b (some h) got true n, ord, w⟩ ∧ A.Rose (t.arch st) h.localTok 1 ∧
        { t.arch st with tokens := A.tokens, inflight := A.inflight } = A) ∧
    (∀ far read, A.inflight[i]? = some (x (some h) read) → s.linkPeer c st h.link = some far →
      A.linkWaits (x (some h) read) h.link false = false → s.token c far h.remoteTok < 65535 →
      (∀ r ∈ rows, r.length = h.width) → (read = false → h.perRow = true ∧ n + 1 ≠ h.count) →
      let nb := s.stnOfCtx c far
      let hi := if h.perRow then n + 1 else h.count
      ∃ t got, exec (.haloDeliver st i) s = .next t ∧ Bookkept s t ∧ SameStores s t ∧ sent got n (if read then n else hi) ∧
        (t.arch nb).saddle = (List.range (hi - n)).foldl
          (fun m j => wrBytes m (h.dst + (n + j) * h.dstStride) (got.getD (n + j) [])) (s.arch nb).saddle ∧
        (s.arch nb).Rose (t.arch nb) h.remoteTok 1 ∧
        (hi = h.count → (t.arch st).inflight = A.inflight.erase (x (some h) read)) ∧
        (hi ≠ h.count → (t.arch st).inflight[i]? = some ⟨bun, .halo b (some h) got read hi, ord, w⟩) ∧
        (∀ j, j ≠ nb → (t.arch j).saddle = (s.arch j).saddle ∧ (t.arch j).tokens = (s.arch j).tokens) ∧
        (∀ j, { t.arch j with
          tokens := (s.arch j).tokens, producers := (s.arch j).producers, inflight := (s.arch j).inflight
          saddle := (s.arch j).saddle, writes := (s.arch j).writes, wide := (s.arch j).wide } = s.arch j)))

/-- WV_START, TOPUP_ARRIVE, WV_COMPLETE (R140-R144), and their frames. -/
def Obligations.WeaveAtWork : Prop :=
  ∀ (s : State) (st c : Nat), s.engineRuns st c = true → (s.ctx c).state = .running →
    let A := s.arch st
    let k := s.ctx c
    (∀ j, A.weaveRun = [j] → j.started = false →
      ∃ t, exec (.wvStart st) s = .next t ∧ OnlyArch st s t ∧ Bookkept s t ∧ SameStores s t ∧
        t.arch st = { A with weaveRun := [{ j with started := true }] }) ∧
    (∀ j, (∀ r ∈ A.weaveRun, r.started = true ∧ r.topped = true) → A.weaveWait = some j →
      ∃ t, exec (.wvStart st) s = .next t ∧ OnlyArch st s t ∧ Bookkept s t ∧ SameStores s t ∧
        t.arch st = { A with weaveRun := A.weaveRun ++ [{ j with started := true }], weaveWait := none }) ∧
    (let records (j : WvJob) := s.chunkRecords c st j (j.topupNeed.getD j.topups.length 0)
      let here (j : WvJob) : Prop := (∀ o ∈ records j, o.2 = none → ∀ g, s.imageOf c = some g → g.poisoned o.1 128 = false) ∧
        (awayReads (records j) = [] ∨ k.topsHere st (awayReads (records j)) = true)
      let away (j : WvJob) : Prop := awayReads (records j) ≠ [] ∧ st ∉ k.caravan.topAsked
      let taken (t : State) : Prop := OnlyArch st s t ∧ SameStores s t ∧
        Bookkept s (t.modCtx c fun x => { x with caravan := k.caravan }) ∧ (t.ctx c).caravan = { k.caravan with
          topAsked := k.caravan.topAsked.erase st, topGot := k.caravan.topGot.filter fun y => y.1 != st }
      let asked (t : State) : Prop := ((t.ctx c).state = .running → ∀ i, t.stn i = s.stn i) ∧ SameStores s t ∧
        (t.ctx c).caravan.topAsked = k.caravan.topAsked ++ [st]
      (∀ j rest, A.weaveRun = j :: rest → j.topped = false → j ∉ rest → A.weaveWait ≠ some j → A.topupRoom s.now j = true →
        (here j → ∃ t, exec (.topupArrive st) s = .next t ∧ taken t ∧
          t.arch st = { A with weaveRun := { j with
            topups := j.topups ++ [(records j).map (s.topupBytes c st)], gainedAt := s.now
            gained := 1 + if j.gainedAt = s.now then j.gained else 0 } :: rest }) ∧
        (away j → ∃ t, exec (.topupArrive st) s = .next t ∧ asked t)) ∧
      (∀ j, (∀ r ∈ A.weaveRun, r.topped = true) → A.weaveWait = none → s.atAccept st = some j → A.topupRoom s.now j = true →
        (here j → ∃ t, exec (.topupArrive st) s = .next t ∧ taken t ∧
          t.arch st = { A with topups := some ((records j).map (s.topupBytes c st)) }) ∧
        (away j → ∃ t, exec (.topupArrive st) s = .next t ∧ asked t))) ∧
    (∀ j rest, A.weaveRun = j :: rest → j.started = true → j.topped = true →
      (j.op.ten = true → A.token j.op.t.toNat < 65535) →
      ∃ (t : State) (rd : Bool → Nat → Byte), exec (.wvComplete st) s = .next t ∧ OnlyArch st s t ∧ BookkeptRead c s t ∧ SameStores s t ∧
        (∀ a, Raced k.store a (k.writes.drop j.sinceStore ++ s.incomingStore c) [rdByte j.store a] [rd true a]) ∧
        (∀ a, Raced A.saddle a (A.writes.drop j.sinceSaddle ++ s.incoming c st) [rdByte j.saddle a] [rd false a]) ∧
        (t.arch st).accs = j.results (fun own a n => (List.range n).map fun i => rd own (a + i)) A.accs ∧
        (t.arch st).marks = A.marks.filter (fun m => !(wvAccs j.op).any fun a => m == .acc a) ∧
        (t.arch st).weaveRun = rest ∧ A.Rose (t.arch st) j.op.t.toNat (if j.op.ten then 1 else 0) ∧
        { t.arch st with accs := A.accs, marks := A.marks, weaveRun := A.weaveRun, tokens := A.tokens } = A)

/-- STEP_RELEASE (R108), BARRIER_RELEASE (R109), and the last FINISH of a context (R111). -/
def Obligations.StepsBarriersAndTheEnd : Prop :=
  (∀ (s : State) (c : Nat), c < 128 → (s.ctx c).state = .running → (s.stnsOfCtx c).Nodup →
    let k := s.ctx c
    (∀ bound, s.stepArrived c = true → (∀ x ∈ s.stepBounds c, x = bound) → k.parkPending = false →
      (∀ i d, k.itin.streams[i]? = some d → (s.arch (s.stnOfCtx c i)).next < d.words.length) →
      ∃ t, exec (.stepRelease c) s = .next t ∧ (t.ctx c).step = k.step + 1 ∧ (t.ctx c).bound = bound ∧
        (t.ctx c).state = .running ∧ (t.ctx c).policy = k.newPolicy.getD k.policy ∧ (t.ctx c).newPolicy = none ∧
        (t.ctx c).sum = { policyNew := k.newPolicy.isSome } ∧ (t.ctx c).stepStart = s.now ∧ (t.ctx c).stepRun = 0 ∧
        (t.ctx c).extNs = 0 ∧ (t.ctx c).breach = false ∧ (t.ctx c).walk.freeAtStep = [] ∧
        (∀ i < s.stnCount c, (t.arch (s.stnOfCtx c i)).quota = quotaOf (k.newPolicy.getD k.policy).cap (s.stnCount c) i) ∧
        (∀ st ∈ s.stnsOfCtx c, (t.arch st).run = (match (s.arch st).run with | .atStep _ => .issuing | r => r) ∧
          { t.arch st with quota := (s.arch st).quota, run := (s.arch st).run } = s.arch st) ∧
        (∀ st, st ∉ s.stnsOfCtx c → t.arch st = s.arch st) ∧ (∀ e, e ≠ c → (t.ctx e).store = (s.ctx e).store)) ∧
    (∀ (g : BitVec 4) d, k.itin.barriers.find? (fun d => d.group == g.toNat) = some d → d.members.Nodup →
      (∀ i ∈ d.members, i < s.stnCount c ∧ s.token c i (k.barToken d i) < 65535) → s.stnCount c ≤ 1024 → s.holds c = true →
      s.barReady c d = true →
      ∃ t, exec (.barrierRelease c g) s = .next t ∧
        (∀ i ∈ d.members, (s.arch (s.stnOfCtx c i)).Rose (t.arch (s.stnOfCtx c i)) (k.barToken d i) 1 ∧
          (t.ctx c).barWaits d.group i = (k.barWaits d.group i).drop 1) ∧
        (∀ st, (∀ i ∈ d.members, st ≠ s.stnOfCtx c i) → t.stn st = s.stn st) ∧
        (∀ st, { t.arch st with tokens := (s.arch st).tokens, producers := (s.arch st).producers } = s.arch st) ∧
        { t.ctx c with barPend := k.barPend, caravan := k.caravan } = k ∧ { t with ctxs := s.ctxs, stns := s.stns } = s)) ∧
  (∀ (s : State) (st c : Nat) (b : Bundle), b.onlyS = true → s.issuable st c b = true → b.s = .finish → s.holds c = true →
    (∀ j ∈ s.stnsOfCtx c, j = st ∨ (s.arch j).run = .finished) →
    ∃ t, exec (.finish st b) s = .next t ∧ (t.ctx c).complete = true ∧
      (t.ctx c).state = (if (s.ctx c).parkPending then .parked else .finished) ∧ (t.ctx c).step = (s.ctx c).step ∧
      (∀ j ∈ s.stnsOfCtx c, t.arch j = {} ∧ (t.stn j).ctx = none) ∧ (t.part (partOfCtx c)).holder = none ∧
      t.pending = s.pending)

/-- DCO_SETTLE, DROOP_DETECT, DROOP_RECOVER, ISLAND_WINDOW_END, FLOOR_BREACH_REPORT (R50-R52, R59, R385, R402). Which cause a window
carries (lowWin, lastCause) rests on log entry 31, and when the cycle counter counts a window on log entry 12: neither is a rule of the
spec. -/
def Obligations.IslandsAndWindows : Prop :=
  (∀ (s : State) (st : Nat), st < 1024 → s.bring.diesOn = true →
    let x := (s.stn st).island
    ∀ i y, (i, y) ∈ [(Instr.droopRecover st, { x with
        stretch := 0, stretchAll := false, release := x.release + (x.stretch - 1) })] ++
        (if x.freq ≠ x.target then [(Instr.dcoSettle st true, { x with freq := x.target })] else []) ++
        ((List.range 4).map fun n => (Instr.droopDetect st (n + 1), { x with stretch := n + 1, droopWin := true })) →
      ∃ t, exec i s = .next t ∧ t.stn st = { s.stn st with island := y } ∧ (∀ j, j ≠ st → t.stn j = s.stn j) ∧
        { t with stns := s.stns } = s) ∧
  (∀ (s : State) (st cycles : Nat), st < 1024 → s.bring.diesOn = true → (s.stn st).island.issuedWin ≤ cycles →
    let x := (s.stn st).island
    ∃ t, exec (.islandWindowEnd st cycles) s = .next t ∧
      (t.stn st).island.lastWindow = min cycles 65535 ∧
      (t.stn st).island.minWindow = (if x.wholeWin then min x.minWindow cycles else x.minWindow) ∧
      (t.stn st).island.issuedWin = 0 ∧ (t.stn st).island.target = x.target ∧ (t.stn st).island.freq = x.freq ∧
      (t.stn st).tally.cycles = (s.stn st).tally.cycles + BitVec.ofNat 64 (cycles - x.issuedWin) ∧
      (∀ j, t.arch j = s.arch j ∧ (t.stn j).state = (s.stn j).state) ∧ (∀ j, j ≠ st → t.stn j = s.stn j) ∧
      (t.stn st).island.lowWin = x.cause s.gov.shed ∧
      (if x.wholeWin = true ∧ cycles < 1800
        then t.gov.lastCause = (if x.lowWin = 0 then 3 else x.lowWin) ∧ t.gov.breachWindows = satAdd 32 s.gov.breachWindows 1 ∧ t.gov.event.getLsbD 2 = true ∧
          (∀ c, (s.stn st).ctx = some c → (t.ctx c).breach = true)
        else t.gov = s.gov ∧ t.ctxs = s.ctxs ∧ t.parts = s.parts)) ∧
  (∀ (s : State) (p at_ : Nat), let g := (s.part p).gov
    s.hasPart p = true → g.breachAt = some at_ → g.breachPending ≠ 0 → at_ + 100000000 ≤ s.now →
    ∃ t, exec (.floorBreachReport p) s = .next t ∧ (t.part p).gov.breachPending = 0 ∧ (t.part p).gov.breachAt = some s.now ∧
      Posted s t 0x8010 0xFFFF (toBe 1 3 ++ toBe 1 g.breachCause ++ toBe 1 p ++ toBe 1 0 ++ toBe 4 0 ++ toBe 4 g.breachPending ++ toBe 4 0) ∧
      t.ctxs = s.ctxs ∧ t.stns = s.stns ∧ t.gov = s.gov)

/-- GOVERNOR_TICK (R382, R384, R398), for the layouts of R350. -/
def Obligations.GovernorSetsTargets : Prop :=
  ∀ s : State, s.bring.powered = true → s.bring.romDone = true → s.bring.diesOn = true → s.gov.lastTick + 10000 ≤ s.now →
    s.sched.count ∈ [1, 2, 4, 8] →
    let sensors (st : Nat) : List (Nat × Int) := (st, 95) :: (List.range 4).flatMap fun j =>
      [(1024 + 4 * (st / 128) + j, 95), (1056 + j, 95), (1060 + j, 110)]
    let cap (st : Nat) := (s.stn st).island.thermalCap
    ∃ t, exec .governorTick s = .next t ∧ t.gov.lastTick = s.now ∧
      (∀ p, s.hasPart p = true → if s.gov.shed then (t.part p).gov.fNow = (s.part p).gov.fNow
        else 1800 ≤ (t.part p).gov.fNow ∧ (t.part p).gov.fNow ≤ 2700) ∧
      (∀ st < 1024,
        ((∃ x ∈ sensors st, x.2 ≤ (s.sens x.1).temp) → (t.stn st).island.thermalCap = max 1000 (cap st - 50)) ∧
        ((∀ x ∈ sensors st, (s.sens x.1).temp ≤ x.2 - 5) → (t.stn st).island.thermalCap = min 2700 (cap st + 5)) ∧
        ((∀ x ∈ sensors st, (s.sens x.1).temp < x.2) → (∃ x ∈ sensors st, x.2 - 5 < (s.sens x.1).temp) →
          (t.stn st).island.thermalCap = cap st) ∧
        (t.stn st).island.target = min (t.part (s.partOfStn st)).gov.fNow
          (min (t.stn st).island.thermalCap (if s.gov.shed then 1000 else 2700))) ∧
      (∀ st, { t.stn st with
        island := (s.stn st).island, tally := (s.stn st).tally, slice := (s.stn st).slice, arch := s.arch st } = s.stn st ∧
        { t.arch st with weaveRun := (s.arch st).weaveRun } = s.arch st ∧
        (t.arch st).weaveRun.map (fun j => { j with counted := 0, countedBytes := 0 }) =
          (s.arch st).weaveRun.map fun j => { j with counted := 0, countedBytes := 0 }) ∧
      (∀ c, { t.ctx c with energy := (s.ctx c).energy } = s.ctx c) ∧ t.pending = s.pending

/-- STATION_CHECK_FAIL, RING_STOP_FAIL, DCO_SETTLE without lock, SLICE_UNCORRECTABLE, LINK_FAIL (R61, R196, R463, R464). -/
def Obligations.UnitFailures : Prop :=
  (∀ (s : State) (st offset : Nat) (checks : BitVec 7), st < 1024 → s.bring.diesOn = true →
    let lost (c : Nat) : Prop := ∃ p id o bs, .image p id o bs st ∈ mget [] s.cst.transit (st / 128) ∧ c ∈ s.imageUsers p id ∧
      (s.image p id).isSome = true
    ((s.stn st).failed = true → checks &&& 0x3F ≠ 0 →
      ∃ t, exec (.stationCheckFail st checks) s = .next t ∧ t.stn st = { s.stn st with
          fault := (s.stn st).fault ||| (checks &&& 0x3F), fresh := (s.stn st).fresh.add s.now (checks &&& 0x3F).toNat } ∧
        (∀ j, j ≠ st → t.stn j = s.stn j) ∧ { t with stns := s.stns } = s) ∧
    ((s.stn st).failed = false → ∀ i bits, (i, bits) ∈ (if checks &&& 0x3F = 0 then [] else [(Instr.stationCheckFail st checks, checks &&& 0x3F)]) ++
        (if (s.stn st).island.freq = (s.stn st).island.target then [] else [(Instr.dcoSettle st false, (1 : BitVec 7))]) ++
        [(Instr.ringStopFail false st, 0), (Instr.sliceUncorrectable st offset, 0)] →
      ∃ t, exec i s = .next t ∧ (t.stn st).failed = true ∧ (t.stn st).state = 4 ∧ (t.stn st).fault = (s.stn st).fault ||| bits ∧
        (∀ c ∈ s.holdersOf st, (t.ctx c).state = .tearingDown ∧ ((s.ctx c).state ≠ .tearingDown →
          (t.ctx c).teardown = some { reason := 4, station := BitVec.ofNat 16 st, since := s.now })) ∧
        (∀ c, c ∉ s.holdersOf st → lost c → (t.ctx c).state = .tearingDown ∧ ((s.ctx c).state ≠ .tearingDown →
          (t.ctx c).teardown = some { reason := 5, since := s.now })) ∧
        (∀ c, c ∉ s.holdersOf st → ¬ lost c → (t.ctx c).state = (s.ctx c).state ∧ (t.ctx c).teardown = (s.ctx c).teardown) ∧
        (∀ j, j ≠ st → (t.stn j).failed = (s.stn j).failed ∧ (t.stn j).fault = (s.stn j).fault) ∧
        (i = .sliceUncorrectable st offset → t.cst.uncorr = satAdd 64 s.cst.uncorr 1 ∧ t.cst.event.getLsbD 0 = true ∧
          t.cst.errAddr = BitVec.ofNat 64 (2 ^ 63 + st % 1024 * 2 ^ 23 + offset / 8 * 8 % 2 ^ 23)) ∧ t.pending = s.pending)) ∧
  (∀ (s : State) (st far : Nat) (l : BitVec 2), linkFar st l.toNat = some far → (s.stn st).linkFailed.getLsbD l.toNat = false →
    s.bring.diesOn = true →
    ∃ t, exec (.linkFail st l) s = .next t ∧
      (t.stn st).linkFailed.getLsbD l.toNat = true ∧ (t.stn st).linkUp.getLsbD l.toNat = false ∧
      (t.stn far).linkFailed.getLsbD (linkBack l.toNat) = true ∧ (t.stn far).linkUp.getLsbD (linkBack l.toNat) = false ∧
      (t.stn st).fault = (s.stn st).fault ||| 0x40 ∧ (t.stn far).fault = (s.stn far).fault ||| 0x40 ∧
      (∀ c ∈ s.holdersOf st, far ∈ s.stnsOfCtx c → (t.ctx c).state = .tearingDown ∧ ((s.ctx c).state ≠ .tearingDown →
        (t.ctx c).teardown = some { reason := 4, since := s.now })) ∧
      (∀ c, (c ∉ s.holdersOf st ∨ far ∉ s.stnsOfCtx c) → (t.ctx c).state = (s.ctx c).state) ∧
      (∀ j, j ≠ st → j ≠ far → (t.stn j).linkFailed = (s.stn j).linkFailed ∧ (t.stn j).linkUp = (s.stn j).linkUp))

/-- HBM_UNCORRECTABLE (R196, R206), PATROL_SCRUB_STEP (R195, R197), TRANSIT_WRITE_DOWN (R173). What becomes of an image still open is the
model's choice (log entry 16). -/
def Obligations.MemoryErrorsScrubAndTransit : Prop :=
  (∀ (s : State) (n o : Nat) (hit : HbmHit), n < 32 → s.bring.diesOn = true →
    let ends (t : State) (c : Nat) : Prop := (s.ctx c).state ≠ .free → (t.ctx c).state = .tearingDown ∧
      ((s.ctx c).state ≠ .tearingDown → (t.ctx c).teardown = some { reason := 5, since := s.now })
    let stays (t : State) : Prop := t.ctxs = s.ctxs ∧ t.images = s.images ∧ t.pages = s.pages
    ∃ t, exec (.hbmUncorrectable n o hit) s = .next t ∧ (t.stk n).uncorr = satAdd 64 (s.stk n).uncorr 1 ∧
      (t.stk n).event.getLsbD 0 = true ∧ (t.stk n).errAddr = BitVec.ofNat 64 (2 ^ 63 + o % 2 ^ 36 / 64 * 64) ∧
      (∀ m, m ≠ n → t.stk m = s.stk m) ∧ t.pending = s.pending ∧
      match hit with
      | .free => stays t
      | .image p id g =>
        match s.image p id with
        | none => stays t
        | some im =>
          if im.open_ then t.ctxs = s.ctxs ∧ t.pages = s.pages ∧
            ∃ im', t.image p id = some im' ∧ g ∈ im'.poison ∧ { im' with poison := im.poison } = im
          else t.cst.event.getLsbD 1 = true ∧
            (∃ im', t.image p id = some im' ∧ g ∈ im'.poison ∧ { im' with poison := im.poison } = im) ∧
            (∀ c ∈ s.imageUsers p id, ends t c) ∧ (∀ c, c ∉ s.imageUsers p id → (t.ctx c).state = (s.ctx c).state)
      | .hamper c => t.cst.event.getLsbD 2 = true ∧ ends t c ∧ (∀ d, d ≠ c → (t.ctx d).state = (s.ctx d).state)
      | .page p spn readers crc =>
        (crc = true → t.cst.event.getLsbD 3 = true) ∧ (∀ g, t.page p spn = some g → g.poison = true) ∧
        (∀ c ∈ readers, partOfCtx c = p → ends t c) ∧ (∀ c, c ∉ readers → (t.ctx c).state = (s.ctx c).state)) ∧
  (∀ s : State, s.bring.diesOn = true →
    (∀ found, s.cst.scrubOn = true → scrubDue s.cst.scrubPos s.cst.scrubFrom (ms (1000 * s.cst.scrubS)) s.now = true →
      let w := s.cst.scrubPos
      let whole := (s.stn (w / 131072)).failed = false
      w < 1024 * 131072 →
      ∃ t, exec (.patrolScrubStep .slices found) s = .next t ∧
        t.cst.scrubPos = (if w + 1 < 1024 * 131072 then w + 1 else 0) ∧
        (¬ w + 1 < 1024 * 131072 → t.cst.event.getLsbD 4 = true) ∧
        (∀ m, found = .corrected m → whole → t.cst.corr = satAdd 64 s.cst.corr (min m 8)) ∧
        ((∀ m, found ≠ .corrected m) → t.cst.corr = s.cst.corr) ∧
        ((∃ h, found = .uncorrectable h) → whole →
          (t.stn (w / 131072)).failed = true ∧ t.cst.uncorr = satAdd 64 s.cst.uncorr 1) ∧
        ((∀ h, found ≠ .uncorrectable h) ∨ ¬ whole →
          t.cst.uncorr = s.cst.uncorr ∧ t.ctxs = s.ctxs ∧ (∀ j, t.arch j = s.arch j))) ∧
    (∀ n found, n < 32 → (s.stk n).scrubOn = true → (s.stk n).state = 2 →
      scrubDue (s.stk n).scrubPos (s.stk n).scrubFrom (ms (3600000 * (s.stk n).scrubH)) s.now = true →
      let w := (s.stk n).scrubPos
      ∃ t, exec (.patrolScrubStep (.stack n) found) s = .next t ∧
        (t.stk n).scrubPos = (if w + 1 < 48 * 2 ^ 24 then w + 1 else 0) ∧ (∀ m, m ≠ n → t.stk m = s.stk m) ∧
        (match found with
          | .corrected m => (t.stk n).corr = satAdd 64 (s.stk n).corr (min m 2) ∧ (t.stk n).uncorr = (s.stk n).uncorr
          | .clean => (t.stk n).corr = (s.stk n).corr ∧ (t.stk n).uncorr = (s.stk n).uncorr
          | .uncorrectable _ => (t.stk n).corr = (s.stk n).corr ∧ (t.stk n).uncorr = satAdd 64 (s.stk n).uncorr 1 ∧
            (t.stk n).errAddr = BitVec.ofNat 64 (2 ^ 63 + w * 64 % 2 ^ 36 / 64 * 64)) ∧
        ((∀ h, found ≠ .uncorrectable h) → t.ctxs = s.ctxs ∧ t.stns = s.stns)) ∧
    (∀ i m, i < 1024 → (s.stn i).failed = false →
      ∃ t, exec (.patrolScrubStep (.sliceRead i) (.corrected m)) s = .next t ∧ t.cst.corr = satAdd 64 s.cst.corr (min m 8) ∧
        { t with stns := s.stns, cst := s.cst } = s ∧ (∀ j, t.arch j = s.arch j)) ∧
    (∀ n m, n < 32 → (s.stk n).state = 2 →
      ∃ t, exec (.patrolScrubStep (.stackRead n) (.corrected m)) s = .next t ∧
        (t.stk n).corr = satAdd 64 (s.stk n).corr (min m 2) ∧ { t with stks := s.stks } = s ∧ (∀ j, j ≠ n → t.stk j = s.stk j)) ∧
    (∀ k, k < 8 →
      ∃ t, exec (.transitWriteDown k) s = .next t ∧ mget [] t.cst.transit k = (mget [] s.cst.transit k).drop 1 ∧
        (∀ j, j ≠ k → mget [] t.cst.transit j = mget [] s.cst.transit j) ∧ t.ctxs = s.ctxs ∧ (∀ j, t.arch j = s.arch j) ∧
        match (mget [] s.cst.transit k).head? with
        | none => t = s
        | some (.split a bs _) => t.cst.hbm = wrBytes s.cst.hbm a bs ∧ t.images = s.images
        | some (.image p id o bs _) => t.cst.hbm = s.cst.hbm ∧
          ∀ g, s.image p id = some g → t.image p id = some { g with
            data := wrBytes g.data o bs
            poison := if g.open_ then g.poison.filter (fun i => i * 4096 < o || o + bs.length < i * 4096 + 4096) else g.poison }))

/-- CARAVAN_GROUP_BEGIN and CARAVAN_GROUP_COMPLETE (R187-R190). -/
def Obligations.CaravanGroups : Prop :=
  ∀ (s : State) (c : Nat) (v : Caravan), c < 128 → (s.ctx c).itin.caravan = some v → (s.ctx c).caravanRuns = true →
    let k := s.ctx c
    (∀ d vs, v.groups[k.caravan.next]? = some d → k.groupMayBegin d = true →
      (s.seenCtx c).resolve (v.entriesOf k.caravan.next) = .ok vs →
      let r : GroupRun := { group := k.caravan.next, pass := k.caravan.pass, vs := vs }
      let empty := k.itin.fills v k.caravan.next vs = []
      ∃ t, exec (.caravanGroupBegin c) s = .next t ∧ (¬ empty → r ∈ (t.ctx c).caravan.live) ∧
        (t.ctx c).caravan.next = (if v.cyclic ∧ v.groups.length ≤ k.caravan.next + 1 then 0 else k.caravan.next + 1) ∧
        (t.ctx c).caravan.pass = (if v.cyclic ∧ v.groups.length ≤ k.caravan.next + 1 then k.caravan.pass + 1 else k.caravan.pass) ∧
        (¬ empty → s.groupAway c v r = [] → { t.ctx c with caravan := k.caravan, energy := k.energy } = k ∧
          (∀ j, t.arch j = s.arch j) ∧ { t with ctxs := s.ctxs, stns := s.stns, parts := s.parts, free := s.free } = s) ∧
        (empty → s.counting c = true → (s.stnsOfCtx c).Nodup → (k.itin.notified d).Nodup →
          (∀ j ∈ k.itin.notified d, j < s.stnCount c ∧ s.token c j d.notifyToken < 65535) →
          ∀ j ∈ k.itin.notified d, (s.arch (s.stnOfCtx c j)).Rose (t.arch (s.stnOfCtx c j)) d.notifyToken 1)) ∧
    (∀ (i : Nat) (r : GroupRun) d o dst n wide g, k.caravan.live[i]? = some r → r.done = false → r.notified = false →
      s.groupWaits c v (k.caravan.live.take i) r = false → s.groupHere c v r = true → v.groups[r.group]? = some d →
      k.itin.fills v r.group r.vs = [(o, dst, n, wide)] → s.imageOf c = some g → g.poisoned o n = false →
      granules o n = [o / 4096] →
      k.holdsHome (match regionOfImage g.regions o with | some x => x.homes | none => 1)
        (s.imagePlace (partOfCtx c) g.regions o).1 = true →
      s.counting c = true → (s.stnsOfCtx c).Nodup → (k.itin.notified d).Nodup →
      (∀ j ∈ k.itin.notified d, j < s.stnCount c ∧ s.token c j d.notifyToken < 65535) →
      ∃ t, exec (.caravanGroupComplete c i) s = .next t ∧
        BytesPut k.store (t.ctx c).store dst (s.imageBytes (partOfCtx c) g.id o n) ∧
        (∀ q ∈ (t.ctx c).caravan.live, q.done = false → q ∈ k.caravan.live ∧ q ≠ r) ∧
        (∀ j ∈ k.itin.notified d, (s.arch (s.stnOfCtx c j)).Rose (t.arch (s.stnOfCtx c j)) d.notifyToken 1) ∧
        (∀ st, (∀ j ∈ k.itin.notified d, st ≠ s.stnOfCtx c j) → t.arch st = s.arch st) ∧
        (∀ e, e ≠ c → (t.ctx e).store = (s.ctx e).store) ∧ t.images = s.images)

/-- WALK_READ and WALK_APPEND (R219-R222, R226) of one lengths entry and one block, to one destination. The faults of a walk request's lengths slot, as the walker sees its word (R46), and of ACK (R97, R225); that 0x1A comes first
of a word with both errors is the model's choice (log entry 16). -/
def Obligations.WalkersListWork : Prop :=
  (∀ (s : State) (c : Nat) (v : KvConf) (r : WalkReq) (rest : List WalkReq) (e : Len),
    (s.ctx c).walk.reqs = r :: rest → (s.ctx c).itin.kv = some v → (s.ctx c).state = .running → c < 128 → s.counting c = true →
    (s.stnsOfCtx c).Nodup → r.station < s.stnCount c → s.token c r.station r.doneToken < 65530 →
    let k := s.ctx c
    let p := s.stnOfCtx c r.groupFirst
    let q := s.stnOfCtx c r.station
    let item (flags addr : Nat) : Bytes := toLe 4 e.seq ++ toLe 4 0 ++ toLe 2 r.layer ++ toLe 2 0 ++ toLe 2 (e.cur + e.new) ++
      toLe 2 flags ++ toLe 8 addr ++ toLe 4 e.index ++ toLe 4 0
    let at_ := v.listBase + (r.groupFirst * v.listItems + r.listOffset) * 32
    let head (b : Nat) : Bytes := toLe 8 1 ++ toLe 8 v.modelTag.toNat ++ toLe 4 0 ++ toLe 4 b
    let told (t : State) (n : Nat) (l : List Staging) : Prop := (t.ctx c).walk.reqs = rest ∧
      (t.ctx c).walk.staging = k.walk.staging ++ l ∧
      (∀ st i, (t.arch st).token i = (s.arch st).token i + (if st = p ∧ i = r.listToken then 1 else 0) +
        (if st = p ∧ i = r.itemToken then n else 0) + (if st = q ∧ i = r.doneToken then 1 else 0)) ∧
      (∀ st, { t.arch st with tokens := (s.arch st).tokens, producers := (s.arch st).producers } = s.arch st) ∧
      (∀ d, d ≠ c → t.ctx d = s.ctx d)
    r.mode = 0 → r.groupCount = 1 → r.groupFirst < s.stnCount c → s.token c r.groupFirst r.listToken < 65530 →
    s.token c r.groupFirst r.itemToken < 65530 → (s.seenCtx c).lens r = .ok [e] → e.flags = 0 → e.seq < v.seqMax →
    e.cur + e.new ≤ v.tokensMax → 0 < e.cur + e.new → e.cur + e.new ≤ v.slots → r.listOffset + 1 ≤ v.listItems →
    (∀ g ∈ k.walk.staging, g.station ≠ r.groupFirst) →
    ∀ d, k.itin.shapes.find? (·.slot == r.countSlot0) = some d → 1 ≤ d.max →
    (r.op = 1 → (k.seqHead v e.seq).live = true → (k.entry v e.seq 0).state = 1 →
      ∃ t, exec (.walkRead c) s = .next t ∧ told t 1 [] ∧
        (t.ctx c).store = wrBytes (wrBytes k.store at_ (item 6 (v.frame (k.entry v e.seq 0).link r.layer))) d.addr (toLe 8 1)) ∧
    (r.op = 1 → (k.seqHead v e.seq).live = true → (k.entry v e.seq 0).state = 2 →
      let f := mget 0 k.walk.ringPos r.groupFirst % v.stageFrames
      ∃ t, exec (.walkRead c) s = .next t ∧
        told t 0 [⟨r.groupFirst, e.seq, r.itemToken, some (f, (k.entry v e.seq 0).spn + r.layer)⟩] ∧
        mget 0 (t.ctx c).walk.ringPos r.groupFirst = mget 0 k.walk.ringPos r.groupFirst + 1 ∧
        (t.ctx c).store = wrBytes (wrBytes k.store at_
          (item 7 (v.stageBase + (r.groupFirst * v.stageFrames + f) * 65536))) d.addr (toLe 8 1)) ∧
    (r.op = 2 → (k.seqHead v e.seq).live = false → e.cur = 0 → (k.entry v e.seq 0).state = 0 → v.layers ≤ s.freeSpns c →
      v.frameGroups ≤ 2 ^ 20 → (∃ g < v.frameGroups, g ∉ k.walk.frames) → r.layer < 256 →
      ∃ t g spn, exec (.walkAppend c) s = .next t ∧ told t 1 [] ∧ g < v.frameGroups ∧ g ∉ k.walk.frames ∧
        (t.ctx c).walk.frames = g :: k.walk.frames ∧ (t.ctx c).walk.spns = spn :: k.walk.spns ∧
        (∀ l < v.layers, v.frame g l / 65536 ∈ (t.ctx c).walk.writable) ∧
        (t.ctx c).store = wrBytes (wrBytes (wrBytes (wrBytes (wrBytes k.store (v.rec_ e.seq) (head 0))
          (v.entryAddr e.seq 0) (toLe 8 (Entry.toNat { state := 1, spn := spn, link := g }))) (v.rec_ e.seq) (head 1))
          at_ (item 6 (v.frame g r.layer))) d.addr (toLe 8 1))) ∧
  (∀ (s : State) (c : Nat) (v : KvConf) (r : WalkReq) (rest : List WalkReq),
    (s.ctx c).walk.reqs = r :: rest → (s.ctx c).itin.kv = some v → (s.ctx c).state = .running → c < 128 →
    r.station < s.stnCount c → s.stnOfCtx c r.station < 1024 →
    let k := s.ctx c
    ∀ i op code, (i, op, code) ∈
      ((match k.itin.shapes.find? (·.slot == r.lenSlot) with
        | some d =>
          let w := leNat (rdBytes (s.storeSeen c) d.addr 8)
          if d.max < w % 2 ^ 32 then [0x1A] else if w / 2 ^ 32 ≠ 0 then [0x1B] else []
        | none => [] : List Nat).flatMap fun x => [(Instr.walkRead c, 1, x), (.walkAppend c, 2, x), (.walkCommit c, 3, x),
          (.walkLookup c, 4, x), (.walkFork c, 5, x), (.walkRelease c, 6, x)]) ++
        (if mget 0 k.walk.filled r.station < r.ackCount then [(Instr.walkAck c, 7, 0x4C)] else []) →
      r.op = op →
      ∃ t, exec i s = .next t ∧ (t.ctx c).state = .tearingDown ∧ t.kvw.event.getLsbD 0 = true ∧
        (t.ctx c).teardown = some ⟨1, BitVec.ofNat 8 code, BitVec.ofNat 16 (s.stnOfCtx c r.station), r.bundle, s.now⟩ ∧
        (∀ d, d ≠ c → (t.ctx d).state = (s.ctx d).state))

/-- WALK_COMMIT, WALK_RELEASE, WALK_ACK, WALK_LOOKUP, WALK_FORK (R182, R219, R227-R229, R234, R237). SEAL_COMPLETE (R182, R227, R229) and WALK_STAGE_ARRIVE (R184, R196, R222, R233). -/
def Obligations.PagesSealStageAndRelease : Prop :=
  ((∀ (s : State) (c : Nat) (v : KvConf) (r : WalkReq) (rest : List WalkReq) (e : Len),
    (s.ctx c).walk.reqs = r :: rest → (s.ctx c).itin.kv = some v → (s.ctx c).state = .running → c < 128 → s.counting c = true →
    (s.stnsOfCtx c).Nodup → r.station < s.stnCount c → s.token c r.station r.doneToken < 65530 →
    let k := s.ctx c
    let q := s.stnOfCtx c r.station
    let told (t : State) : Prop := (t.ctx c).walk.reqs = rest ∧ (s.arch q).Rose (t.arch q) r.doneToken 1 ∧
      (∀ st, st ≠ q → t.arch st = s.arch st) ∧ (∀ d, d ≠ c → t.ctx d = s.ctx d)
    (∀ n, r.op = 3 → (s.seenCtx c).lens r = .ok [e] → e.flags = 0 → e.seq < v.seqMax → e.cur + e.new ≤ v.tokensMax →
      (e.cur + e.new) / v.slots = 1 → k.entry v e.seq 0 = n → n.state = 1 → n.sealedLayers = r.layer →
      ∃ t, exec (.walkCommit c) s = .next t ∧ told t ∧
        t.seals = s.seals ++ [⟨partOfCtx c, some c, k.handle, v.poolPages, e.seq, 0, r.layer, n.spn, v.layers,
          rdBytes k.store (v.frame n.link r.layer) 65536⟩] ∧
        (t.ctx c).store = wrBytes k.store (v.entryAddr e.seq 0) (toLe 8 (Entry.toNat { n with sealedLayers := r.layer + 1 })) ∧
        (t.ctx c).walk.writable = k.walk.writable.erase (v.frame n.link r.layer / 65536)) ∧
    (∀ n, r.op = 3 → (s.seenCtx c).lens r = .ok [e] → e.flags = 0 → e.seq < v.seqMax → e.cur + e.new ≤ v.tokensMax →
      (e.cur + e.new) / v.slots = 1 → k.entry v e.seq 0 = n → n.state = 2 ∨ n.state = 1 ∧ r.layer < n.sealedLayers →
      ∃ t, exec (.walkCommit c) s = .next t ∧ told t ∧ t.seals = s.seals ∧ (t.ctx c).store = k.store) ∧
    (r.op = 6 → (s.seenCtx c).lens r = .ok [e] → e.flags = 0 → e.seq < v.seqMax → e.cur + e.new ≤ v.tokensMax →
      ∃ t, exec (.walkRelease c) s = .next t ∧ told t ∧
        if (k.seqHead v e.seq).live then (t.ctx c).seqHead v e.seq = { chain := v.modelTag } ∧
          ∀ b < v.blocks, ((t.ctx c).entry v e.seq b).state = 0
        else (t.ctx c).store = k.store ∧ t.pages = s.pages) ∧
    (r.op = 7 → r.ackCount ≤ mget 0 k.walk.filled r.station →
      ∃ t, exec (.walkAck c) s = .next t ∧ told t ∧
        mget 0 (t.ctx c).walk.filled r.station = mget 0 k.walk.filled r.station - r.ackCount ∧
        (∀ j, j ≠ r.station → mget 0 (t.ctx c).walk.filled j = mget 0 k.walk.filled j) ∧ (t.ctx c).store = k.store)) ∧
  (∀ (s : State) (c : Nat) (v : KvConf) (r : WalkReq) (rest : List WalkReq) (e : Len),
    (s.ctx c).walk.reqs = r :: rest → (s.ctx c).itin.kv = some v → (s.ctx c).state = .running → c < 128 → s.counting c = true →
    (s.stnsOfCtx c).Nodup → r.station < s.stnCount c → s.token c r.station r.doneToken < 65530 →
    let k := s.ctx c
    let p := partOfCtx c
    let q := s.stnOfCtx c r.station
    let told (t : State) : Prop := (t.ctx c).walk.reqs = rest ∧ (s.arch q).Rose (t.arch q) r.doneToken 1 ∧
      (∀ st, st ≠ q → t.arch st = s.arch st) ∧ (∀ d, d ≠ c → t.ctx d = s.ctx d)
    let head (chain : Word) (keyed b : Nat) : Bytes := toLe 8 1 ++ toLe 8 chain.toNat ++ toLe 4 keyed ++ toLe 4 b
    let key := granuleKey (s.part p).ledgerKey v.modelTag (((s.seenStore c).seenCtx c).granuleTokens v e.seq 0)
    (s.seenCtx c).lens r = .ok [e] → e.flags = 0 → e.seq < v.seqMax →
    (r.op = 4 → e.cur + e.new ≤ v.tokensMax → ((k.seqHead v e.seq).live = false ∨ (k.seqHead v e.seq).blocks = 0) →
      16 < e.new → e.new ≤ 32 →
      (∀ i x, s.probe p v.layers key = some i → s.ledgerAt i = some x →
        ∃ t, exec (.walkLookup c) s = .next t ∧ told t ∧
          t.ledgerAt i = some { x with ref := x.ref + 1, stamp := s.pfx.stamp } ∧ (∀ j, j ≠ i → t.ledgerAt j = s.ledgerAt j) ∧
          (t.part p).hits = satAdd 32 (s.part p).hits 1 ∧
          (t.ctx c).store = wrBytes (wrBytes (wrBytes k.store (v.entryAddr e.seq 0) (toLe 8 (Entry.toNat ⟨2, true, v.layers, x.spn, i⟩)))
            (v.rec_ e.seq) (head key 1 1)) (r.lenTable + 16 * e.index + 4) (toLe 4 16 ++ toLe 4 (e.new - 16))) ∧
      (s.probe p v.layers key = none →
        ∃ t, exec (.walkLookup c) s = .next t ∧ told t ∧ t.pfx = s.pfx ∧ (t.part p).misses = satAdd 32 (s.part p).misses 1 ∧
          (t.ctx c).store = wrBytes (wrBytes k.store (v.rec_ e.seq) (head v.modelTag 0 0))
            (r.lenTable + 16 * e.index + 4) (toLe 4 0 ++ toLe 4 e.new))) ∧
    (∀ n x, r.op = 5 → e.new < v.seqMax → e.cur = v.slots → 0 < e.cur → e.cur ≤ v.tokensMax → 1 ≤ v.blocks → (k.seqHead v e.seq).live = false →
      (k.seqHead v e.new).live = true → (k.seqHead v e.new).keyed ≤ 1 → k.entry v e.new 0 = n → n.state = 2 → n.ledger = true →
      s.ledgerAt (n.link % 2 ^ 17) = some x → x.ref < 65535 →
      ∃ t, exec (.walkFork c) s = .next t ∧ told t ∧
        t.ledgerAt (n.link % 2 ^ 17) = some { x with ref := x.ref + 1, stamp := s.pfx.stamp } ∧
        (t.ctx c).store = wrBytes (wrBytes (wrBytes k.store (v.rec_ e.seq)
            (head (k.seqHead v e.new).chain (k.seqHead v e.new).keyed 0))
          (v.entryAddr e.seq 0) (toLe 8 n.toNat))
          (v.rec_ e.seq) (head (k.seqHead v e.new).chain (k.seqHead v e.new).keyed 1)))) ∧
  (∀ (s : State) (c : Nat) (v : KvConf), (s.ctx c).itin.kv = some v →
    let k := s.ctx c
    (∀ i l, s.seals[i]? = some l → l.ctx = some c →
      let page : Page := ⟨l.part, l.base + l.layer, l.data, (List.range 16).map fun j => crc32c (slice l.data (4096 * j) 4096), false⟩
      let more := ∃ x ∈ s.seals.erase l, x.part = l.part ∧ x.base = l.base
      let ended (u : State) : Prop := u.seals = s.seals.erase l ∧ u.cst.seals = satAdd 64 s.cst.seals 1
      let only (u : State) : Prop := ∀ d, { u.ctx d with energy := (s.ctx d).energy } = s.ctx d
      (l.base ∉ k.walk.spns →
        ∃ u : State, exec (.sealComplete i) s = .next u.serveWaiting ∧ ended u ∧ u.pages = s.pages ∧ only u) ∧
      (l.base ∈ k.walk.spns → more →
        ∃ u : State, exec (.sealComplete i) s = .next u.serveWaiting ∧ ended u ∧ u.pages = s.pages ++ [page] ∧ only u) ∧
      (∀ n, l.base ∈ k.walk.spns → ¬ more → k.entry v l.seq l.block = n → n.state = 1 → n.spn = l.base →
        ∃ u : State, exec (.sealComplete i) s = .next u.serveWaiting ∧ ended u ∧
          (n.sealedLayers ≠ v.layers → u.pages = s.pages ++ [page] ∧ only u) ∧
          (n.sealedLayers = v.layers → ((u.ctx c).entry v l.seq l.block).state = 2 ∧
            (v.ledger = false → u.pages = s.pages ++ [page] ∧
              (u.ctx c).walk.freeAtStep = (n.link, some n.spn) :: k.walk.freeAtStep ∧
              (u.ctx c).store = wrBytes k.store (v.entryAddr l.seq l.block)
                (toLe 8 (Entry.toNat { n with state := 2, link := 0 })))))) ∧
    (∀ i l, s.seals[i]? = some l → l.ctx = none →
      ∃ u : State, exec (.sealComplete i) s = .next u.serveWaiting ∧ u.pages = s.pages ∧ u.seals = s.seals.erase l ∧
        u.cst.seals = satAdd 64 s.cst.seals 1 ∧ u.ctxs = s.ctxs) ∧
    (∀ g f spn x, k.nextStaged v = some g → g.page = some (f, spn) → k.state = .running ∨ k.state = .saving → c < 128 →
      s.page (partOfCtx c) spn = some x →
      (x.poison = false → s.counting c = true → g.station < s.stnCount c → s.token c g.station g.itemToken < 65535 →
        (∀ y, (k.walk.staging.erase g).find? (·.station == g.station) = some y → y.page.isSome = true) →
        let st := s.stnOfCtx c g.station
        ∃ t, exec (.walkStageArrive c true) s = .next t ∧
          (t.ctx c).store = wrBytes k.store (v.stageBase + (g.station * v.stageFrames + f) * 65536) x.data ∧
          (t.ctx c).walk.staging = k.walk.staging.erase g ∧
          mget 0 (t.ctx c).walk.filled g.station = mget 0 k.walk.filled g.station + 1 ∧
          (s.arch st).Rose (t.arch st) g.itemToken 1 ∧ (∀ j, j ≠ st → t.arch j = s.arch j) ∧ t.pages = s.pages) ∧
      (∀ ok : Bool, ok = false ∨ x.poison = true →
        ∃ t, exec (.walkStageArrive c ok) s = .next t ∧ (t.ctx c).state = .tearingDown ∧
          (t.ctx c).teardown = some { reason := 5, since := s.now } ∧ (ok = false → t.cst.event.getLsbD 3 = true) ∧
          (∀ d, d ≠ c → (t.ctx d).state = (s.ctx d).state))))

/-- ROUTE (R259 step 1), SERVE (R263), their fault 0x47 (R265), BORROW_REQUEST_SEND (R259 step 5), PLAN_DEADLINE (R271).
The body of BORROW, and that a plan's deadline acts while no ROUTE waits and moves on the step that the next plan is for, are the
model's choices (log entry 29). ROUTE_PROCEED (R259 steps 2, 3, 6) where every expert is at home. -/
def Obligations.DispatchTakesRequests : Prop :=
  (∀ (s : State) (c : Nat) (p : StepPlan), (s.ctx c).state = .running → c < 128 → (s.ctx c).itin.stepPlan = some p →
    let k := s.ctx c
    let m := k.moe
    let twice (t : State) (r : DispReq) : Prop := (t.ctx c).state = .tearingDown ∧ t.moe.event.getLsbD 0 = true ∧
      (t.ctx c).teardown = some ⟨1, 0x47, BitVec.ofNat 16 (s.stnOfCtx c r.station), r.bundle, s.now⟩ ∧
      (∀ d, d ≠ c → (t.ctx d).state = (s.ctx d).state)
    (∀ group g r n, m.queue.find? (fun r => r.op == 1 && r.group == group) = some r → p.groups[group]? = some g →
      (∀ q ∈ (m.route r.layer r.step).reqs, q.group ≠ r.group) → (s.seenCtx c).shape r.countSlot = .ok n → n ≤ p.routeMax →
      (n = 0 ∨ k.inWorking r.table (32 * n) = true) →
      (∀ i < n, k.routeFault p g ((s.seenCtx c).routeEntry r.table i) = none) →
      let pairs := (List.range n).flatMap fun i => let e := (s.seenCtx c).routeEntry r.table i; pairsOf p r.group i e.1 e.2.2.1
      ∃ t, exec (.route c group) s = .next t ∧ (t.ctx c).moe.queue = m.queue.erase r ∧
        (t.ctx c).moe.route r.layer r.step = { m.route r.layer r.step with
          reqs := (m.route r.layer r.step).reqs ++ [r], pairs := (m.route r.layer r.step).pairs ++ pairs } ∧
        (∀ e, mget 0 (t.ctx c).moe.counts (r.layer * 65536 + e) =
          mget 0 m.counts (r.layer * 65536 + e) + (pairs.filter fun x => x.expert == e).length) ∧
        { t.ctx c with moe := m, energy := k.energy } = k ∧ { t with ctxs := s.ctxs, stns := s.stns, parts := s.parts, free := s.free } = s ∧
        (∀ st, t.arch st = s.arch st) ∧ (∀ d, d ≠ c → t.ctx d = s.ctx d)) ∧
    (∀ group g r, m.queue.find? (fun r => r.op == 1 && r.group == group) = some r → p.groups[group]? = some g →
      (∃ q ∈ (m.route r.layer r.step).reqs, q.group = r.group) → r.station < s.stnCount c → s.stnOfCtx c r.station < 1024 →
      ∃ t, exec (.route c group) s = .next t ∧ twice t r) ∧
    (∀ r, m.queue.find? (fun r => r.op == 2) = some r → (r.step, r.layer) ∈ m.served →
      r.station < s.stnCount c → s.stnOfCtx c r.station < 1024 → ∃ t, exec (.serve c) s = .next t ∧ twice t r) ∧
    (∀ r, m.queue.find? (fun r => r.op == 2) = some r → (r.step, r.layer) ∉ m.served →
      ∃ t, exec (.serve c) s = .next t ∧ (t.ctx c).moe.serving = m.serving ++ [r] ∧ (r.step, r.layer) ∈ (t.ctx c).moe.served ∧
        (t.ctx c).moe.queue = m.queue.erase r ∧ { t.ctx c with moe := m } = k ∧ { t with ctxs := s.ctxs } = s) ∧
    (∀ layer expert b h, m.borrows.find? (fun b => b.layer == layer && b.expert == expert && !b.sent) = some b →
      p.home layer expert = some h → (∀ x ∈ b.lanes, p.laneGroup layer x.1 0 x.2.1 ∉ k.caravan.laneReady) →
      s.hasDeparted (k.peerId h.home) = false → (s.holding (k.peerId h.home) = true ∨ (s.chooseRail (k.peerId h.home) 0).isSome = true) →
      ∃ t, exec (.borrowRequestSend c layer expert) s = .next t ∧
        (t.ctx c).moe.borrows = m.borrows.map (fun x => if x = b then { x with sent := true } else x) ∧
        (t.part (partOfCtx c)).borrows = satAdd 32 (s.part (partOfCtx c)).borrows 1 ∧ (t.ctx c).state = .running ∧
        (∃ d, ∃ u ∈ (t.drover d).units, u.ctx = c ∧ u.peer = k.peerId h.home ∧ u.mtype = 0x22 ∧
          u.msg.data = toBe 8 b.step ++ toBe 2 layer ++ toBe 2 expert ++ toBe 2 m.epoch.toNat ++ toBe 2 0)) ∧
    (k.itin.stepPlanMode = true → k.step ≠ 0 → m.planTaken = false → (∀ x ∈ m.planStore, x.1 ≠ k.step) →
      k.stepStart + p.deadlineNs ≤ s.now →
      ∃ t, exec (.planDeadline c) s = .next t ∧
        (t.ctx c).moe = { m with planTaken := true, planLate := true, planNext := k.step + 1 } ∧
        t.moe.event = s.moe.event ||| 16 ∧
        (t.part (partOfCtx c)).plansLate = satAdd 32 (s.part (partOfCtx c)).plansLate 1 ∧
        { t.ctx c with moe := m } = k)) ∧
  (∀ (s : State) (c : Nat) (p : StepPlan) (g : ExpertGroup) (run : RouteRun) (r : DispReq),
    (s.ctx c).state = .running → c < 128 → s.holds c = true → (s.ctx c).itin.stepPlan = some p → p.groups = [g] →
    let k := s.ctx c
    let n := (run.pairs.map (·.expert)).dedup.length
    k.itin.stepPlanMode = false → k.others = [] → (s.stnsOfCtx c).Nodup →
    k.moe.routes.find? (fun r => !r.listed && r.reqs.length == p.groups.length) = some run → run.reqs = [r] → r.group = 0 →
    (∀ q ∈ k.moe.routes, q = run ∨ ¬ (q.layer = run.layer ∧ q.step = run.step)) →
    run.ships = [] → (∀ x ∈ run.pairs, x.group = 0 ∧ ((p.home run.layer x.expert).map (·.home)).getD 0 = k.selfPeer) → n ≤ p.lanes →
    k.moe.mayShip run = true →
    g.first + g.count ≤ s.stnCount c → r.station < s.stnCount c →
    (∀ rel i, rel < s.stnCount c → s.token c rel i + n + 2 ≤ 65535) →
    ∃ t, exec (.routeProceed c) s = .next t ∧ (t.ctx c).state = .running ∧
      ((t.ctx c).moe.route run.layer run.step).listed = true ∧ ((t.ctx c).moe.route run.layer run.step).shipped = true ∧
      (∀ rel < s.stnCount c, ∀ i, t.token c rel i = s.token c rel i +
        (if g.first ≤ rel ∧ rel < g.first + g.count then (if i = r.listToken then 1 else 0) + (if i = r.laneToken then n else 0) else 0) +
        (if rel = r.station ∧ i = r.doneToken then 1 else 0)))

/-- SERVE_PROCEED (R263), DISPATCH_RETURN (R264), RELAY_TREE_START (R273). The relay header's layout is the model's own (log
entry 29). -/
def Obligations.ServesReturnsAndTrees : Prop :=
  ∀ (s : State) (c : Nat) (p : StepPlan), (s.ctx c).state = .running → c < 128 → (s.ctx c).itin.stepPlan = some p →
    let k := s.ctx c
    let m := k.moe
    (∀ g r a h, p.groups = [g] → m.serving.find? (fun r => k.noticed r.step r.layer) = some r → m.served? k.peerCount r.step r.layer = [a] →
      1 ≤ p.serveRows → 1 ≤ p.lanes → a.expert < p.experts → p.home r.layer a.expert = some h →
      s.holds c = true → (s.stnsOfCtx c).Nodup → g.first + g.count ≤ s.stnCount c → r.station < s.stnCount c →
      (∀ rel i, rel < s.stnCount c → s.token c rel i + 3 ≤ 65535) →
      ∃ t, exec (.serveProceed c) s = .next t ∧ (t.ctx c).moe.serving = m.serving.erase r ∧
        (t.ctx c).moe.lanes = m.lanes.filter (fun l => l.layer != r.layer) ++ [⟨r.layer, 0, 0, [a], false⟩] ∧
        (t.ctx c).moe.arrivals = m.arrivals.filter (fun x => !(x.layer == r.layer && x.step == r.step)) ∧
        (∀ rel < s.stnCount c, ∀ i, t.token c rel i = s.token c rel i +
          (if g.first ≤ rel ∧ rel < g.first + g.count then (if i = r.listToken then 1 else 0) + (if i = r.laneToken then 1 else 0) else 0) +
          (if rel = r.station ∧ i = r.doneToken then 1 else 0))) ∧
    (∀ g r l a, p.groups[a.group]? = some g → m.queue.find? (fun r => r.op == 3) = some r →
      m.lanes.find? (fun l => l.layer == r.layer && l.group == r.group && l.lane == r.lane && !l.returned) = some l → l.rows = [a] →
      k.inWorking r.table p.resultBytes = true → m.epochOf a.source = a.epoch → s.holds c = true → r.station < s.stnCount c →
      s.token c r.station r.doneToken < 65535 →
      s.portUp a.rail = true →
      ∃ t, exec (.dispatchReturn c) s = .next t ∧ (t.ctx c).moe.queue = m.queue.erase r ∧
        (t.ctx c).moe.lanes = m.lanes.map (fun x => if x = l then { x with returned := true } else x) ∧
        (t.part (partOfCtx c)).servedRows = satAdd 32 (s.part (partOfCtx c)).servedRows 1 ∧
        t.token c r.station r.doneToken = s.token c r.station r.doneToken + 1 ∧ (t.ctx c).store = k.store ∧
        Sent s t a.rail 0x24 ⟨0, BitVec.ofNat 8 s.fabricId, BitVec.ofNat 8 (k.peerId a.source), k.itin.job, 0, 0,
          g.returnBase + a.pair * (64 + p.resultBytes), 0,
          recordHeader k.selfPeer (BitVec.ofNat 16 a.epoch) a.layer a.expert a.pair a.group 0 a.step ++
            rdBytes (s.storeSeen c) r.table p.resultBytes, 0, a.rail⟩) ∧
    (∀ layer expert first h g tn rail, m.reqs.find? (fun q => q.layer == layer && q.expert == expert) = some first →
      p.home layer expert = some h → s.imageOf c = some g → k.itin.tensor h.tensor = some tn → s.portsRun = true →
      k.isHeld = false → first.at_ + s.moe.mergeNs.toNat ≤ s.now → g.poisoned tn.offset tn.bytes = false → 0 < tn.bytes →
      tn.bytes ≤ 65536 →
      let mine := (m.reqs.filter fun q => q.layer == layer && q.expert == expert && q.step == first.step).mergeSort
        fun x y => x.pkg ≤ y.pkg
      ∀ x, mine.head? = some x → s.chooseRail x.pkg 0 = some rail →
      ∃ t, exec (.relayTreeStart c layer expert) s = .next t ∧
        (t.ctx c).moe.reqs = m.reqs.filter (fun q => !(q.layer == layer && q.expert == expert && q.step == first.step)) ∧
        (t.part (partOfCtx c)).trees = satAdd 32 (s.part (partOfCtx c)).trees 1 ∧
        (t.part (partOfCtx c)).sentBlocks = satAdd 32 (s.part (partOfCtx c)).sentBlocks 1 ∧ (t.ctx c).store = k.store ∧
        Sent s t rail 0x28 ⟨0, BitVec.ofNat 8 s.fabricId, BitVec.ofNat 8 x.pkg, k.itin.job, 0, 0, 0, 0,
          relayHeader ⟨(s.part (partOfCtx c)).trees, 0, mine.map fun q => (q.pkg, q.epoch), 0, layer, expert⟩ ++
            slice (s.imageBytes (partOfCtx c) g.id tn.offset tn.bytes) 0 65536, 0, rail⟩)

/-- READ, BULK_READ, WRITE, BULK_WRITE, ATOMIC (four rows), NOTIFY (R291, R294, R296, R300, R302). -/
def Obligations.PeersReadAndWrite : Prop :=
  ∀ (s : State) (m : Msg),
    let op := m.flags.toNat % 4
    (∀ c, s.jobCtx m.job = some c →
      let k := s.ctx c
      let old := BitVec.ofNat 64 (leNat (rdBytes (s.storeSeen c) m.remote 8))
      let x := BitVec.ofNat 64 (leAt m.data 0 8)
      let full : Prop := s.inboundRoom ≤ (s.fab.inbound.filter fun x => x.1 == partOfCtx c).length
      let queued (t : State) (ty : BitVec 8) : Prop :=
        t = { s with fab := { s.fab with inbound := s.fab.inbound ++ [(partOfCtx c, ty, m)] } }
      (full → ∀ i ty ok, (i, ty, ok) ∈ [(Instr.read m, (0x01 : BitVec 8), True), (.bulkRead m, 0x03, True), (.write m, 0x02, True),
          (.bulkWrite m, 0x04, True), (.atomicAdd m, 0x05, op = 0), (.atomicMax m, 0x05, op = 1), (.atomicCas m, 0x05, op = 2),
          (.atomicFadd m, 0x05, op = 3), (.notify m, 0x06, True)] →
        ok → s.hears ty m = true →
        ∃ t, exec i s = .next t ∧ Answered s t m .retry [] ∧ t.ctxs = s.ctxs ∧ t.stns = s.stns ∧ t.fab.inbound = s.fab.inbound) ∧
      (¬ full →
      ((∀ i ty n, (i, ty, n) ∈ [(Instr.read m, (0x01 : BitVec 8), if m.flags.getLsbD 0 then 256 else 64), (.bulkRead m, 0x03, 4096)] →
        s.hears ty m = true → s.reqBehind m = false →
        (m.remote < 0x100000000000 → k.resident = true → k.remoteReads m.remote n = true →
          ∃ t, exec i s = .next t ∧ Answered s t m .ok (rdBytes (s.storeSeen c) m.remote n) ∧ SameStores s t ∧ (∀ j, t.arch j = s.arch j)) ∧
        (∀ bs, s.remoteRead c m.remote n = .data bs →
          ∃ t, exec i s = .next t ∧ Answered s t m .ok bs ∧ SameStores s t ∧ (∀ j, t.arch j = s.arch j)) ∧
        (∀ st, s.remoteRead c m.remote n = .no st → ∃ t, exec i s = .next t ∧ Answered s t m st [] ∧ SameStores s t) ∧
        (s.remoteRead c m.remote n = .wait → ∃ t, exec i s = .next t ∧ queued t ty)) ∧
      (∀ i ty ok bs ret, (i, ty, ok, bs, ret) ∈
          [ (Instr.write m, (0x02 : BitVec 8), True, m.data, []), (.bulkWrite m, 0x04, True, m.data, []),
            (.atomicAdd m, 0x05, op = 0, toLe 8 (old + x).toNat, toLe 8 0),
            (.atomicMax m, 0x05, op = 1, toLe 8 (if old.toNat < x.toNat then x else old).toNat, toLe 8 0),
            (.atomicCas m, 0x05, op = 2, toLe 8 (if old = BitVec.ofNat 64 (leAt m.data 8 8) then x else old).toNat, toLe 8 old.toNat),
            (.atomicFadd m, 0x05, op = 3, toLe 8 (old + x).toNat, toLe 8 old.toNat) ] →
        ok → s.hears ty m = true → s.reqBehind m = false →
        (k.remoteWrites m.remote bs.length = true → k.resident = true →
          ∃ t, exec i s = .next t ∧ BytesPut k.store (t.ctx c).store m.remote bs ∧
            (∀ d, d ≠ c → (t.ctx d).store = (s.ctx d).store) ∧ (∀ j, t.arch j = s.arch j) ∧ Answered s t m .ok ret) ∧
        (k.remoteWrites m.remote bs.length = true → k.resident = false → ∃ t, exec i s = .next t ∧ queued t ty) ∧
        (k.remoteWrites m.remote bs.length = false →
          ∃ t, exec i s = .next t ∧ Answered s t m .access [] ∧ t.ctxs = s.ctxs ∧ t.stns = s.stns)) ∧
      (s.hears 0x06 m = true →
        let st := m.aux.toNat / 65536
        let tok := m.aux.toNat / 1024 % 64
        let n := m.aux.toNat % 1024 * 256 + m.flags.toNat
        (st < s.stnCount c → s.counting c = true → s.token c st tok + n ≤ 65535 →
          ∃ t, exec (.notify m) s = .next t ∧ (s.arch (s.stnOfCtx c st)).Rose (t.arch (s.stnOfCtx c st)) tok n ∧
            OnlyArch (s.stnOfCtx c st) s t ∧ SameStores s t ∧ Answered s t m .ok []) ∧
        (s.stnCount c ≤ st → ∃ t, exec (.notify m) s = .next t ∧ Answered s t m .access [] ∧ t.ctxs = s.ctxs ∧ t.stns = s.stns))))) ∧
    (s.jobCtx m.job = none →
      ∀ i ty ok, (i, ty, ok) ∈ [(Instr.read m, (0x01 : BitVec 8), True), (.bulkRead m, 0x03, True), (.write m, 0x02, True),
          (.bulkWrite m, 0x04, True), (.atomicAdd m, 0x05, op = 0), (.atomicMax m, 0x05, op = 1), (.atomicCas m, 0x05, op = 2),
          (.atomicFadd m, 0x05, op = 3), (.notify m, 0x06, True)] →
        ok → s.hears ty m = true →
        ∃ t, exec i s = .next t ∧ Answered s t m .absent [] ∧ t.ctxs = s.ctxs ∧ t.stns = s.stns)

/-- ARRIVAL (R262), SHIP_DONE (R263), BORROW (R273), CANCEL (R277, R279), RETURN (R264, R280). -/
def Obligations.DispatchMessages : Prop :=
  ∀ (s : State) (m : Msg) (c i : Nat) (p : StepPlan), s.jobCtx m.job = some c → (s.ctx c).resident = true →
    (s.ctx c).state ≠ .saving → (s.ctx c).itin.stepPlan = some p → (s.ctx c).peerOf m.srcPkg.toNat = some i →
    s.inboundFull (partOfCtx c) = false →
    let k := s.ctx c
    (∀ l n, s.hears 0x20 m = true → arrivalSlot p k.peerCount i m.remote = some (l, n) → m.data.length = 64 + p.actBytes → leAt m.data 4 2 % 2 = l →
      ∃ t, exec (.arrival m) s = .next t ∧ BytesPut k.store (t.ctx c).store m.remote m.data ∧
        ⟨i, leAt m.data 4 2, leAt m.data 6 2, leAt m.data 8 4, leAt m.data 12 1, leAt m.data 2 2, leAt m.data 16 8, n, m.remote, m.port⟩ ∈
          (t.ctx c).moe.arrivals ∧ Answered s t m .ok []) ∧
    (∀ step layer count, s.hears 0x21 m = true → ∃ t, exec (.shipDone m step layer count) s = .next t ∧
      (t.ctx c).moe = { k.moe with notes := k.moe.notes ++ [⟨step, layer, i, count⟩] } ∧ Answered s t m .ok []) ∧
    (∀ step layer expert epoch h, s.hears 0x22 m = true → p.home layer expert = some h → h.home = k.selfPeer → layer < 65536 → expert < 65536 → epoch < 65536 →
      ∃ t, exec (.borrow m step layer expert epoch) s = .next t ∧
        (t.ctx c).moe = { k.moe with reqs := k.moe.reqs ++ [⟨step, layer, expert, m.srcPkg.toNat, i, epoch, s.now⟩] } ∧
        Answered s t m .ok []) ∧
    (∀ epoch, s.hears 0x23 m = true → epoch < 65536 → newer epoch (k.moe.epochOf i) = true →
      ∃ t, exec (.cancel m epoch) s = .next t ∧ (t.ctx c).moe.epochOf i = epoch ∧
        (∀ j, j ≠ i → (t.ctx c).moe.epochOf j = k.moe.epochOf j) ∧
        (∀ a, a ∈ (t.ctx c).moe.arrivals ↔ a ∈ k.moe.arrivals ∧ ¬ (a.source = i ∧ newer epoch a.epoch = true)) ∧
        Answered s t m .ok []) ∧
    (∀ a g, s.hears 0x24 m = true → leAt m.data 2 2 = k.moe.epoch.toNat → p.groups[a.group]? = some g →
      k.moe.await.find? (fun a => a.step == leAt m.data 16 8 && a.layer == leAt m.data 4 2 && a.group == leAt m.data 12 1 &&
        a.index == leAt m.data 8 4) = some a → m.data.length = 64 + p.resultBytes →
      s.counting c = true → (s.stnsOfCtx c).Nodup → g.first + g.count ≤ s.stnCount c →
      (∀ rel < s.stnCount c, s.token c rel g.returnToken < 65535) →
      let refused := leAt m.data 13 1 % 2 = 1
      ∃ t, exec (.returnRec m) s = .next t ∧
        BytesPut k.store (t.ctx c).store (g.returnBase + a.index * (64 + p.resultBytes))
          (if refused then m.data.take 64 ++ List.replicate p.resultBytes 0 else m.data) ∧
        (t.ctx c).moe.overrun = (k.moe.overrun || decide refused) ∧ (refused → t.moe.event.getLsbD 5 = true) ∧
        (t.ctx c).moe.await = k.moe.await.erase a ∧
        (∀ rel < s.stnCount c, ∀ j, t.token c rel j =
          s.token c rel j + if g.first ≤ rel ∧ rel < g.first + g.count ∧ j = g.returnToken then 1 else 0)) ∧
    (s.hears 0x24 m = true → leAt m.data 2 2 ≠ k.moe.epoch.toNat →
      ∃ t, exec (.returnRec m) s = .next t ∧ t.moe.event = s.moe.event ||| 4 ∧
        (t.part (partOfCtx c)).staleRes = satAdd 32 (s.part (partOfCtx c)).staleRes 1 ∧ t.ctxs = s.ctxs ∧ t.stns = s.stns)

/-- RELAY_BLOCK (R274, R280, R311, R312) and DEPARTURE (R309, R313). The relay header's layout is the model's own (log entry 29). -/
def Obligations.RelayAndDeparture : Prop :=
  ∀ (s : State) (m : Msg),
    (∀ (r : RelayHdr) pkg e rail, s.hears 0x28 m = true → s.jobBarred m.job = false → r.members[2 * r.position + 1]? = some (pkg, e) → s.chooseRail pkg (r.block * 65536) = some rail →
      ∃ t, exec (.relayBlock m r) s = .next t ∧
        Sent s t rail 0x28 ⟨0, BitVec.ofNat 8 s.fabricId, BitVec.ofNat 8 pkg, m.job, 0, 0, r.block * 65536, 0,
          relayHeader { r with position := 2 * r.position + 1 } ++ m.data.drop (m.data.length - 65536), 0, rail⟩) ∧
    (∀ (r : RelayHdr), s.hears 0x28 m = true → s.jobBarred m.job = true →
      ∃ t, exec (.relayBlock m r) s = .next t ∧ t.fab.discard = satAdd 48 s.fab.discard 1 ∧ t.fab.event.getLsbD 6 = true ∧
        { t with fab := s.fab } = s) ∧
    (∀ (r : RelayHdr) c pkg e, s.hears 0x28 m = true → s.jobCtx m.job = some c → (s.ctx c).resident = true → (s.ctx c).state ≠ .saving →
      r.members[r.position]? = some (pkg, e) → r.members.length ≤ 2 * r.position + 1 →
      let k := s.ctx c
      (e ≠ k.moe.epoch.toNat →
        ∃ t, exec (.relayBlock m r) s = .next t ∧ t.moe.event = s.moe.event ||| 4 ∧ t.ctxs = s.ctxs ∧
          (t.part (partOfCtx c)).staleBlk = satAdd 32 (s.part (partOfCtx c)).staleBlk 1) ∧
      (∀ b p v g tn, e = k.moe.epoch.toNat → k.itin.stepPlan = some p → k.itin.caravan = some v → p.groups.head? = some g →
        k.itin.tensor g.borrowTensor = some tn → r.block ∉ b.blocks → b.blocks.length + 1 < ceilDiv tn.bytes 65536 →
        k.moe.borrows.find? (fun b => b.layer == r.layer && b.expert == r.expert && b.sent) = some b →
        ∃ t, exec (.relayBlock m r) s = .next t ∧
          (∃ z, (t.ctx c).moe = { k.moe with borrows := k.moe.borrows.map fun x => if x = b then { x with blocks := r.block :: b.blocks, before := z } else x }) ∧
          (∀ d, d ≠ c → (t.ctx d).store = (s.ctx d).store))) ∧
    (s.hears 0x30 m = true → ∃ t, exec (.departure m) s = .next t ∧ t.hasDeparted m.srcPkg.toNat = true ∧ t.fab.event.getLsbD 4 = true ∧
      (∀ c < 128, ∀ x, (s.ctx c).itin.peers = some x → m.srcPkg.toNat ∈ x.ids → (s.ctx c).state ≠ .free →
        (s.ctx c).state ≠ .tearingDown → (s.ctx c).isHeld = false →
        (t.ctx c).state = .held ∧ (t.ctx c).hold = some (3, m.srcPkg.toNat, s.now + ms s.fab.holdMs)) ∧
      (∀ c, ((s.ctx c).itin.peers = none ∨ ∃ x, (s.ctx c).itin.peers = some x ∧ m.srcPkg.toNat ∉ x.ids) →
        (t.ctx c).state = (s.ctx c).state) ∧
      Posted s t 0x8007 0xFFFF (slice m.data 0 8 ++ toBe 1 m.srcPkg.toNat ++ slice m.data 8 1 ++ toBe 6 0))

/-- DROVER_DESCRIPTOR_START, RESPONSE, RETRY_RESEND, UNIT_TIMEOUT, HELD_UNITS_RELEASE, HOLD_EXPIRE, QUARANTINE_END (R295-R312). -/
def Obligations.DroverUnits : Prop :=
  ∀ (s : State), s.portsRun = true →
    (∀ d f rest pi rail, d < 16 → (s.drover d).queue = f :: rest → (s.drover d).active = [] → (s.drover d).units = [] → f.issued = 0 →
      f.count = 1 → f.peer = some pi →
      let pkg := (s.ctx f.ctx).peerId pi
      let msg := s.unitMsg f 0 pkg
      s.hasDeparted pkg = false → s.holding pkg = false → s.chooseRail pkg msg.remote = some rail →
      ∃ t, exec (.droverDescriptorStart d) s = .next t ∧ (t.drover d).queue = rest ∧ (t.drover d).active = [{ f with issued := 1 }] ∧
        (∃ u, (t.drover d).units = [u] ∧ u.entry < 256 ∧ u.kind = .desc f.id 0 ∧ u.rail = rail ∧
          u.deadline = s.now + us s.fab.timeoutUs ∧ u.msg = { msg with tag := unitTag d u.entry (s.drover d).gen 0 } ∧
          Sent s t rail (BitVec.ofNat 8 f.op) u.msg) ∧
        ∀ c, { t.ctx c with energy := (s.ctx c).energy } = s.ctx c) ∧
    (∀ (m : Msg) (u : DUnit) f d, s.hears 0x10 m = true → s.unitOf m = (d, some u) → m.status = 0 → (s.drover d).units = [u] →
      (s.drover d).active = [f] → u.kind = .desc f.id 0 → f.op = 1 → f.count = 1 → f.done = 0 → s.counting f.ctx = true →
      f.station < s.stnCount f.ctx → s.token f.ctx f.station f.token < 65535 →
      ∃ t, exec (.response m) s = .next t ∧ (t.drover d).units = [] ∧ (t.drover d).active = [] ∧
        BytesPut (s.ctx f.ctx).store (t.ctx f.ctx).store f.local_ (slice m.data 0 (if f.sub = 1 then 256 else 64)) ∧
        (s.arch (s.stnOfCtx f.ctx f.station)).Rose (t.arch (s.stnOfCtx f.ctx f.station)) f.token 1) ∧
    (∀ (m : Msg) (u : DUnit) f d, s.hears 0x10 m = true → s.unitOf m = (d, some u) → (s.drover d).units = [u] → u.entry < 256 →
      (s.drover d).active = [f] → f.issued = f.count → (s.ctx u.ctx).state = .running →
      (m.status = 1 → ∃ t, exec (.response m) s = .next t ∧ (t.drover d).units = [{ u with retry := true, lastSent := s.now }] ∧
        (t.drover d).active = [f] ∧ t.ctxs = s.ctxs ∧ t.stns = s.stns) ∧
      (m.status = 3 → u.ctx = f.ctx → (s.ctx u.ctx).under = none →
        ∃ t, exec (.response m) s = .next t ∧ (t.ctx u.ctx).state = .held ∧ (t.drover d).units = [] ∧
          (t.ctx u.ctx).hold = some (2, u.peer, s.now + ms s.fab.holdMs) ∧ (∀ c, c ≠ u.ctx → t.ctx c = s.ctx c)) ∧
      (m.status = 4 → u.ctx = f.ctx →
        ∃ t, exec (.response m) s = .next t ∧ (t.ctx u.ctx).state = .tearingDown ∧ (t.drover d).units = [] ∧
          (t.ctx u.ctx).teardown = some { reason := 5, since := s.now } ∧ (∀ c, c ≠ u.ctx → t.ctx c = s.ctx c))) ∧
    (∀ (m : Msg) d, s.hears 0x10 m = true → s.unitOf m = (d, none) →
      ∃ t, exec (.response m) s = .next t ∧ t.fab.discard = satAdd 48 s.fab.discard 1 ∧ t.fab.event.getLsbD 6 = true ∧
        { t with fab := s.fab } = s) ∧
    (∀ d i u rail, d < 16 → (s.drover d).units[i]? = some u → (s.drover d).units = [u] → (s.drover d).active = [] → u.entry < 256 →
      u.retry = true → u.lastSent + us u.backoffUs ≤ s.now →
      s.chooseRail u.peer u.msg.remote = some rail →
      ∃ t, exec (.retryResend d i) s = .next t ∧ Sent s t rail u.mtype u.msg ∧
        (∃ x ∈ (t.drover d).units, x.entry = u.entry ∧ x.retry = false ∧ x.lastSent = s.now ∧ x.backoffUs = min 16 (2 * u.backoffUs)) ∧
        t.ctxs = s.ctxs) ∧
    (∀ d i u, (s.drover d).units[i]? = some u → (∃ x ∈ (s.drover d).units.takeWhile (· != u), x.unsent = true ∧ x.ordered u = true) →
      exec (.retryResend d i) s = .next s) ∧
    (∀ d i u, d < 16 → (s.drover d).units[i]? = some u → (s.drover d).units.length = 1 → (s.drover d).active = [] → u.entry < 256 →
      u.deadline ≤ s.now → (s.ctx u.ctx).state ≠ .free → (s.ctx u.ctx).state ≠ .tearingDown → (s.ctx u.ctx).isHeld = false →
      ∃ t, exec (.unitTimeout d i) s = .next t ∧ (t.drover d).units = [] ∧
        (t.drover d).timeouts = satAdd 32 (s.drover d).timeouts 1 ∧ (t.ctx u.ctx).state = .held ∧
        (t.ctx u.ctx).hold = some (1, u.peer, s.now + ms s.fab.holdMs) ∧
        Posted s t 0x8006 (s.ctx u.ctx).handle
          (toBe 4 (s.ctx u.ctx).itin.job.toNat ++ toBe 2 (s.ctx u.ctx).handle.toNat ++ toBe 1 1 ++ toBe 1 u.peer)) ∧
    (∀ pkg d u rail, d < 16 → s.unsettled pkg = false → s.hasDeparted pkg = false → (s.drover d).units = [u] → (s.drover d).active = [] →
      (∀ e, e ≠ d → (s.drover e).units = [] ∧ (s.drover e).active = []) → u.peer = pkg → u.held = true → u.entry = 256 →
      s.chooseRail pkg u.msg.remote = some rail →
      ∃ t, exec (.heldUnitsRelease pkg) s = .next t ∧
        ∃ x, (t.drover d).units = [x] ∧ x.held = false ∧ x.entry < 256 ∧ x.rail = rail ∧ Sent s t rail u.mtype x.msg) ∧
    (∀ c cause peer at_, c < 128 → (s.ctx c).hold = some (cause, peer, at_) → at_ ≤ s.now → (s.ctx c).isHeld = true →
      (s.ctx c).state ≠ .free → (s.ctx c).state ≠ .tearingDown →
      ∃ t, exec (.holdExpire c) s = .next t ∧ (t.ctx c).state = .tearingDown ∧
        (t.ctx c).teardown = some { reason := 3, since := s.now } ∧ (∀ d, d ≠ c → t.ctx d = s.ctx d)) ∧
    (∀ job, (∀ x ∈ s.fab.quarantine, x.1 = job → x.2 ≤ s.now) → job ∉ s.fab.dead →
      ∃ t, exec (.quarantineEnd job) s = .next t ∧ t.jobBarred job = false ∧
        (∀ j, j ≠ job → t.jobBarred j = s.jobBarred j) ∧ { t with fab := s.fab } = s)

/-- PORT_LANE_LOCK, IDENTITY_FLIT_SEND, IDENTITY_FLIT_RX, CREDIT_INIT_DONE, TRAIN_STEP_TIMEOUT, TRAINING_RESTART (R285-R287). FLIT_RECEIVE (R289-R292), LANE_FAIL (R307), PORT_DOWN and FAR_END_SILENT (R308). -/
def Obligations.FabricPorts : Prop :=
  (∀ (s : State) (r : Nat), r < 8 → s.portsRun = true → (s.port r).disable = false →
    let p := s.port r
    let only (t : State) : Prop := (∀ q, q ≠ r → t.port q = s.port q) ∧ t.ctxs = s.ctxs ∧ t.stns = s.stns
    (∀ lanes, p.step = 1 →
      let failed := p.failed ||| ~~~ lanes
      let l : BitVec 8 := if failed = 0 then 0xFF else if failed &&& 0x0F = 0 then 0x0F else if failed &&& 0xF0 = 0 then 0xF0 else 0
      ∃ t, exec (.portLaneLock r lanes) s = .next t ∧ only t ∧ (t.port r).failed = failed ∧ (t.port r).lanes = l ∧
        (t.port r).width = (if l = 0xFF then 8 else if l = 0 then 0 else 4) ∧ (t.port r).step = (if l = 0 then 2 else 3)) ∧
    (p.step = 3 → (∀ x, p.identSentAt = some x → x + 10000 ≤ s.now) →
      ∃ t, exec (.identityFlitSend r) s = .next t ∧ only t ∧ t.port r = { p with identSentAt := some s.now } ∧
        ∃ b, t.out = .flit r b :: s.out ∧ (Flit.mk b 0 0).good = true ∧ (Flit.mk b 0 0).ftype = 2 ∧ slice b 8 32 = (s.identity r).record ∧
          Ident.ofBytes (slice b 8 32) = s.identity r) ∧
    (∀ rec_ plan want en, p.step = 3 → s.fab.plan = some plan → plan.ports[r]? = some (want, en) →
      let far := Ident.ofBytes rec_
      ∃ t, exec (.identityFlitRx r rec_) s = .next t ∧ only t ∧ (t.port r).far = some far ∧
        (en = false → (t.port r).state = 3 ∧ (t.port r).step = 4) ∧
        (en = true → want = far ∨ p.forceUp = true → (t.port r).step = 5 ∧ (t.port r).advertised = [512, 512, 256, 32]) ∧
        (en = true → want ≠ far → p.forceUp = false → (t.port r).state = 4 ∧ (t.port r).step = 4 ∧ t.fab.event.getLsbD 0 = true ∧
          Posted s t 0x8008 0xFFFF (toBe 1 r ++ toBe 1 4 ++ toBe 1 p.width ++ toBe 1 4 ++ toBe 4 0))) ∧
    (∀ rec_, p.step = 3 → s.fab.plan = none →
      ∃ t, exec (.identityFlitRx r rec_) s = .next t ∧ only t ∧ (t.port r).state = 3 ∧ (t.port r).step = 4 ∧
        (t.port r).far = some (Ident.ofBytes rec_)) ∧
    (∀ cr, p.step = 5 → cr.length = 4 →
      ∃ t, exec (.creditInitDone r cr) s = .next t ∧ only t ∧
        t.port r = { p with state := 5, step := 6, stepSince := s.now, credits := cr, lastRx := s.now } ∧
        Posted s t 0x8008 0xFFFF (toBe 1 r ++ toBe 1 5 ++ toBe 1 p.width ++ toBe 1 3 ++ toBe 4 0)) ∧
    (∀ limit, (p.step, limit) ∈ [(1, ms 200), (2, ms 1), (3, ms 1), (5, us 10)] → p.stepSince + limit < s.now →
      ∃ t, exec (.trainStepTimeout r) s = .next t ∧ only t ∧ (t.port r).step = 0 ∧ (t.port r).state = 0 ∧ (t.port r).stepSince = s.now) ∧
    (p.step = 0 → p.stepSince + 1000000000 ≤ s.now →
      ∃ t, exec (.trainingRestart r) s = .next t ∧ only t ∧ (t.port r).step = 1 ∧ (t.port r).state = 1)) ∧
  ((∀ (s : State) (r : Nat) (f : Flit), r < 8 → s.portsRun = true → (s.port r).state = 5 → (s.port r).draining ≠ none →
    (s.port r).disable = true → f.good = true → f.ftype = 0 ∨ f.ftype = 3 → f.nak = false → dropAcked (s.port r).unacked f.ack = [] →
    ∃ t, exec (.flitReceive r f) s = .next t ∧ (∀ q, q ≠ r → t.port q = s.port q) ∧ (t.port r).state = 7 ∧ (t.port r).width = 0 ∧
      (t.port r).draining = none ∧ Posted s t 0x8008 0xFFFF (toBe 1 r ++ toBe 1 7 ++ toBe 1 0 ++ toBe 1 2 ++ toBe 4 0)) ∧
  ∀ (s : State) (r : Nat), r < 8 → s.portsRun = true → (s.port r).state = 5 → (s.port r).draining = none →
    let p := s.port r
    let others (t : State) : Prop := ∀ q, q ≠ r → t.port q = s.port q
    let idle := p.egress = [] ∧ ∀ c, p.stream c = []
    let heard (f : Flit) : FabPort := { p with
      lastRx := s.now, corrected := satAdd 32 p.corrected f.corrected, uncorrected := satAdd 16 p.uncorrected f.uncorrected }
    let back (f : Flit) : FabPort := { heard f with
      unacked := (dropAcked p.unacked f.ack).map fun x => if f.nak then { x with replays := x.replays + 1 } else x
      replays := if f.nak then satAdd 16 p.replays (dropAcked p.unacked f.ack).length else p.replays
      credits := p.credits.set f.creditClass (p.credit f.creditClass + f.credits) }
    (∀ f : Flit, f.good = true → f.ftype = 1 →
      (f.seq = p.rxNext → idle →
        let b := p.rxStream.getD f.cls [] ++ f.body
        let msgs := takeMsgs r (b.length / 32 + 1) b
        ∃ u, exec (.flitReceive r f) s = .next (msgs.1.foldl (fun s x => s.takeMsg x.1 x.2) u) ∧ others u ∧
          u.port r = { back f with rxNext := p.rxNext + 1, nakOwed := false, rxStream := p.rxStream.set f.cls msgs.2 } ∧
          u.out.head? = some (.flit r ((u.port r).control f.cls 1)) ∧ u.ctxs = s.ctxs ∧ u.stns = s.stns) ∧
      (f.seq ≠ p.rxNext → ∃ t, exec (.flitReceive r f) s = .next t ∧ others t ∧ t.port r = heard f ∧ t.out = s.out)) ∧
    (∀ f : Flit, f.good = true → f.ftype = 0 ∨ f.ftype = 3 → idle →
      ∃ t, exec (.flitReceive r f) s = .next t ∧ others t ∧ t.port r = back f ∧ t.ctxs = s.ctxs ∧ t.stns = s.stns ∧
        (f.nak = false → t.out = s.out)) ∧
    (∀ f : Flit, f.good = false →
      ∃ t, exec (.flitReceive r f) s = .next t ∧ others t ∧ t.port r = { heard f with nakOwed := true } ∧
        t.out = .flit r ((t.port r).control 0 0) :: s.out) ∧
    (∀ (q : FabPort) cls n, cls < 4 → n < 256 →
      let w : Flit := ⟨q.control cls n, 0, 0⟩
      w.good = true ∧ w.ftype = 3 ∧ w.ack = q.rxNext - 1 ∧ w.nak = q.nakOwed ∧ w.creditClass = cls ∧ w.credits = n) ∧
    (∀ (lane : BitVec 3) cw, p.failed.getLsbD lane.toNat = false → p.disable = false → 2 ≤ p.step →
      let failed := p.failed ||| BitVec.ofNat 8 (2 ^ lane.toNat)
      let l := carryLanes failed
      l ≠ 0 → l ≠ p.lanes →
      ∃ t, exec (.laneFail r lane cw) s = .next t ∧ others t ∧ (t.port r).failed = failed ∧ (t.port r).lanes = l ∧
        (t.port r).width = 4 ∧ (t.port r).state = 5 ∧ (t.port r).degradingTo ≤ s.now + 20000 ∧ t.fab.event.getLsbD 2 = true ∧
        Posted s t 0x8008 0xFFFF (toBe 1 r ++ toBe 1 5 ++ toBe 1 4 ++ toBe 1 1 ++ toBe 4 0)) ∧
    (∀ i, (i = .portDown r ∧ (p.bothHalves = true ∨ ∃ f ∈ p.unacked, 16 ≤ f.replays)) ∨ (i = .farEndSilent r ∧ p.lastRx + 100000 ≤ s.now) →
      ∃ t, exec i s = .next t ∧ others t ∧ (t.port r).state = 1 ∧ (t.port r).step = 1 ∧ (t.port r).egress = [] ∧
        (t.port r).unacked = [] ∧ t.fab.event.getLsbD 1 = true ∧
        Posted s t 0x8008 0xFFFF (toBe 1 r ++ toBe 1 0 ++ toBe 1 0 ++ toBe 1 2 ++ toBe 4 0)))

/-- SESSION_OPEN and ENROL (R414-R416), SESSION_CLOSE (R335), EVENT_ACK, EVENT_RETRANSMIT (R336), FW_CLAIM_TIMEOUT (R343). BATON_TAKE, BATON_RENEW, BATON_RELEASE, BATON_EXPIRE (R338) and BATON_BREAK (R341). -/
def Obligations.SessionsAndTheBaton : Prop :=
  (∀ (s : State) (p q : Pkt) (k : Slot),
    (∀ (r : OpenReq) (i : Instr) (key : Bytes), s.opens p q k r = true → s.sec.atPriv = some key →
      (i = .sessionOpen p ∧ r.enrol = false) ∨ (i = .enrol p ∧ r.enrol = true) →
      let priv := toBe 32 (Config.freshKey s.free).toNat
      let n := (s.binding k).lastSession + 1
      let eph := x25519 priv x25519Base
      let ks := sessionKeys priv r.ctrlEph (pktBytes q ++ q.trailer ++ toBe 4 n.toNat ++ eph)
      ∃ t, exec i s = .next t ∧
        (if x25519 priv r.ctrlEph = List.replicate 32 0 then
          Replied s t q 0x0105 8 [] ∧ t.session k = s.session k ∧ t.binding k = s.binding k
        else
          Replied s t q 0 0 (toBe 4 n.toNat ++ toBe 4 0 ++ eph ++ edSign key ks.1) ∧
          t.session k = { open_ := true, number := n, cmdKey := ks.2.1, replyKey := ks.2.2, lastAddr := q.srcAddr, lastPort := q.srcPort } ∧
          t.binding (slotOther k) = s.binding (slotOther k) ∧
          t.binding k = if r.enrol then
              { enrolled := true, ipv4 := r.ipv4, key := BitVec.ofNat 256 (beNat r.newKey), addr := BitVec.ofNat 128 r.newAddr, lastSession := n }
            else { s.binding k with lastSession := n })) ∧
    (s.takes p q k = true → p.opcode = 0x11 → q.params = [] →
      ∃ t, exec (.sessionClose p) s = .next t ∧ Replied s t q 0 0 [] ∧ t.session k = {} ∧
        t.cmd.baton = if s.cmd.baton = some k then none else s.cmd.baton) ∧
    (s.takes p q k = true → p.opcode = 0x12 → q.params.length = 8 → zeroAt q.params 4 4 = true →
      ∃ t, exec (.eventAck p) s = .next t ∧ Replied s t q 0 0 [] ∧ OnlyAnswered s t ∧
        (t.session k).events = (s.session k).events.filter fun e => beAt q.params 0 4 < e.num.toNat) ∧
    (∃ t, exec .fwClaimTimeout s = .next t ∧ OnlyAnswered s t ∧
      (∀ x ∈ s.cmd.waiting, x.1 + 100000000 ≤ s.now → Replied s t x.2 0x0F01 0 [] ∧ t.cmd.event.getLsbD 5 = true) ∧
      t.cmd.waiting = s.cmd.waiting.filter fun x => s.now < x.1 + 100000000) ∧
    (∀ e rest, s.alive = true → (s.session k).open_ = true → (s.session k).events = e :: rest → (s.session k).sentAt + 10000000 ≤ s.now →
      ∃ t, exec (.eventRetransmit k) s = .next t ∧ (∃ tr, t.out = .event k e tr :: s.out) ∧
        t.session k = { s.session k with sentAt := s.now } ∧ OnlyAnswered s t)) ∧
  (∀ (s : State),
    (∀ (p q : Pkt) (k : Slot), s.takes p q k = true → q.params = [] →
      let g := s.cmd.batonGen
      let held (t : State) (gen : BitVec 32) : Prop :=
        t.cmd.baton = some k ∧ t.cmd.batonEnd = s.now + ms s.cmd.leaseMs ∧ t.cmd.batonGen = gen ∧ OnlyAnswered s t ∧
          Replied s t q 0 0 (toBe 4 gen.toNat ++ toBe 4 s.cmd.leaseMs)
      let refused (t : State) (st : BitVec 16) : Prop :=
        t.cmd.baton = s.cmd.baton ∧ t.cmd.batonEnd = s.cmd.batonEnd ∧ t.cmd.batonGen = g ∧ OnlyAnswered s t ∧ Replied s t q st 0 []
      (p.opcode = 0x13 → ∃ t, exec (.batonTake p) s = .next t ∧
        (s.cmd.baton = none → held t (g + 1)) ∧ (s.cmd.baton = some k → held t g) ∧
        (s.cmd.baton = some (slotOther k) → refused t 0x0304)) ∧
      (p.opcode = 0x14 → ∃ t, exec (.batonRenew p) s = .next t ∧
        (s.cmd.baton = some k → held t g) ∧ (s.cmd.baton ≠ some k → refused t 0x0303)) ∧
      (p.opcode = 0x15 → ∃ t, exec (.batonRelease p) s = .next t ∧
        (s.cmd.baton = some k → t.cmd.baton = none ∧ t.cmd.batonGen = g ∧ OnlyAnswered s t ∧ Replied s t q 0 0 []) ∧
        (s.cmd.baton ≠ some k → refused t 0x0303)) ∧
      (p.opcode = 0x05 → ∃ t, exec (.batonBreak p) s = .next t ∧
        (s.cmd.baton = some (slotOther k) → s.cmd.batonEnd ≤ s.now → (∀ r, .batonRenew r ∉ s.pending) → held t (g + 1) ∧ t.cmd.event.getLsbD 2 = true ∧
          Posted s t 0x8009 0xFFFF (toBe 1 2 ++ toBe 1 (slotCode (slotOther k)).toNat ++ toBe 2 0 ++ toBe 4 (g + 1).toNat)) ∧
        (s.cmd.baton = some (slotOther k) → s.now < s.cmd.batonEnd → refused t 0x0304) ∧
        (∀ r v, s.cmd.baton = some (slotOther k) → 0 < s.cmd.leaseMs → .batonRenew r ∈ s.pending → s.takes r v (slotOther k) = true →
          r.opcode = 0x14 → v.params = [] → refused t 0x0304) ∧
        (s.cmd.baton = none ∨ s.cmd.baton = some k → refused t 0x0303))) ∧
    (∀ k, s.cmd.baton = some k → s.cmd.batonEnd ≤ s.now → s.cmd.batonReported = false →
      ∃ t, exec .batonExpire s = .next t ∧ t.cmd.baton = some k ∧ t.cmd.batonReported = true ∧ t.cmd.event.getLsbD 1 = true ∧
        OnlyAnswered s t ∧
        Posted s t 0x8009 0xFFFF (toBe 1 1 ++ toBe 1 (slotCode k).toNat ++ toBe 2 0 ++ toBe 4 s.cmd.batonGen.toNat)))

/-- STATUS_MIN, RESET, HALT, ZEROIZE, ENVELOPE_DROP (R341-R344, R378), ZEROIZE_COMPLETE (R431), the warm reset (R437-R440). GATE_MODE
0x03 after a RESET of a hot package is the model's choice (log entry 25), and that the commands that wait are those of one cycle is
log entry 47. -/
def Obligations.TheHardwarePath : Prop :=
  ∀ (s : State),
    (∀ (p q : Pkt) (k : Slot), s.takes p q k = true →
      (p.opcode = 0x01 → q.params = [] →
        let v := Config.freshWord s.free
        ∃ t, exec (.statusMin p) s = .next t ∧ t.cmd.challenges.head? = some ⟨v, s.now, false⟩ ∧
          { t with cmd := s.cmd, host := s.host, tally := s.tally, out := s.out, free := s.free } = s ∧
          Replied s t q 0 0 (toBe 1 s.mode ++ toBe 1 0 ++ toBe 2 0x4200 ++ toBe 8 s.gate.fw.toNat ++ toBe 8 Config.serial.toNat ++
            toBe 8 s.uptimeUs ++ toBe 8 s.batonReg ++ toBe 8 v.toNat ++ toBe 4 (b2n s.fwResponsive) ++ toBe 4 0)) ∧
      (p.opcode = 0x02 → q.params = [] → s.sec.zeroizing = false →
        ∃ t, exec (.reset p) s = .next t ∧ Replied s t q 0 0 [] ∧ (∀ c, t.ctx c = {}) ∧ (∀ j, t.session j = {}) ∧ t.now = s.now ∧
          t.bring.romDone = false ∧ t.bring.diesOn = false ∧ t.bring.warm = true ∧ t.bring.zeroPending = true ∧
          t.gov.envelope = s.nv.fallbackW ∧ (∀ i < 1024, (t.stn i).failed = (s.stn i).failed) ∧
          t.mode = if s.above90 || s.bring.hot then 3 else 0) ∧
      (p.opcode = 0x03 → q.params = [] →
        ∃ t, exec (.halt p) s = .next t ∧ Replied s t q 0 0 [] ∧ (∀ c < 128, (t.ctx c).state = .free) ∧ (∀ j, t.session j = {}) ∧
          t.mode = 3 ∧ ∀ r ∈ s.upPorts, Sent s t r 0x30 ⟨0, BitVec.ofNat 8 s.fabricId, 0, 0, 0, 0, 0, 0,
            toBe 8 Config.serial.toNat ++ toBe 1 3 ++ toBe 7 0, 0, 0⟩) ∧
      (p.opcode = 0x04 → q.params.length = 8 → beAt q.params 0 4 = 0x5A45524F → zeroAt q.params 4 4 = true →
        ∃ t, exec (.zeroize p) s = .next t ∧ Replied s t q 0 0 [] ∧ (∀ c < 128, (t.ctx c).state = .free) ∧ (∀ j, t.session j = {}) ∧
          t.mode = 3 ∧ t.sec.zeroizing = true ∧ t.sec.atPriv = none ∧ (∀ n < 8, (t.part n).key = 0) ∧ t.cst.split = []) ∧
      (∀ g v, p.opcode = 0x06 → q.params = [] → .envelopeGrant g ∈ s.pending → s.takes g v (slotOther k) = true → g.opcode = 0x70 →
        v.params.length = 16 → zeroAt v.params 12 4 = true → 2400 ≤ beAt v.params 0 4 → beAt v.params 0 4 ≤ 4000 →
        beAt v.params 4 4 = 0 → beAt v.params 8 4 = 0 →
        ∃ t, exec (.envelopeDrop p) s = .next t ∧ OnlyAnswered s { t with gov := s.gov } ∧ t.out = s.out ∧
          t.gov = { s.gov with droppedAt := some s.now, dropWaits := s.gov.dropWaits ++ [q] }) ∧
      (p.opcode = 0x06 → q.params = [] → (∀ g, .envelopeGrant g ∉ s.pending) →
        let w := s.nv.fallbackW
        ∃ t, exec (.envelopeDrop p) s = .next t ∧ Replied s t q 0 0 (toBe 4 w ++ toBe 4 0) ∧ t.gov.envelope = w ∧ t.gov.source = 3 ∧
          t.gov.leaseEnd = none ∧ t.gov.event.getLsbD 1 = true ∧ t.ctxs = s.ctxs ∧ t.stns = s.stns ∧
          Posted s t 0x8010 0xFFFF (toBe 1 2 ++ toBe 1 0 ++ toBe 1 0 ++ toBe 1 0 ++ toBe 4 w ++ toBe 4 0 ++ toBe 4 0))) ∧
    (s.sec.zeroizing = true → s.bring.powered = true →
      ∃ t, exec .zeroizeComplete s = .next t ∧ t.mode = 4 ∧ t.sec.zeroizing = false ∧
        (∀ k, t.binding k = { lastSession := (s.binding k).lastSession }) ∧ t.nv.net = {} ∧ t.nv.layout = 1 ∧ t.nv.fallbackW = 2400 ∧
        t.nv.policy = {} ∧ t.nv.faults = [] ∧ t.cst.hbm = [] ∧ t.images = [] ∧ t.pages = [] ∧ t.nv.revoked = s.nv.revoked ∧
        t.nv.rollback = s.nv.rollback)

/-- REG_READ and REG_WRITE (R345), and the W1C, RW and RW-B registers (R10, R11). Which command waits for which where a FW_UPDATE goes
on is the model's reading (log entry 47). -/
def Obligations.RegistersReadAndWritten : Prop :=
  (∀ (u : State) (k : Slot) (v : Nat), v < 2 ^ 64 →
    let clears (w : Nat) (old new : BitVec w) (f : Fresh) : Prop :=
      ∀ b < w, new.getLsbD b = (old.getLsbD b && (!v.testBit b || (f.now u.now).testBit b))
    let w1c (off : Nat) (w : Nat) (reg : State → BitVec w) (f : State → Fresh) (keep : State → State) : Prop :=
      u.regRead off = some (reg u).toNat ∧
        ∃ t, u.regWrite k off v = .ok t ∧ keep t = u ∧ t.regRead off = some (reg t).toNat ∧ clears w (reg u) (reg t) (f u)
    let holds (baton : Bool) (off val : Nat) (keep : State → State) : Prop :=
      if baton = true ∧ u.hasLease k = false then u.regWrite k off v = .error 0x0203
      else ∃ t, u.regWrite k off v = .ok t ∧ t.regRead off = some val ∧ keep t = u
    w1c 0x100038 _ (·.cmd.event) (·.cmd.fresh) (fun t => { t with cmd := { t.cmd with event := u.cmd.event } }) ∧
    w1c 0x200028 _ (·.gov.event) (·.gov.fresh) (fun t => { t with gov := { t.gov with event := u.gov.event } }) ∧
    w1c 0x300010 _ (·.sec.event) (·.sec.fresh) (fun t => { t with sec := { t.sec with event := u.sec.event } }) ∧
    w1c 0x400010 _ (·.sched.event) (·.sched.fresh) (fun t => { t with sched := { t.sched with event := u.sched.event } }) ∧
    w1c 0x500010 _ (·.tally.event) (·.tally.fresh) (fun t => { t with tally := { t.tally with event := u.tally.event } }) ∧
    w1c 0x600010 _ (·.fab.event) (·.fab.fresh) (fun t => { t with fab := { t.fab with event := u.fab.event } }) ∧
    w1c 0x700058 _ (·.host.event) (·.host.fresh) (fun t => { t with host := { t.host with event := u.host.event } }) ∧
    w1c 0x800008 _ (·.kvw.event) (·.kvw.fresh) (fun t => { t with kvw := { t.kvw with event := u.kvw.event } }) ∧
    w1c 0x900008 _ (·.pfx.event) (·.pfx.fresh) (fun t => { t with pfx := { t.pfx with event := u.pfx.event } }) ∧
    w1c 0xA00008 _ (·.moe.event) (·.moe.fresh) (fun t => { t with moe := { t.moe with event := u.moe.event } }) ∧
    w1c 0xB00008 _ (·.cst.event) (·.cst.fresh) (fun t => { t with cst := { t.cst with event := u.cst.event } }) ∧
    (∀ n < 32, w1c (0xC00030 + 0x10000 * n) _ (fun t => (t.stk n).event) (fun t => (t.stk n).fresh) (fun t => { t with stks := u.stks }) ∧
      ∀ t, u.regWrite k (0xC00030 + 0x10000 * n) v = .ok t →
        (∀ m, m ≠ n → t.stk m = u.stk m) ∧ { t.stk n with event := (u.stk n).event } = u.stk n) ∧
    (∀ i < 1024, w1c (0x1000028 + 0x10000 * i) _ (fun t => (t.stn i).fault) (fun t => (t.stn i).fresh) (fun t => { t with stns := u.stns }) ∧
      ∀ t, u.regWrite k (0x1000028 + 0x10000 * i) v = .ok t →
        (∀ j, j ≠ i → t.stn j = u.stn j) ∧ { t.stn i with fault := (u.stn i).fault } = u.stn i) ∧
    (∀ i < 4, ∃ t, u.regWrite k (0x600200 + 8 * i) v = .ok t ∧ { t with fab := { t.fab with departed := u.fab.departed } } = u ∧
      ∀ b < 256, t.fab.departed.getLsbD b = (u.fab.departed.getLsbD b &&
        !(decide (b / 64 = i) && v.testBit (b % 64) && !(u.fab.departNew.now u.now).testBit b))) ∧
    holds false 0x000038 v (fun t => { t with gate := { t.gate with scratch := u.gate.scratch } }) ∧
    holds false 0x300028 (u.alogHead % 256 * 256 + v % 256) (fun t => { t with sec := { t.sec with alogIndex := u.sec.alogIndex } }) ∧
    (if peekOk (BitVec.ofNat 64 v)
      then holds false 0x500040 (v / 2 ^ 63 * 2 ^ 63 + v / 2 ^ 32 % 2 ^ 20 * 2 ^ 32 + v % 256)
        (fun t => { t with tally := { t.tally with peek := u.tally.peek } })
      else u.regWrite k 0x500040 v = .error 0x0107) ∧
    holds true 0x100010 (clamp 100 60000 (v % 2 ^ 16)) (fun t => { t with cmd := { t.cmd with leaseMs := u.cmd.leaseMs } }) ∧
    holds true 0x200030 (v % 256) (fun t => { t with gov := { t.gov with alertMask := u.gov.alertMask } }) ∧
    holds true 0x400018 (clamp 100 1000 (v % 2 ^ 16)) (fun t => { t with sched := { t.sched with marginPct := u.sched.marginPct } }) ∧
    (u.tally.stream = none →
      holds true 0x500030 (clamp 256 4096 (v % 2 ^ 13) / 4 * 4) (fun t => { t with tally := { t.tally with ringKib := u.tally.ringKib } })) ∧
    holds true 0x600018 (clamp 100 60000 (v / 2 ^ 32 % 2 ^ 16) * 2 ^ 32 + clamp 10 10000 (v % 2 ^ 32))
      (fun t => { t with fab := { t.fab with timeoutUs := u.fab.timeoutUs, holdMs := u.fab.holdMs } }) ∧
    holds true 0xA00010 (v % 2 ^ 48) (fun t => { t with moe := { t.moe with
      mergeNs := u.moe.mergeNs, threshold := u.moe.threshold, hysteresis := u.moe.hysteresis } }) ∧
    holds true 0xB00028 (v / 2 ^ 32 % 2 * 2 ^ 32 + clamp 60 86400 (v % 2 ^ 32)) (fun t => { t with cst := { t.cst with
      scrubOn := u.cst.scrubOn, scrubS := u.cst.scrubS, scrubPos := u.cst.scrubPos, scrubFrom := u.cst.scrubFrom } }) ∧
    (∀ p < 8, if u.hasPart p
      then holds true (0x401000 + 0x40 * p)
        (clamp 1 10000 (v / 2 ^ 40 % 2 ^ 16) * 2 ^ 40 + clamp 1 1000 (v / 2 ^ 30 % 2 ^ 10) * 2 ^ 30 + clamp 100 1000000 (v % 2 ^ 30))
        (fun t => { t with parts := u.parts }) ∧
        ∀ t, u.regWrite k (0x401000 + 0x40 * p) v = .ok t →
          (∀ q, q ≠ p → t.part q = u.part q) ∧ { t.part p with cfg := (u.part p).cfg } = u.part p
      else u.regWrite k (0x401000 + 0x40 * p) v = .error 0x0107)) ∧
  ∀ (s : State) (p q : Pkt) (k : Slot), s.takes p q k = true →
    (p.opcode = 0x20 → q.params.length = 16 → zeroAt q.params 10 6 = true → 1 ≤ beAt q.params 8 2 → beAt q.params 8 2 ≤ 64 →
      let off := beAt q.params 0 8
      let n := beAt q.params 8 2
      ∃ t, exec (.regRead p) s = .next t ∧ OnlyAnswered s t ∧
        ((∀ i < n, (s.regRead (off + 8 * i)).isSome = true) →
          Replied s t q 0 0 ((List.range n).flatMap fun i => toBe 8 (((s.took p k).regRead (off + 8 * i)).getD 0))) ∧
        (∀ i < n, s.regRead (off + 8 * i) = none → (∀ j < i, (s.regRead (off + 8 * j)).isSome = true) →
          Replied s t q 0x0107 (BitVec.ofNat 32 i) [])) ∧
    (p.opcode = 0x21 → q.params.length = 8 + 16 * beAt q.params 0 2 → 1 ≤ beAt q.params 0 2 → beAt q.params 0 2 ≤ 64 →
      zeroAt q.params 2 6 = true →
      let writes := (List.range (beAt q.params 0 2)).map fun i => (beAt q.params (8 + 16 * i) 8, beAt q.params (16 + 16 * i) 8)
      let run (l : List (Nat × Nat)) : RegOut := l.foldlM (fun u x => u.regWrite k x.1 x.2) (s.took p k)
      (s.batonBusy = true → (s.took p k).writesBaton q k = true →
        exec (.regWrite p) s = .next ((s.took p k).waitBaton q k)) ∧
      (s.batonBusy = false ∨ (s.took p k).writesBaton q k = false → ∃ t, exec (.regWrite p) s = .next t ∧
        (∀ w, run writes = .ok w → OnlyAnswered w t ∧ Replied s t q 0 0 []) ∧
        (∀ i w x e, run (writes.take i) = .ok w → writes[i]? = some x → w.regWrite k x.1 x.2 = .error e →
          authStatus e = false → e ≠ 0 → OnlyAnswered w t ∧ Replied s t q e (BitVec.ofNat 32 i) [])))

/-- The writes to STN_CTRL (R63, R463), HB_CTRL (R198), CS_SCRUB, HB_SCRUB (R475), FB_PORT_CTRL (R317) and FB_REACH (R303). -/
def Obligations.StationAndStoreRegisters : Prop :=
  ∀ (s : State) (p : Pkt) (k : Slot) (o v : Nat), s.writes p k o v = true →
    let does (x : Instr) (st : BitVec 16) (P : State → Prop) : Prop := ∃ t, exec x s = .next t ∧
      if s.hasLease k then Replied s t p st 0 [] ∧ P t else Replied s t p 0x0203 0 [] ∧ OnlyAnswered s t
    (∀ i < 1024, o = 0x1000030 + 0x10000 * i →
      ∀ x, (x = .clrMin p ∧ bitOf v 1 = true) ∨ (x = .markFailed p ∧ bitOf v 0 = true) →
      does x 0 fun t => (bitOf v 1 = true → (t.stn i).island.minWindow = 0xFFFF) ∧
        (bitOf v 0 = true → (s.stn i).failed = false →
          (t.stn i).markFailed = true ∧ (s.bring.diesOn = true → (t.stn i).failed = true)) ∧
        (bitOf v 0 = true → (s.stn i).failed = true →
          (t.stn i).markFailed = (s.stn i).markFailed ∧ (t.stn i).failed = true) ∧
        ∀ j, j ≠ i → (t.stn j).failed = (s.stn j).failed) ∧
    (∀ n < 32, o = 0xC00038 + 0x10000 * n → bitOf v 8 = true →
      does (.remove p) 0 fun t =>
        (t.stk n).channel = (if (s.stk n).live.getLsbD (2 * (v % 32)) || (s.stk n).live.getLsbD (2 * (v % 32) + 1)
          then BitVec.ofNat 5 v else (s.stk n).channel) ∧
        (∀ b < 64, (t.stk n).live.getLsbD b = ((s.stk n).live.getLsbD b && b / 2 != v % 32)) ∧
        ∀ m, m ≠ n → (t.stk m).live = (s.stk m).live) ∧
    (o = 0xB00028 → does (.csScrub p) 0 fun t =>
      { t with cmd := s.cmd, host := s.host, tally := s.tally, out := s.out, cst := s.cst } = s ∧
      t.cst = { s.cst with scrubOn := bitOf v 32, scrubS := clamp 60 86400 (v % 2 ^ 32),
                           scrubPos := if bitOf v 32 then s.cst.scrubPos else 0
                           scrubFrom := if bitOf v 32 then s.cst.scrubFrom else none }) ∧
    (∀ n < 32, o = 0xC00028 + 0x10000 * n → does (.hbScrub p) 0 fun t =>
      { t with cmd := s.cmd, host := s.host, tally := s.tally, out := s.out, stks := s.stks } = s ∧
      t.stk n = { s.stk n with scrubOn := bitOf v 32, scrubH := clamp 1 168 (v % 2 ^ 32),
                               scrubPos := if bitOf v 32 then (s.stk n).scrubPos else 0
                               scrubFrom := if bitOf v 32 then (s.stk n).scrubFrom else none } ∧
      ∀ m, m ≠ n → t.stk m = s.stk m) ∧
    (∀ r < 8, o = 0x601020 + 0x40 * r →
      let row (x : Instr) : Prop := (x = .retrain p ∧ bitOf v 2 = true) ∨ (x = .forceUp p ∧ bitOf v 1 = true) ∨
        (x = .disable p ∧ bitOf v 0 = true)
      let others (t : State) : Prop := (∀ q, q ≠ r → t.port q = s.port q) ∧ t.ctxs = s.ctxs ∧ t.stns = s.stns
      ∀ x, row x →
      (bitOf v 0 = true → bitOf v 1 = true → does x 0x0105 fun t => OnlyAnswered s t) ∧
      (bitOf v 0 = true → bitOf v 1 = false → does x 0 fun t => others t ∧ (t.port r).disable = true ∧ (t.port r).forceUp = false ∧
        (bitOf v 2 = true → (t.port r).failed = 0) ∧
        ((s.port r).disable = false → (s.port r).draining = none →
          ((s.port r).unacked = [] → (t.port r).state = 7 ∧ (t.port r).width = 0 ∧ (t.port r).egress = [] ∧ (t.port r).unacked = [] ∧
            Posted s t 0x8008 0xFFFF (toBe 1 r ++ toBe 1 7 ++ toBe 1 0 ++ toBe 1 2 ++ toBe 4 0)) ∧
          ((s.port r).unacked ≠ [] → t.portUp r = false ∧ (t.port r).state = (s.port r).state ∧
            (t.port r).unacked = (s.port r).unacked ∧ (t.port r).draining = some s.now)) ∧
        ((s.port r).draining ≠ none → (t.port r).draining = (s.port r).draining)) ∧
      (bitOf v 0 = false → bitOf v 2 = true → does x 0 fun t => others t ∧ (t.port r).disable = false ∧ (t.port r).failed = 0 ∧
        (t.port r).forceUp = bitOf v 1 ∧
        ((s.port r).draining = none → (t.port r).state = 1 ∧ (t.port r).step = 1 ∧ (t.port r).stepSince = s.now) ∧
        ((s.port r).draining ≠ none → (t.port r).draining = (s.port r).draining ∧ (t.port r).unacked = (s.port r).unacked)) ∧
      (bitOf v 0 = false → bitOf v 1 = true → bitOf v 2 = false → does x 0 fun t => others t ∧ (t.port r).forceUp = true ∧
        ((s.port r).disable = false → (s.port r).forceUp = false → (s.port r).state = 4 → (t.port r).step = 5) ∧
        ((s.port r).disable = true → (s.port r).draining = none → (t.port r).step = 1))) ∧
    (∀ i < 32, o = 0x600100 + 8 * i → does (.fbReach p) 0 fun t =>
      (∀ j < 8, t.reach (8 * i + j) = BitVec.ofNat 8 (v / 2 ^ (8 * j))) ∧ (∀ pkg, pkg / 8 ≠ i → t.reach pkg = s.reach pkg) ∧
      t.ctxs = s.ctxs ∧ t.stns = s.stns ∧ ∀ r, t.port r = s.port r)

/-- The writes to TL_CTRL, TL_RING and the selections (R453-R462), PX_WAYS and PX_PAGES (R249), GV_CTRL and GV_EVENT (R404). -/
def Obligations.TallyLedgerAndPowerRegisters : Prop :=
  ∀ (s : State) (p : Pkt) (k : Slot) (o v : Nat), s.writes p k o v = true →
    let does (x : Instr) (st : BitVec 16) (P : State → Prop) : Prop := ∃ t, exec x s = .next t ∧ Replied s t p st 0 [] ∧ P t
    let baton (x : Instr) (st : BitVec 16) (P : State → Prop) : Prop :=
      if s.hasLease k then does x st P else does x 0x0203 (OnlyAnswered s)
    (∀ x, o = 0x500008 → (x = .freeze p ∧ bitOf v 0 = true) ∨ (x = .clear p ∧ bitOf v 1 = true) → does x 0 fun t =>
      let cut (f : BlkTally) : BlkTally := if bitOf v 1 then { f with prog := [] } else f
      (s.tally.collect = none →
        t.tally.seq = s.tally.seq + 1 ∧
        t.tally.collect = some ⟨s.tally.seq, s.now, 2 * b2n (bitOf v 0) + 4 * b2n (bitOf v 1), s.tally.selectGen⟩ ∧
        (∀ i < 1024, (t.stn i).shadow = (s.stn i).tally ∧ (t.stn i).sliceShadow = (s.stn i).slice ∧ (t.stn i).slice = cut (s.stn i).slice ∧
          (t.stn i).tally = if bitOf v 1 then { (s.stn i).tally with prog := [] } else (s.stn i).tally) ∧
        (∀ n < 32, (t.stk n).shadow = (s.stk n).tally ∧ (t.stk n).tally = cut (s.stk n).tally) ∧
        (∀ d < 16, (t.drover d).shadow = (s.drover d).tally ∧ (t.drover d).tally = cut (s.drover d).tally) ∧
        t.tally.gateShadow = s.tally.gate) ∧
      (∀ y, s.tally.collect = some y →
        (y.at_ ≠ s.now → t.stns = s.stns ∧ t.stks = s.stks ∧ t.tally.missed = satAdd 32 s.tally.missed 1 ∧
          t.tally.event.getLsbD 0 = true ∧ t.tally.collect = s.tally.collect) ∧
        (y.at_ = s.now → t.tally.seq = s.tally.seq ∧ t.tally.missed = s.tally.missed ∧
          t.tally.collect = some { y with flags := y.flags ||| (2 * b2n (bitOf v 0) + 4 * b2n (bitOf v 1)) } ∧
          ∀ i < 1024, (t.stn i).shadow = (s.stn i).shadow ∧ (t.stn i).slice = cut (s.stn i).slice))) ∧
    (o = 0x500030 →
      (s.tally.stream = none → baton (.tlRing p) 0 fun t => t.tally.ringKib = clamp 256 4096 (v % 8192) / 4 * 4) ∧
      (s.tally.stream ≠ none → baton (.tlRing p) 0x0303 (OnlyAnswered s))) ∧
    (∀ (ok : Bool) (sel : State → Word), (o, ok, sel) ∈
        ((List.range 1024).map fun i => (0x501000 + 8 * i, codesOk stnCode 8 (BitVec.ofNat 64 v), fun (t : State) => (t.stn i).sel)) ++
        ((List.range 1024).map fun i => (0x503000 + 8 * i, codesOk sliceCode 4 (BitVec.ofNat 64 v), fun (t : State) => (t.stn i).sliceSel)) ++
        ((List.range 32).map fun n => (0x505000 + 8 * n, codesOk hbmCode 8 (BitVec.ofNat 64 v), fun (t : State) => (t.stk n).sel)) ++
        ((List.range 16).map fun d => (0x505100 + 8 * d, codesOk drvCode 8 (BitVec.ofNat 64 v), fun (t : State) => (t.drover d).sel)) ++
        [(0x505180, codesOk gateCode 8 (BitVec.ofNat 64 v), fun (t : State) => t.tally.selGate0),
         (0x505188, codesOk gateCode 8 (BitVec.ofNat 64 v), fun (t : State) => t.tally.selGate1)] →
      (ok = true → does (.tlSel p) 0 fun t => t.tally.selectGen = s.tally.selectGen + 1 ∧
        sel t = if 0x503000 ≤ o ∧ o < 0x505000 then BitVec.ofNat 64 (v % 2 ^ 32) else BitVec.ofNat 64 v) ∧
      (ok = false → does (.tlSel p) 0x0107 (OnlyAnswered s))) ∧
    (∀ n < 8, (o = 0x901000 + 0x40 * n ∨ o = 0x901008 + 0x40 * n) →
      let x : Instr → Prop := fun x => (x = .pxWays p ∧ o = 0x901000 + 0x40 * n) ∨ (x = .pxPages p ∧ o = 0x901008 + 0x40 * n)
      ∀ i, x i → s.hasPart n = false → does i 0x0107 (OnlyAnswered s)) ∧
    (∀ n < 8, o = 0x901000 + 0x40 * n → s.hasPart n = true →
      let m := BitVec.ofNat 8 v
      let out (e : Nat) : Bool := ((s.part n).ways &&& ~~~ m).getLsbD (e % 8)
      let clash := (List.range 8).any (fun q => q != n && s.hasPart q && (s.part q).ways &&& m != 0) ||
        (s.ledgerOf n out).any fun e => 0 < e.2.ref
      (clash = true → baton (.pxWays p) 0x0303 (OnlyAnswered s)) ∧
      (clash = false → baton (.pxWays p) 0 fun t => (t.part n).ways = m ∧ t.ledgerOf n out = [] ∧
        ∀ q, q ≠ n → t.part q = s.part q)) ∧
    (∀ n < 8, o = 0x901008 + 0x40 * n → s.hasPart n = true →
      let w := v % 2 ^ 28
      let old := (s.part n).pages
      let fits := 65536 * (w - old) ≤ s.hbmFree n
      (old < w → ¬ fits → baton (.pxPages p) 0x0404 (OnlyAnswered s)) ∧
      (old < w → fits → baton (.pxPages p) 0 fun t => (t.part n).pages = w ∧ t.pfx = s.pfx) ∧
      (w ≤ old → s.reserveUsed n ≤ w → baton (.pxPages p) 0 fun t => (t.part n).pages = w ∧ t.pfx = s.pfx) ∧
      (w ≤ old → s.hasLease k = true → ∃ t, exec (.pxPages p) s = .next t ∧
        ((Replied s t p 0 0 [] ∧ (t.part n).pages = w ∧ t.reserveUsed n ≤ w) ∨ (Replied s t p 0x0404 0 [] ∧ OnlyAnswered s t)))) ∧
    (o = 0x200030 → baton (.gvCtrl p) 0 fun t => t.gov = { s.gov with alertMask := BitVec.ofNat 8 v } ∧
      { t with cmd := s.cmd, host := s.host, tally := s.tally, out := s.out, gov := s.gov } = s) ∧
    (o = 0x200028 → does (.gvEvent p) 0 fun t => t.gov = { s.gov with event := s.gov.event &&& ~~~ (BitVec.ofNat 64 v &&& ~~~ BitVec.ofNat 64 (s.gov.fresh.now s.now)) } ∧
      { t with cmd := s.cmd, host := s.host, tally := s.tally, out := s.out, gov := s.gov } = s ∧
      (s.saving = false → (∀ b < 8, s.gov.alertMask.getLsbD b = true → v.testBit b = true ∧ (s.gov.fresh.now s.now).testBit b = false) →
        t.alert = false))

/-- FRAME_DISCARD, ARP, NEIGHBOR_DISCOVERY, ICMP_ECHO (R318, R319), HOST_LINK_UP, HOST_LINK_DOWN (R349), PLOUTH_DISCARD (R327). -/
def Obligations.TheHostLink : Prop :=
  ∀ (s : State), s.alive = true →
    let only (t : State) : Prop := { t with host := s.host, out := s.out } = s
    (∀ f, ∃ t, exec (.frameDiscard f) s = .next t ∧ only t ∧ t.out = s.out ∧
      t.host = { s.host with rxBytes := satAdd 48 s.host.rxBytes f.bytes, dropped := satAdd 32 s.host.dropped 1,
                             fcsErrors := if f.fcsOk then s.host.fcsErrors else satAdd 32 s.host.fcsErrors 1 }) ∧
    (∀ f, s.admits f = false → ∀ i, (∃ m, i = .arp f m) ∨ (∃ m, i = .neighborDiscovery f m) ∨ (∃ v a b d, i = .icmpEcho f v a b d) →
      ∃ t, exec i s = .next t ∧ only t ∧ t.out = s.out ∧ t.host.dropped = satAdd 32 s.host.dropped 1) ∧
    (∀ f m, s.admits f = true → m.isRequest = true → s.nv.net.v4en = true → m.targetIp = s.nv.net.addr4 →
      ∃ t, exec (.arp f m) s = .next t ∧ only t ∧ t.out = .arpReply m.senderMac s.nv.net.addr4 m.senderIp :: s.out) ∧
    (∀ f a src, s.admits f = true → s.own6 a = true →
      ∃ t, exec (.neighborDiscovery f (.solicit a src)) s = .next t ∧ only t ∧
        t.out = .ndAdvert a (if src = 0 then 0xFF020000000000000000000000000001 else src) :: s.out) ∧
    (∀ f, s.admits f = true → s.nv.net.v6en = true →
      ∃ t, exec (.neighborDiscovery f .dadFailed) s = .next t ∧ only t ∧ t.host.dadFailed = true ∧
        (s.host.dadFailed = false → t.host.event.getLsbD 2 = true) ∧
        (s.nv.net.addr6 ≠ linkLocal → t.own6 s.nv.net.addr6 = false)) ∧
    (∀ f v6 src dst body, s.admits f = true →
      (v6 = true ∧ s.own6 dst = true) ∨ (v6 = false ∧ v4Mapped dst = true ∧ s.own4 (dst.setWidth 32) = true) →
      ∃ t, exec (.icmpEcho f v6 src dst body) s = .next t ∧ only t ∧ t.out = .echoReply v6 dst src body :: s.out) ∧
    (s.host.link ≠ 2 → ∃ t, exec .hostLinkUp s = .next t ∧ only t ∧
      t.out = (if s.nv.net.v6en && !s.host.dadFailed then [.dadProbe s.nv.net.addr6] else []) ++ .dadProbe linkLocal :: s.out ∧ t.host.link = 2 ∧ t.host.lanes = 0xFF ∧
      t.host.event = s.host.event ||| 1 ∧ t.host.qps = s.host.qps) ∧
    (s.host.link = 2 → ∃ t, exec .hostLinkDown s = .next t ∧ only t ∧ t.out = s.out ∧ t.host.link = 0 ∧ t.host.lanes = 0 ∧
      t.host.event = s.host.event ||| 2 ∧ t.host.qps = s.host.qps) ∧
    (∀ v4 bs, bs.length < 32 ∨ beAt bs 0 4 ≠ 0x504C5448 ∨ beAt bs 6 2 % 4 ≠ 0 →
      ∃ t, exec (.plouthDiscard ⟨v4, bs⟩) s = .next t ∧ only t ∧ t.out = s.out ∧ t.host.dropped = satAdd 32 s.host.dropped 1)

/-- RDMA_WRITE, RDMA_READ, RDMA_SEND (R321-R324, R357, R46, R196). That a read of poisoned image bytes answers Remote Access Error is
the model's choice (log entry 16). -/
def Obligations.HostReadsAndWrites : Prop :=
  ∀ (s : State) (q : RdmaReq) (p : Qp) (data : Bytes) (len : Nat),
    let k := s.ctx p.ctx
    let answers (t : State) (r : Roce) : Prop := Emitted s t (.roce q.qpn q.psn r)
    (s.accepted q p data.length = true → p.kind = 1 → q.addr < 0x00F000000000 →
      ∃ t, exec (.rdmaWrite q data) s = .next t ∧ (∀ d, d ≠ p.ctx → (t.ctx d).store = (s.ctx d).store) ∧
        (k.resident = false → answers t .rnr ∧ (t.ctx p.ctx).hostAnswer = true ∧ SameStores s t) ∧
        (k.resident = true → k.hostStore true q.addr data.length = false → answers t .remoteAccess ∧ SameStores s t) ∧
        (k.resident = true → k.hostStore true q.addr data.length = true →
          BytesPut k.store (t.ctx p.ctx).store q.addr data ∧ answers t .ack ∧ PsnMoved t p data.length)) ∧
    (∀ g, s.accepted q p data.length = true → p.kind = 1 → imageWindow ≤ q.addr → s.imageOf p.ctx = some g →
      ∃ t, exec (.rdmaWrite q data) s = .next t ∧ SameStores s t ∧
        (g.open_ = true → s.holdsImage p.ctx g (q.addr - imageWindow) data.length = true → answers t .ack ∧ PsnMoved t p data.length ∧
          (1 ≤ data.length → q.addr / 4096 = (q.addr + data.length - 1) / 4096 →
            ∃ e l sl, mget [] t.cst.transit e = l ++ [.image g.part g.id (q.addr - imageWindow) data sl])) ∧
        (g.open_ = false ∨ s.holdsImage p.ctx g (q.addr - imageWindow) data.length = false →
          answers t .remoteAccess ∧ t.cst = s.cst)) ∧
    (s.accepted q p data.length = true → p.kind = 0 →
      ∃ t, exec (.rdmaWrite q data) s = .next t ∧ SameStores s t ∧
        (s.splitAccess q.addr data.length = false → answers t .remoteAccess ∧ t.cst = s.cst) ∧
        (s.splitAccess q.addr data.length = true → answers t .ack ∧ PsnMoved t p data.length ∧
          (q.addr + data.length ≤ 2 ^ 33 → BytesPut s.cst.split t.cst.split q.addr data))) ∧
    (s.accepted q p len = true → p.kind = 1 → q.addr < 0x00F000000000 →
      ∃ t, exec (.rdmaRead q len) s = .next t ∧ SameStores s t ∧
        (k.resident = false → answers t .rnr) ∧
        (k.resident = true → k.hostStore false q.addr len = false → answers t .remoteAccess) ∧
        (k.resident = true → k.hostStore false q.addr len = true →
          answers t (.data (rdBytes (s.storeSeen p.ctx) q.addr len)) ∧ PsnMoved t p len)) ∧
    (∀ g, s.accepted q p len = true → p.kind = 1 → imageWindow ≤ q.addr → s.imageOf p.ctx = some g →
      ∃ t, exec (.rdmaRead q len) s = .next t ∧ SameStores s t ∧ t.cst = s.cst ∧
        if s.holdsImage p.ctx g (q.addr - imageWindow) len && !g.poisoned (q.addr - imageWindow) len then
          answers t (.data (s.imageBytes (partOfCtx p.ctx) g.id (q.addr - imageWindow) len)) ∧ PsnMoved t p len
        else answers t .remoteAccess) ∧
    (s.accepted q p len = true → p.kind = 0 →
      ∃ t, exec (.rdmaRead q len) s = .next t ∧ SameStores s t ∧ t.cst = s.cst ∧
        if s.splitAccess q.addr len then answers t (.data (s.splitBytes q.addr len)) ∧ PsnMoved t p len
        else answers t .remoteAccess) ∧
    (s.accepted { q with rkey := p.rkey } p data.length = true → (s.host.qps.find? fun x => x.qpn == q.qpn) = some p →
      ∃ t, exec (.rdmaSend q data) s = .next t ∧
        (p.kind ≠ 1 ∨ p.recvSlots = 0 ∨ p.slotBytes < data.length →
          answers t .invalidRequest ∧ SameStores s t ∧ t.host.event.getLsbD 3 = true ∧
          ∀ x ∈ t.host.qps, x.qpn = p.qpn → x.error = true) ∧
        (p.kind = 1 → p.recvSlots ≠ 0 → data.length ≤ p.slotBytes → k.resident = false → answers t .rnr ∧ SameStores s t) ∧
        (p.kind = 1 → p.recvSlots ≠ 0 → data.length ≤ p.slotBytes → k.resident = true →
          let a := p.recvBase + p.sends % p.recvSlots * p.slotBytes
          (k.region a data.length).any (fun r => r.kind == 3) = true →
          BytesPut k.store (t.ctx p.ctx).store a data ∧ answers t .ack ∧
          (∃ x ∈ t.host.qps, x.qpn = p.qpn ∧ x.sends = p.sends + 1) ∧
          (s.counting p.ctx = true → p.recvStation < s.stnCount p.ctx → s.token p.ctx p.recvStation p.recvToken < 65535 →
            (s.arch (s.stnOfCtx p.ctx p.recvStation)).Rose (t.arch (s.stnOfCtx p.ctx p.recvStation)) p.recvToken 1))) ∧
    (s.repeats q p = true → ∀ i ∈ [Instr.rdmaWrite q data, .rdmaSend q data],
      ∃ t, exec i s = .next t ∧ answers t .ack ∧ SameStores s t ∧ t.cst = s.cst ∧ t.stns = s.stns) ∧
    (s.alive = true → s.hearsRoce q = true → q.service = .rc →
      (s.host.qps.find? fun x => x.qpn == q.qpn && x.remoteGid == q.srcGid && x.remoteQpn == q.srcQpn) = some p →
      p.error = true → ∀ i ∈ [Instr.rdmaWrite q data, .rdmaRead q len, .rdmaSend q data],
      ∃ t, exec i s = .next t ∧ answers t .nak ∧ SameStores s t ∧ t.cst = s.cst ∧ t.stns = s.stns)

/-- QP_CREATE (R345), QP_DESTROY (R475), CNP_RECEIVE, RATE_RECOVERY (R325), RDMA_COMPLETION, RDMA_RETRY_TIMEOUT (R326). -/
def Obligations.QueuePairsAndRequester : Prop :=
  ∀ (s : State),
    (∀ (p q : Pkt) (k : Slot) (kind : Nat), s.takes p q k = true → p.opcode = 0x30 → q.params.length = 48 → beAt q.params 0 1 = kind →
      beAt q.params 1 1 = b2n (v4Mapped (BitVec.ofNat 128 (beAt q.params 12 16))) →
      (∀ z ∈ [(2, 2), (4, 1), (8, 1), (47, 1)], zeroAt q.params z.1 z.2 = true) →
      (kind ≠ 1 → q.context = 0xFFFF ∧ ∀ z ∈ [(28, 8), (36, 4), (40, 4), (44, 2), (46, 1)], zeroAt q.params z.1 z.2 = true) →
      (kind = 0 → s.mode = 1 ∧ s.bring.zeroPending = false) → kind ≤ 2 →
      ∀ c, (if kind = 1 then s.ctxOfHandle q.context = some c ∧ (s.ctx c).state ≠ .tearingDown ∧ beAt q.params 46 1 ≤ 63 ∧
          (beAt q.params 36 4 = 0 ∨ (beAt q.params 44 2 < s.stnCount c ∧
            (s.ctx c).ringOk ((s.ctx c).itin.regions.length + 1) (beAt q.params 28 8) (beAt q.params 36 4) (beAt q.params 40 4) = true))
        else c = 0) →
      ∃ t, exec (.qpCreate p) s = .next t ∧
        (s.poolFull kind (if kind = 1 then partOfCtx c else 0) = true → Replied s t q 0x0406 0 [] ∧ t.host.qps = s.host.qps) ∧
        (s.poolFull kind (if kind = 1 then partOfCtx c else 0) = false →
          ∃ x, t.host.qps = s.host.qps ++ [x] ∧ 2 ≤ x.qpn ∧ (∀ y ∈ s.host.qps, y.qpn ≠ x.qpn) ∧ x.kind = kind ∧ x.slot = k ∧ x.ctx = c ∧
            x.remoteQpn = beAt q.params 4 4 ∧ x.remotePsn = beAt q.params 8 4 ∧ x.remoteGid = BitVec.ofNat 128 (beAt q.params 12 16) ∧
            x.error = false ∧ x.sends = 0 ∧ Replied s t q 0 0 (toBe 4 x.qpn ++ toBe 4 x.localPsn ++ toBe 4 x.rkey.toNat ++ toBe 4 0))) ∧
    (∀ (p q : Pkt) (k : Slot), s.takes p q k = true → p.opcode = 0x31 → q.params.length = 8 → zeroAt q.params 4 4 = true →
      ∃ t, exec (.qpDestroy p) s = .next t ∧
        ((∀ x ∈ s.host.qps, x.qpn ≠ beAt q.params 0 4) → Replied s t q 0x0105 0 [] ∧ OnlyAnswered s t) ∧
        ((∃ x ∈ s.host.qps, x.qpn = beAt q.params 0 4) → Replied s t q 0 0 [] ∧ ∀ x ∈ t.host.qps, x.qpn ≠ beAt q.params 0 4)) ∧
    (∀ p ∈ s.host.qps, s.alive = true →
      (∃ t, exec (.cnpReceive p.qpn) s = .next t ∧ { t with host := s.host } = s ∧
        (if ∀ h, p.halvedAt = some h → h + 50000 ≤ s.now
          then { p with rate := max 1000000 (p.rate / 2), halvedAt := some s.now, raisedAt := s.now } ∈ t.host.qps
          else { p with raisedAt := s.now } ∈ t.host.qps)) ∧
      (p.raisedAt + 55000 ≤ s.now → p.rate < 1600000000 →
        ∃ t, exec (.rateRecovery p.qpn) s = .next t ∧ { t with host := s.host } = s ∧
          { p with rate := min 1600000000 (p.rate + 80000000), raisedAt := s.now } ∈ t.host.qps)) ∧
    (∀ qpn data o part ce, s.alive = true → (qpn, o, part, data.length) ∈ s.host.fetches →
      (∀ f ∈ s.host.fetches, f.1 = qpn → f = (qpn, o, part, data.length)) →
      ∃ t, exec (.rdmaCompletion qpn ⟨data, ce⟩) s = .next t ∧ t.host.loads = s.host.loads ++ [⟨o, part, data⟩] ∧
        t.host.fetches = s.host.fetches.erase (qpn, o, part, data.length) ∧ t.ctxs = s.ctxs ∧
        (ce = false → t.out = s.out) ∧
        (∀ x, (s.host.qps.find? fun y => y.qpn == qpn) = some x → ce = true → (∀ h, x.cnpSentAt = some h → h + 50000 ≤ s.now) →
          Emitted s t (.cnp qpn))) ∧
    (∀ st x rest ce, s.alive = true → s.tally.stream = some st → st.stopping = false → s.tally.ring = x :: rest →
      (∀ f ∈ s.host.fetches, f.1 ≠ st.qpn) → (∀ f, s.sec.fwRead = some f → f.qpn ≠ st.qpn) →
      ∃ t, exec (.rdmaCompletion st.qpn ⟨[], ce⟩) s = .next t ∧ t.tally.ring = rest ∧ t.tally.stream = some st ∧ t.ctxs = s.ctxs) ∧
    (∀ p o part n rnr, s.alive = true → (s.host.qps.find? fun x => x.qpn == p.qpn && x.kind == 2) = some p → p.error = false →
      (p.qpn, o, part, n) ∈ s.host.fetches → (rnr = false → p.reqSentAt + 67108864 ≤ s.now) →
      ∃ t, exec (.rdmaRetryTimeout ⟨p.qpn, rnr⟩) s = .next t ∧
        let tries := if rnr then p.rnrs else p.retries
        (tries < 7 → (∃ x ∈ t.host.qps, x.qpn = p.qpn ∧ x.error = false ∧
            x.retries = p.retries + b2n !rnr ∧ x.rnrs = p.rnrs + b2n rnr) ∧ t.host.fetches = s.host.fetches ∧
          Emitted s t (.rdmaRead (beAt o.pkt.params 4 4) (beAt o.pkt.params 8 8) (BitVec.ofNat 32 (beAt o.pkt.params 16 4))
            (beAt o.pkt.params 24 8))) ∧
        (7 ≤ tries → (∀ x ∈ t.host.qps, x.qpn = p.qpn → x.error = true) ∧ t.host.event.getLsbD 3 = true ∧
          ((s.session o.slot).open_ = true → (s.session o.slot).number = o.pkt.session → Replied s t o.pkt 0x0502 0 [])))

/-- CTX_START, CTX_END, CTX_QUERY (R356), CTX_POLICY (R86), PLAN_POST (R270), BATCH_CANCEL (R278). -/
def Obligations.ContextCommands : Prop :=
  ∀ (s : State) (p q : Pkt) (k : Slot), s.takes p q k = true →
    let refuses (t : State) (st : BitVec 16) (d : BitVec 32) : Prop := Replied s t q st d [] ∧ OnlyAnswered s t
    (∀ i, (i, p.opcode, q.params.length) ∈
        [(Instr.ctxEnd p, (0x42 : BitVec 16), 0), (.planPost p, 0x45, 8), (.batchCancel p, 0x46, 0), (.ctxQuery p, 0x47, 0)] →
      (s.ctxOfHandle q.context = none → ∃ t, exec i s = .next t ∧ refuses t 0x0302 0) ∧
      (∀ c, s.ctxOfHandle q.context = some c → (s.ctx c).owed ≠ [] →
        ∃ t, exec i s = .next t ∧ t.ctx c = { s.ctx c with owed := (s.ctx c).owed ++ [⟨k, q⟩] } ∧ OnlyCtxChanged c s t ∧ t.out = s.out)) ∧
    (∀ c, s.ctxOfHandle q.context = some c → (s.ctx c).owed = [] →
      let x := s.ctx c
      let only (t : State) : Prop := OnlyCtxChanged c s t
      (p.opcode = 0x41 → q.params.length = 8 → beAt q.params 0 4 < 2 → zeroAt q.params 4 4 = true →
        ∃ t, exec (.ctxStart p) s = .next t ∧
          (x.state = .loaded → Replied s t q 0 0 [] ∧ only t ∧
            t.ctx c = { x with state := if beAt q.params 0 4 = 1 then .parked else .swapped, swapFirst := beAt q.params 0 4 == 1,
                               started := true, runnableSince := s.now }) ∧
          (x.state ≠ .loaded → refuses t 0x0302 0)) ∧
      (p.opcode = 0x42 → q.params = [] →
        ∃ t, exec (.ctxEnd p) s = .next t ∧
          (x.state = .finished → Replied s t q 0 0 (toBe 8 x.step) ∧ (t.ctx c).state = .free ∧ ∀ d, d ≠ c → t.ctx d = s.ctx d) ∧
          (x.state ≠ .finished → t.out = s.out ∧ (t.ctx c).state = .tearingDown ∧ (t.ctx c).owed = [⟨k, q⟩] ∧
            (x.state ≠ .tearingDown → (t.ctx c).teardown = some { reason := 0x0D, since := s.now }) ∧ ∀ d, d ≠ c → t.ctx d = s.ctx d)) ∧
      (p.opcode = 0x47 → q.params = [] →
        let y := x.account s.now
        let b := y.block
        ∃ t, exec (.ctxQuery p) s = .next t ∧ OnlyAnswered s t ∧
          Replied s t q 0 0 (toBe 1 y.state.code ++ toBe 1 (b2n b.isSome + 2 * b2n y.resident + 4 * b2n y.resv.isSome + 8 * b2n y.breach) ++
            toBe 1 (match b with | some z => z.cls | none => 0) ++ toBe 1 0 ++ toBe 4 y.itin.job.toNat ++ toBe 8 y.step ++
            toBe 2 y.itin.streams.length ++ toBe 1 y.itin.eighths ++ toBe 5 0 ++ toBe 8 y.itin.footprint ++ toBe 8 y.hamperBytes ++
            toBe 8 y.lifeRun ++ toBe 8 y.lifeExt)) ∧
      (p.opcode = 0x44 → q.params.length = 24 → beAt q.params 16 1 < 2 → zeroAt q.params 17 7 = true → x.state ≠ .tearingDown →
        ∃ t, exec (.ctxPolicy p) s = .next t ∧
          (beAt q.params 8 4 = x.itin.policy.detourCycles → Replied s t q 0 0 [] ∧ only t ∧
            t.ctx c = { x with newPolicy := some ⟨beAt q.params 0 2, beAt q.params 2 2, beAt q.params 4 2, beAt q.params 6 2,
              beAt q.params 8 4, beAt q.params 12 4, bitOf (beAt q.params 16 1) 0⟩ }) ∧
          (beAt q.params 8 4 ≠ x.itin.policy.detourCycles → refuses t 0x0105 8)) ∧
      (p.opcode = 0x45 → q.params.length = 8 → x.state ≠ .tearingDown → x.itin.stepPlanMode = true → ∀ sp, x.itin.stepPlan = some sp →
        let n := beAt q.params 0 8
        ∃ t, exec (.planPost p) s = .next t ∧
          (∀ l, x.planRecord sp n = some l → x.moe.planNext ≤ n → n ≤ x.moe.planNext + 1 → Replied s t q 0 0 [] ∧ only t ∧
            (t.ctx c).moe = { x.moe with planStore := (n, l) :: x.moe.planStore.filter fun y => y.1 != n }) ∧
          (x.planRecord sp n = none → Replied s t q 0x0106 0 [] ∧ t.ctxs = s.ctxs ∧
            (t.part (partOfCtx c)).postsRefused = satAdd 32 (s.part (partOfCtx c)).postsRefused 1) ∧
          (x.planRecord sp n ≠ none → n < x.moe.planNext ∨ x.moe.planNext + 1 < n → Replied s t q 0x0303 0 [] ∧ t.ctxs = s.ctxs ∧
            (t.part (partOfCtx c)).postsRefused = satAdd 32 (s.part (partOfCtx c)).postsRefused 1)) ∧
      (p.opcode = 0x46 → q.params = [] → x.state ≠ .tearingDown →
        ∃ t, exec (.batchCancel p) s = .next t ∧ Replied s t q 0 0 (toBe 2 (x.moe.epoch + 1).toNat ++ toBe 6 0) ∧
          (t.ctx c).moe.epoch = x.moe.epoch + 1 ∧ (t.ctx c).moe.cancels = BitVec.ofNat 16 (min 65535 (x.moe.cancels.toNat + 1)) ∧ (t.ctx c).moe.await = [] ∧
          (t.ctx c).moe.borrows = [] ∧ t.moe.event.getLsbD 1 = true))

/-- CTX_SCHED (R356, R361). -/
def Obligations.SchedulingCommands : Prop :=
  ∀ (s : State) (p : Pkt) (k : Slot) (c : Nat), s.takes p p k = true → p.opcode = 0x43 → p.params.length = 32 →
    s.ctxOfHandle p.context = some c → (s.ctx c).owed = [] →
    let x := s.ctx c
    let op := beAt p.params 0 1
    let clean := ∀ z ∈ schedZeros op, zeroAt p.params z.1 z.2 = true
    let refuses (i : Instr) (st : BitVec 16) (d : BitVec 32) : Prop := ∃ t, exec i s = .next t ∧ Replied s t p st d [] ∧ OnlyAnswered s t
    let sets (i : Instr) (y : Ctx) : Prop := ∃ t, exec i s = .next t ∧ Replied s t p 0 0 [] ∧ OnlyCtxChanged c s t ∧ t.ctx c = y
    let rows := [(1, Instr.ctxSchedSlice p), (2, .ctxSchedReserve p), (3, .ctxSchedUnreserve p), (4, .ctxSchedPark p), (5, .ctxSchedUnpark p),
      (6, .ctxSchedInterval p)]
    (clean → x.state = .tearingDown → ∀ i, (op, i) ∈ rows → refuses i 0x0302 0) ∧
    (clean → x.state ≠ .tearingDown →
      (op = 1 →
        let n := beAt p.params 4 4
        (n = 0 ∨ (100 ≤ n ∧ n ≤ 1000000) → sets (.ctxSchedSlice p) { x with sliceUs := n }) ∧
        (0 < n ∧ n < 100 ∨ 1000000 < n → refuses (.ctxSchedSlice p) 0x0105 4)) ∧
      (op = 2 →
        let r : Reservation := ⟨beAt p.params 8 4, beAt p.params 12 4, beAt p.params 16 4, beAt p.params 20 4, s.now⟩
        let others := ((ctxsOfPart (partOfCtx c)).filter (· != c)).filterMap fun d => (s.ctx d).resv
        let fits := x.resident = true ∧ r.periodUs ≠ 0 ∧ r.leadUs + r.lengthUs ≤ r.periodUs ∧ others.length < 4 ∧
          ∀ o ∈ others, o.periodUs = r.periodUs ∧ o.overlaps r = false
        (r.lengthUs < 100 → refuses (.ctxSchedReserve p) 0x0105 12) ∧
        (100 ≤ r.lengthUs → r.leadUs < s.fab.timeoutUs + 100 → refuses (.ctxSchedReserve p) 0x0105 20) ∧
        (100 ≤ r.lengthUs → s.fab.timeoutUs + 100 ≤ r.leadUs → fits → sets (.ctxSchedReserve p) { x with resv := some r, window := none, evict := false }) ∧
        (100 ≤ r.lengthUs → s.fab.timeoutUs + 100 ≤ r.leadUs → ¬ fits → refuses (.ctxSchedReserve p) 0x0303 0)) ∧
      (op = 3 → sets (.ctxSchedUnreserve p) { x with resv := none, window := none }) ∧
      (op = 4 →
        (x.isHeld = true ∨ x.isParked = true → refuses (.ctxSchedPark p) 0x0302 0) ∧
        (x.isHeld = false → x.isParked = false →
          if x.state ∈ [.loaded, .swapped, .ready, .finished] then sets (.ctxSchedPark p) { x with state := .parked, window := none }
          else sets (.ctxSchedPark p) { x with parkPending := true })) ∧
      (op = 5 →
        (x.isParked = false → refuses (.ctxSchedUnpark p) 0x0302 0) ∧
        (x.state = .parked → x.resident = true → sets (.ctxSchedUnpark p)
          { x with state := .ready, everReady := true, waitSince := if x.everReady then x.waitSince else s.now }) ∧
        (x.state = .parked → x.resident = false →
          sets (.ctxSchedUnpark p) { x with state := .swapped, swapFirst := false, runnableSince := s.now }) ∧
        (x.state ≠ .parked → x.under = some .parked → sets (.ctxSchedUnpark p) { x with under := none, runnableSince := s.now })) ∧
      (op = 6 →
        let n := beAt p.params 24 2
        (n = 0 → refuses (.ctxSchedInterval p) 0x0105 24) ∧ (n ≠ 0 → sets (.ctxSchedInterval p) { x with interval := n }))) ∧
    (op = 0 ∨ 6 < op → (∀ z ∈ [(1, 3), (26, 6)], zeroAt p.params z.1 z.2 = true) → refuses (.ctxSchedSlice p) 0x0105 0)

/-- PART_LAYOUT (R353), PART_KEY (R417), WIRING_PLAN (R288), JOB_TEARDOWN (R311), NET_CONFIG (R345), SERVICE_START (R442), FAULT_LOG_READ (R480). -/
def Obligations.PackageCommands : Prop :=
  ∀ (s : State) (p : Pkt) (k : Slot), s.takes p p k = true →
    let b := p.params
    let refuses (i : Instr) (st : BitVec 16) (d : BitVec 32) : Prop := ∃ t, exec i s = .next t ∧ Replied s t p st d [] ∧ OnlyAnswered s t
    let only (t : State) : Prop := { t with cmd := s.cmd, host := s.host, tally := s.tally, out := s.out, nv := s.nv } = s
    (p.opcode = 0x50 → b.length = 8 → beAt b 1 1 < 2 → zeroAt b 2 6 = true → beAt b 0 1 ∈ [1, 2, 4, 8] → s.mode = 1 ∨ s.mode = 2 →
      (beAt b 1 1 = 0 → s.loadedCtxs ≠ [] → refuses (.partLayout p) 0x0303 0) ∧
      (beAt b 1 1 = 1 ∨ s.loadedCtxs = [] →
        let g := min (2 ^ 32 - 1) (s.sched.generation + 1)
        ∃ t, exec (.partLayout p) s = .next t ∧ Replied s t p 0 0 (toBe 4 g ++ toBe 4 0) ∧ (∀ c, t.ctx c = {}) ∧
          t.sched.count = beAt b 0 1 ∧ t.nv.layout = beAt b 0 1 ∧ t.sched.generation = g ∧ t.images = [] ∧ t.pages = [] ∧
          t.cst.split = [] ∧ t.cst.hbm = [] ∧ t.cst.transit = [] ∧
          ∀ n < beAt b 0 1, (t.part n).key = 0 ∧ (t.part n).holder = none ∧ (t.part n).pages = 0 ∧
            ∀ w < 8, (t.part n).ways.getLsbD w = decide (w / (8 / beAt b 0 1) = n))) ∧
    (p.opcode = 0x51 → b.length = 40 → zeroAt b 1 7 = true →
      (s.hasPart (beAt b 0 1) = false → refuses (.partKey p) 0x0105 0) ∧
      (s.hasPart (beAt b 0 1) = true → ∃ t, exec (.partKey p) s = .next t ∧ Replied s t p 0 0 [] ∧
        t.part (beAt b 0 1) = { s.part (beAt b 0 1) with key := BitVec.ofNat 256 (beAt b 8 32) } ∧
        (∀ n, n ≠ beAt b 0 1 → t.part n = s.part n) ∧ t.ctxs = s.ctxs)) ∧
    (p.opcode = 0x60 → b.length = 144 → planReserved b = none →
      let new := planOf b
      let old := s.fab.plan
      (new.gen ≤ s.planGen → refuses (.wiringPlan p) 0x0303 0) ∧
      (s.planGen < new.gen → (∃ o, old = some o ∧ o.id = new.id) ∨ (∀ c ∈ s.loadedCtxs, (s.ctx c).itin.job = 0) →
        ∃ t, exec (.wiringPlan p) s = .next t ∧ Replied s t p 0 0 [] ∧ t.fab.plan = some new ∧ t.ctxs = s.ctxs ∧
          ∀ r < 8, let stays := (s.port r).state = 5 ∧ ∃ o, old = some o ∧ o.ports[r]? = new.ports[r]?
            (stays ∨ (s.port r).disable = true ∨ (s.port r).draining ≠ none ∨ (s.port r).step < 3 → t.port r = { s.port r with forceUp := false }) ∧
            (¬ stays → (s.port r).disable = false → (s.port r).draining = none → 3 ≤ (s.port r).step →
              (t.port r).state = 2 ∧ (t.port r).step = 3 ∧ (t.port r).stepSince = s.now ∧ (t.port r).egress = [] ∧
                (t.port r).forceUp = false))) ∧
    (p.opcode = 0x61 → b.length = 8 → zeroAt b 5 3 = true → 1 ≤ beAt b 4 1 → beAt b 4 1 ≤ 0x10 →
      let job := BitVec.ofNat 32 (beAt b 0 4)
      (s.ctxOfJob job = none → ∃ t, exec (.jobTeardown p) s = .next t ∧ Replied s t p 0 0 (toBe 2 0xFFFF ++ toBe 6 0) ∧
        t.ctxs = s.ctxs ∧ t.fab = { s.fab with quarantine := (job, s.now + 10000000) :: s.fab.quarantine.filter fun x => x.1 != job }) ∧
      (∀ c, s.ctxOfJob job = some c → ∃ t, exec (.jobTeardown p) s = .next t ∧ t.out = s.out ∧ t.jobBarred job = true ∧
        (t.ctx c).state = .tearingDown ∧ (t.ctx c).owed = (s.ctx c).owed ++ [⟨k, p⟩] ∧
        ((s.ctx c).state ≠ .tearingDown → (t.ctx c).teardown = some { reason := BitVec.ofNat 8 (beAt b 4 1), since := s.now }) ∧
        ∀ d, d ≠ c → t.ctx d = s.ctx d)) ∧
    (p.opcode = 0xB0 → b.length = 56 → beAt b 0 2 < 8 → (∀ z ∈ [(6, 2), (26, 2), (52, 4)], zeroAt b z.1 z.2 = true) → beAt b 2 2 < 0x1000 →
      beAt b 4 2 ≠ 0 → beAt b 4 2 ≠ 4791 → beAt b 24 1 ≤ 128 → beAt b 25 1 ≤ 32 →
      ∃ t, exec (.netConfig p) s = .next t ∧ Replied s t p 0 0 [] ∧ only t ∧ t.host.dadFailed = false ∧
        Emitted s t (.dadProbe linkLocal) ∧ (bitOf (beAt b 0 2) 0 = true → Emitted s t (.dadProbe (BitVec.ofNat 128 (beAt b 8 16)))) ∧
        t.nv.net = ⟨bitOf (beAt b 0 2) 0, bitOf (beAt b 0 2) 1, bitOf (beAt b 0 2) 2, BitVec.ofNat 12 (beAt b 2 2), BitVec.ofNat 16 (beAt b 4 2),
          BitVec.ofNat 128 (beAt b 8 16), BitVec.ofNat 8 (beAt b 24 1), BitVec.ofNat 8 (beAt b 25 1), BitVec.ofNat 32 (beAt b 28 4),
          BitVec.ofNat 128 (beAt b 32 16), BitVec.ofNat 32 (beAt b 48 4)⟩ ∧ { t.nv with net := s.nv.net } = s.nv) ∧
    (p.opcode = 0xC0 → b.length = 8 → zeroAt b 1 7 = true → s.host.service = [] →
      let m := beAt b 0 1
      let i : Instr := if m = 1 then .serviceStartSplit p else .serviceStartUnified p
      let done (t : State) : Prop := t.mode = m ∧ Replied s t p 0 0 (toBe 1 m ++ toBe 7 0 ++ toBe 8 s.uptimeUs)
      ∃ t, exec i s = .next t ∧
        (s.noLoads = false → t.host.service = [⟨k, p⟩] ∧ t.out = s.out ∧ t.mode = s.mode) ∧
        (s.noLoads = true →
          (s.mode ≠ 1 → s.mode ≠ 2 → Replied s t p 0x0301 0 [] ∧ OnlyAnswered s t) ∧
          (s.mode = 1 ∨ s.mode = 2 → m ≠ 1 → m ≠ 2 → Replied s t p 0x0105 0 [] ∧ OnlyAnswered s t) ∧
          (s.mode = 1 ∨ s.mode = 2 → m = s.mode → done t ∧ OnlyAnswered s t) ∧
          (s.mode = 1 → m = 2 → done t ∧ (∀ x ∈ t.host.qps, x.kind = 0 → x.error = true) ∧ (∀ e < 8, mget [] t.cst.transit e = []) ∧
            t.ctxs = s.ctxs) ∧
          (s.mode = 2 → m = 1 → s.loadedCtxs ≠ [] → Replied s t p 0x0303 0 [] ∧ OnlyAnswered s t) ∧
          (s.mode = 2 → m = 1 → s.loadedCtxs = [] → done t ∧ t.cst.split = [] ∧ t.cst.hbm = [] ∧ t.cst.transit = [] ∧ t.images = [] ∧
            t.pages = [] ∧ ∀ n < 8, (t.part n).pages = 0 ∧ t.ledgerOf n (fun _ => true) = []))) ∧
    (p.opcode = 0xD0 → b.length = 8 → zeroAt b 6 2 = true →
      let first := beAt b 0 4
      let n := beAt b 4 2
      let l := (s.nv.faults.reverse.filter fun e => first ≤ e.seq).take n
      (s.mode ∉ [1, 2, 3] → refuses (.faultLogRead p) 0x0301 0) ∧
      (s.mode ∈ [1, 2, 3] → (n = 0 ∨ 60 < n → refuses (.faultLogRead p) 0x0105 4) ∧
        (1 ≤ n → n ≤ 60 → s.nv.faultSeq ≤ first → refuses (.faultLogRead p) 0x0105 0) ∧
        (1 ≤ n → n ≤ 60 → first < s.nv.faultSeq → ∃ t, exec (.faultLogRead p) s = .next t ∧ OnlyAnswered s t ∧
          Replied s t p 0 0 (toBe 4 (match s.nv.faults.getLast? with | some e => e.seq | none => s.nv.faultSeq) ++
            toBe 4 s.nv.faultSeq ++ toBe 4 s.faultSuppressed ++ toBe 2 l.length ++ toBe 2 0 ++ l.flatMap FaultEntry.toBytes))))

/-- ENVELOPE_GRANT (R377), LEASE_EXPIRE (R378), LEDGER_READ (R388), ALARM_POLICY (R426), ATTEST (R418, R419), FW_UPDATE (R413, R325,
R326). How long the write of an image takes and which part of it stands in the bank meanwhile are free values (log entries 14 and 19);
which commands count as those of one gate-die cycle, and that a grant comes before a drop of the same cycle, is log entry 47. -/
def Obligations.PowerAndTrustCommands : Prop :=
  ∀ (s : State),
    let begins (t : State) (img : Bytes) (o : Option Owed) : Prop :=
      t.nv.nextBank = s.nv.nextBank ∧
      (∃ part, part <+: img ∧ (if s.sec.bootBank then t.nv.bankA else t.nv.bankB) = ⟨part, 3⟩) ∧
      (if s.sec.bootBank then t.nv.bankB = s.nv.bankB else t.nv.bankA = s.nv.bankA) ∧
      ∃ n, 1 ≤ n ∧ n < 30000000 ∧ t.sec = { s.sec with fwRead := none, fwWrite := some ⟨o, img, n⟩ }
    let owes (r : FwRead) (t : State) (st : BitVec 16) : Prop :=
      ∀ o, r.owed = some o → (s.session o.slot).open_ = true → (s.session o.slot).number = o.pkt.session → Replied s t o.pkt st 0 []
    (∀ (p : Pkt) (k : Slot), s.takes p p k = true →
      let b := p.params
      let refuses (i : Instr) (st : BitVec 16) (d : BitVec 32) : Prop := ∃ t, exec i s = .next t ∧ Replied s t p st d [] ∧ OnlyAnswered s t
      (p.opcode = 0x70 → b.length = 16 → zeroAt b 12 4 = true →
        let w := beAt b 0 4
        let fb := beAt b 4 4
        let l := beAt b 8 4
        let okW := 2400 ≤ w ∧ w ≤ 4000
        let okF := fb = 0 ∨ (2400 ≤ fb ∧ fb ≤ 4000)
        let okL := l = 0 ∨ (10 ≤ l ∧ l ≤ 3600)
        let secs := if l = 0 then 300 else l
        let idle := s.gov.dropWaits = []
        (idle → ¬ okW → refuses (.envelopeGrant p) 0x0105 0) ∧ (idle → okW → ¬ okF → refuses (.envelopeGrant p) 0x0105 4) ∧
        (idle → okW → okF → ¬ okL → refuses (.envelopeGrant p) 0x0105 8) ∧
        let gen := min (2 ^ 32 - 1) (s.gov.grantGen + 1)
        let newFb := if fb = 0 then s.nv.fallbackW else fb
        let tells (t : State) (left : Nat) : Prop := Replied s t p 0 0 (toBe 4 w ++ toBe 4 left ++ toBe 4 gen ++ toBe 4 0)
        (okW → okF → okL → ∃ t, exec (.envelopeGrant p) s = .next t ∧ t.gov.grantGen = gen ∧ t.nv.fallbackW = newFb ∧
          t.ctxs = s.ctxs ∧ t.stns = s.stns ∧
          (s.gov.droppedAt ≠ some s.now → t.gov.envelope = w ∧ t.gov.source = 1 ∧
            t.gov.leaseEnd = some (s.now + 1000000000 * secs) ∧
            ((∀ r, .envelopeDrop r ∉ s.pending) → tells t (1000 * secs)) ∧
            (∀ r v, .envelopeDrop r ∈ s.pending → s.takes r v (slotOther k) = true → r.opcode = 6 → v.params = [] → tells t 0)) ∧
          (s.gov.droppedAt = some s.now → t.gov.envelope = newFb ∧ t.gov.source = 3 ∧ t.gov.leaseEnd = none ∧ tells t 0) ∧
          (s.gov.droppedAt = some s.now → ¬ idle → t.gov.dropWaits = [] ∧ t.gov.event.getLsbD 1 = true ∧
            (∀ d ∈ s.gov.dropWaits, Replied s t d 0 0 (toBe 4 newFb ++ toBe 4 0)) ∧
            Posted s t 0x8010 0xFFFF (toBe 1 2 ++ toBe 1 0 ++ toBe 1 0 ++ toBe 1 0 ++ toBe 4 newFb ++ toBe 4 0 ++ toBe 4 0)))) ∧
      (p.opcode = 0x71 → b.length = 8 → beAt b 6 2 < 2 →
        let answers (l : List LedgerRec) : Prop := ∃ t, exec (.ledgerRead p) s = .next t ∧ OnlyAnswered s t ∧
          if l = [] then Replied s t p 0x0105 0 [] else Replied s t p 0 0 (toBe 2 l.length ++ toBe 6 0 ++ l.flatMap LedgerRec.toBytes)
        let n := beAt b 4 2
        (beAt b 6 2 = 1 → answers s.nv.savedRec.toList) ∧
        (beAt b 6 2 = 0 → n = 0 ∨ 16 < n → refuses (.ledgerRead p) 0x0105 4) ∧
        (beAt b 6 2 = 0 → 1 ≤ n → n ≤ 16 →
          let from_ := match s.kept with | r :: _ => max (beAt b 0 4) r.window | [] => beAt b 0 4
          answers ((s.kept.filter fun r => from_ ≤ r.window && r.window < from_ + n).take n))) ∧
      (p.opcode = 0x80 → b.length = 16 → (∀ z ∈ [(1, 1), (6, 2), (8, 1)], zeroAt b z.1 z.2 = true) →
        let iso := beAt b 0 1 = 1
        (∀ o, policyBad b = some o → refuses (.alarmPolicy p) 0x0105 (BitVec.ofNat 32 o)) ∧
        (policyBad b = none → ¬ (iso ↔ s.nv.policy.isolation = true) → s.loadedCtxs ≠ [] → refuses (.alarmPolicy p) 0x0303 0) ∧
        (policyBad b = none → (iso ↔ s.nv.policy.isolation = true) ∨ s.loadedCtxs = [] →
          ∃ t, exec (.alarmPolicy p) s = .next t ∧ Replied s t p 0 0 [] ∧
            { t with cmd := s.cmd, host := s.host, tally := s.tally, out := s.out, nv := s.nv } = s ∧
            t.nv = { s.nv with policy := ⟨beAt b 0 1 == 1, beAt b 2 2, beAt b 4 2,
              [0, beAt b 9 1, beAt b 10 1, beAt b 11 1, beAt b 12 1, beAt b 13 1, beAt b 14 1, beAt b 15 1]⟩ })) ∧
      (p.opcode = 0x81 → b.length = 40 → zeroAt b 33 7 = true →
        let n := beAt b 32 1
        (n ≠ 0xFF → s.hasPart n = false → refuses (.attest p) 0x0105 32) ∧
        (n = 0xFF ∨ s.hasPart n = true →
          (s.sec.atPriv = none → refuses (.attest p) 0x0301 0) ∧
          (∀ key, s.sec.atPriv = some key →
            let r := s.report (slice b 0 32) n
            ∃ t, exec (.attest p) s = .next t ∧ OnlyAnswered s t ∧ Replied s t p 0 0 (r ++ edSign key r)))) ∧
      (∀ answer x, p.opcode = 0x90 → b.length = 32 → zeroAt b 24 8 = true → s.outbound k (beAt b 0 4) = some x → x.error = false →
        352 ≤ beAt b 16 8 → beAt b 16 8 ≤ 67108864 →
        let n := beAt b 16 8
        let read : Out := .rdmaRead x.qpn (beAt b 8 8) (BitVec.ofNat 32 (beAt b 4 4)) n
        ∃ t, exec (.fwUpdate p answer) s = .next t ∧ Emitted s t read ∧
          ((∀ d, answer = some d → d.bytes.length ≠ n) → t.out = read :: s.out ∧ OnlyAnswered s { t with sec := s.sec } ∧
            t.sec = { s.sec with fwRead := some ⟨some ⟨k, p⟩, x.qpn, beAt b 8 8, BitVec.ofNat 32 (beAt b 4 4), n⟩ }) ∧
          (∀ d, answer = some d → d.bytes.length = n →
            (d.ce = true → (∀ h, x.cnpSentAt = some h → h + 50000 ≤ s.now) → Emitted s t (.cnp x.qpn)) ∧
            (fwCheck d.bytes s.nv.rollback = 0 → begins t d.bytes (some ⟨k, p⟩)) ∧
            (fwCheck d.bytes s.nv.rollback ≠ 0 → OnlyAnswered s t ∧
              (fwCheck d.bytes s.nv.rollback ≠ 0x0204 → Replied s t p (fwCheck d.bytes s.nv.rollback) 0 []))))) ∧
    (∀ r data, s.alive = true → s.sec.fwRead = some r → data.bytes.length = r.len → (∀ f ∈ s.host.fetches, f.1 ≠ r.qpn) →
      ∃ t, exec (.rdmaCompletion r.qpn data) s = .next t ∧
        (fwCheck data.bytes s.nv.rollback = 0 → begins t data.bytes r.owed) ∧
        (fwCheck data.bytes s.nv.rollback ≠ 0 → OnlyAnswered s { t with sec := s.sec } ∧ t.sec = { s.sec with fwRead := none } ∧
          (fwCheck data.bytes s.nv.rollback ≠ 0x0204 → owes r t (fwCheck data.bytes s.nv.rollback)))) ∧
    (∀ p r rnr, s.alive = true → (s.host.qps.find? fun x => x.qpn == p.qpn && x.kind == 2) = some p → p.error = false →
      s.sec.fwRead = some r → r.qpn = p.qpn → (rnr = false → p.reqSentAt + 67108864 ≤ s.now) →
      ∃ t, exec (.rdmaRetryTimeout ⟨p.qpn, rnr⟩) s = .next t ∧
        let tries := if rnr then p.rnrs else p.retries
        (tries < 7 → t.sec = s.sec ∧ Emitted s t (.rdmaRead r.qpn r.va r.rkey r.len)) ∧
        (7 ≤ tries → t.sec.fwRead = none ∧ (∀ x ∈ t.host.qps, x.qpn = p.qpn → x.error = true) ∧ t.host.event.getLsbD 3 = true ∧
          t.nv.bankA = s.nv.bankA ∧ t.nv.bankB = s.nv.bankB ∧ owes r t 0x0502)) ∧
    (∀ x, s.sec.fwWrite = some x → s.bring.powered = true → s.cmd.serial = [] →
      ∃ t, step { s with pending := [] } = .next t ∧
        (1 < x.left → t.nv = s.nv ∧ t.sec = { s.sec with fwWrite := some { x with left := x.left - 1 } }) ∧
        (x.left ≤ 1 → t.sec.fwWrite = none ∧ t.nv.nextBank = !s.sec.bootBank ∧
          (if s.sec.bootBank then t.nv.bankA else t.nv.bankB) = ⟨x.image, 1⟩ ∧
          (if s.sec.bootBank then t.nv.bankB = s.nv.bankB else t.nv.bankA = s.nv.bankA) ∧ t.sec.event.getLsbD 7 = true ∧
          ∀ o, x.owed = some o → (s.session o.slot).open_ = true → (s.session o.slot).number = o.pkt.session →
            Replied s t o.pkt 0 0 (toBe 8 (leAt x.image 16 8) ++ toBe 1 (leAt x.image 26 1) ++ toBe 1 (b2n (!s.sec.bootBank)) ++ toBe 6 0 ++
              sha512 x.image))) ∧
    (∀ e, s.gov.leaseEnd = some e → e ≤ s.now →
      let w := s.nv.fallbackW
      ∃ t, exec .leaseExpire s = .next t ∧ t.gov.envelope = w ∧ t.gov.source = 2 ∧ t.gov.leaseEnd = none ∧ t.gov.event.getLsbD 0 = true ∧
        t.ctxs = s.ctxs ∧ t.stns = s.stns ∧
        Posted s t 0x8010 0xFFFF (toBe 1 1 ++ toBe 1 0 ++ toBe 1 0 ++ toBe 1 0 ++ toBe 4 w ++ toBe 4 0 ++ toBe 4 0))

/-- ITIN_LOAD (R345) and ITIN_CHECK (R131, R132). That the context is the FREE one of the lowest number, and so which handle the command
answers, is the model's choice (log entry 48). -/
def Obligations.ItinerariesLoad : Prop :=
  ∀ (s : State),
    (∀ (p q : Pkt) (k : Slot), s.takes p q k = true → p.opcode = 0x40 → q.params.length = 32 → zeroAt q.params 1 3 = true →
      zeroAt q.params 20 4 = true →
      let part := beAt q.params 0 1
      let qpn := beAt q.params 4 4
      let n := beAt q.params 24 8
      ∃ t, exec (.itinLoad p) s = .next t ∧
        (s.hasPart part = false → Replied s t q 0x0105 0 [] ∧ OnlyAnswered s t) ∧
        (s.hasPart part = true → s.outbound k qpn = none → Replied s t q 0x0105 4 [] ∧ OnlyAnswered s t) ∧
        (s.hasPart part = true → s.outbound k qpn ≠ none → 2 ^ 31 < n → Replied s t q 0x0105 24 [] ∧ OnlyAnswered s t) ∧
        (∀ x, s.hasPart part = true → s.outbound k qpn = some x → n ≤ 2 ^ 31 → s.host.service = [] →
          if x.error then Replied s t q 0x0502 0 [] ∧ OnlyAnswered s t
          else t.host.fetches = s.host.fetches ++ [(qpn, ⟨k, q⟩, part, n)] ∧ OnlyAnswered s t ∧
            t.out = .rdmaRead qpn (beAt q.params 8 8) (BitVec.ofNat 32 (beAt q.params 16 4)) n :: s.out)) ∧
    (∀ (file : Bytes) (j : LoadJob), s.alive = true → (s.host.loads.find? fun j => j.file == file) = some j → s.host.service = [] →
      let answers (t : State) (st : BitVec 16) (d : BitVec 32) (body : Bytes) : Prop :=
        (s.session j.owed.slot).open_ = true → (s.session j.owed.slot).number = j.owed.pkt.session → Replied s t j.owed.pkt st d body
      ∃ t, exec (.itinCheck file) s = .next t ∧ t.host.loads = s.host.loads.erase j ∧
        (∀ c, s.checkFile j.part file = .ok () → s.freeCtx j.part = some c →
          let it := readItin file
          let h := ctxHandle c ((s.ctx c).use_ + 1)
          (t.ctx c).state = .loaded ∧ (t.ctx c).handle = h ∧ (t.ctx c).itin = it ∧ (t.ctx c).resident = false ∧
          (t.ctx c).digest = BitVec.ofNat 512 (beNat (sha512 file)) ∧ (t.ctx c).bound = it.firstBound ∧
          (let m := it.streams.foldl (fun m d => wrBytes m d.regionBase (d.words.flatMap fun w => toLe 32 w.toNat)) []
           (it.kv = none → (t.ctx c).store = m) ∧
           (∀ v, it.kv = some v → (t.ctx c).store =
              (List.range v.seqMax).foldl (fun m q => wrBytes m (v.rec_ q + 8) (toLe 8 v.modelTag.toNat)) m)) ∧
          (∀ d, d ≠ c → t.ctx d = s.ctx d) ∧ (∀ v, it.caravan = some v → (t.image j.part v.imageId).isSome = true) ∧
          answers t 0 0 (toBe 2 h.toNat ++ toBe 6 0 ++ toBe 64 (BitVec.ofNat 512 (beNat (sha512 file))).toNat)) ∧
        (∀ st d, s.checkFile j.part file = .error (st, d) → OnlyAnswered s t ∧
          t.tally.itinRefused = satAdd 32 s.tally.itinRefused 1 ∧ (authStatus st = false → st ≠ 0 → answers t st (BitVec.ofNat 32 d) [])))

/-- TALLY_STREAM (R458, R460), TALLY_PERIOD_PULSE, TALLY_COLLECT_DONE (R455, R456), TALLY_RECORD_WRITTEN (R459). -/
def Obligations.TallyRecords : Prop :=
  ∀ (s : State),
    (∀ (p : Pkt) (k : Slot), s.takes p p k = true → p.opcode = 0xA0 → p.params.length = 32 → zeroAt p.params 2 2 = true →
      let b := p.params
      let set := beAt b 1 1
      let refuses (i : Instr) (st : BitVec 16) (d : BitVec 32) : Prop := ∃ t, exec i s = .next t ∧ Replied s t p st d [] ∧ OnlyAnswered s t
      (beAt b 0 1 = 1 → s.mode = 1 ∨ s.mode = 2 → 1 ≤ set → set < 32 → 10 ≤ beAt b 4 4 → beAt b 4 4 ≤ 1000000 →
        ∀ x, s.outbound k (beAt b 8 4) = some x → x.error = false → recordBytes set ≤ beAt b 24 8 →
        (s.tally.stream ≠ none → refuses (.tallyStreamStart p) 0x0303 0) ∧
        (s.tally.stream = none → ∃ t, exec (.tallyStreamStart p) s = .next t ∧ OnlyAnswered s t ∧
          Replied s t p 0 0 (toBe 4 (recordBytes set) ++ toBe 4 0 ++ toBe 8 s.tally.seq) ∧ t.tally.ring = [] ∧ t.tally.droppedSince = s.tally.droppedSince ∧
          ∃ y, t.tally.stream = some y ∧ y.set = BitVec.ofNat 8 set ∧ y.periodUs = beAt b 4 4 ∧ y.owner = k ∧ y.qpn = beAt b 8 4 ∧
            y.rkey = BitVec.ofNat 32 (beAt b 12 4) ∧ y.va = beAt b 16 8 ∧ y.bytes = beAt b 24 8 ∧
            y.nextAt = s.now + 1000 * beAt b 4 4 ∧ y.firstSeq = s.tally.seq ∧ y.stopping = false)) ∧
      (beAt b 0 1 = 2 → (∀ z ∈ [(1, 1), (4, 4), (8, 4), (12, 4), (16, 8), (24, 8)], zeroAt b z.1 z.2 = true) →
        (s.tally.stream = none → refuses (.tallyStreamStop p) 0x0303 0) ∧
        (∀ y, s.tally.stream = some y → y.owner ≠ k ∨ y.stopping = true → refuses (.tallyStreamStop p) 0x0303 0) ∧
        (∀ y, s.tally.stream = some y → y.owner = k → y.stopping = false →
          ∃ t, exec (.tallyStreamStop p) s = .next t ∧ OnlyAnswered s t ∧
            (s.tally.ring = [] → t.tally.stream = none ∧ Replied s t p 0 0 []) ∧
            (s.tally.ring ≠ [] → t.tally.stream = some { y with stopping := true, owed := some ⟨k, p⟩ } ∧ t.out = s.out)))) ∧
    (∀ y, s.tally.stream = some y → y.stopping = false → y.nextAt ≤ s.now →
      ∃ t, exec .tallyPeriodPulse s = .next t ∧ t.tally.stream = some { y with nextAt := y.nextAt + 1000 * y.periodUs } ∧
        (s.tally.collect = none → t.tally.seq = s.tally.seq + 1 ∧
          t.tally.collect = some ⟨s.tally.seq, s.now, 1, s.tally.selectGen⟩ ∧
          (∀ i < 1024, (t.stn i).shadow = (s.stn i).tally ∧ (t.stn i).sliceShadow = (s.stn i).slice ∧ (t.stn i).tally = (s.stn i).tally) ∧
          (∀ n < 32, (t.stk n).shadow = (s.stk n).tally) ∧ (∀ d < 16, (t.drover d).shadow = (s.drover d).tally) ∧
          t.tally.gateShadow = s.tally.gate) ∧
        (∀ x, s.tally.collect = some x → t.stns = s.stns ∧
          (x.at_ ≠ s.now → t.tally.missed = satAdd 32 s.tally.missed 1 ∧ t.tally.event.getLsbD 0 = true) ∧
          (x.at_ = s.now → t.tally.missed = s.tally.missed ∧ t.tally.collect = some { x with flags := x.flags ||| 1 }))) ∧
    (∀ x, s.tally.collect = some x →
      ∃ t, exec .tallyCollectDone s = .next t ∧ t.tally.collect = none ∧ (∀ i, { t.stn i with slice := (s.stn i).slice } = s.stn i) ∧
        t.ctxs = s.ctxs ∧
        (s.tally.stream = none → t.tally.ring = s.tally.ring) ∧
        (∀ y, s.tally.stream = some y → y.stopping = false → x.seq < y.firstSeq → t.tally.ring = s.tally.ring ∧ t.tally.dropped = s.tally.dropped) ∧
        (∀ y, s.tally.stream = some y → y.stopping = false → y.firstSeq ≤ x.seq →
          if (s.tally.ring.map (·.2.length)).sum + recordBytes y.set.toNat ≤ s.tallyRing then
            t.tally.ring = s.tally.ring ++ [(x.seq, s.record x y.set.toNat)] ∧ t.tally.droppedSince = 0
          else t.tally.ring = s.tally.ring ∧ t.tally.dropped = satAdd 32 s.tally.dropped 1 ∧ t.tally.event.getLsbD 1 = true)) ∧
    (∀ y x rest, s.tally.stream = some y → s.tally.ring = x :: rest →
      ∃ t, exec .tallyRecordWritten s = .next t ∧ t.tally.ring = rest ∧ t.ctxs = s.ctxs ∧
        (rest = [] → y.stopping = true → t.tally.stream = none) ∧
        (rest ≠ [] ∨ y.stopping = false → t.tally.stream = some y) ∧
        ∀ n bs more, rest = (n, bs) :: more →
          t.out = .rdmaWrite y.qpn (y.va + n % (y.bytes / bs.length) * bs.length) y.rkey bs :: s.out)

/-- TAKE_STATIONS (R358); the stations at the first hold (R100), the shelf (R360). -/
def Obligations.TakingTheStations : Prop :=
  ∀ (s : State) (p c : Nat), p < s.sched.count → (s.part p).holder = none → c ∈ ctxsOfPart p → (s.ctx c).state = .ready →
    let ready (d : Nat) : Prop := d ∈ ctxsOfPart p ∧ (s.ctx d).state = .ready
    let longest (f : Nat → Prop) : Prop := f c ∧ ∀ d, ready d → f d → d ≠ c →
      (s.ctx c).waitSince < (s.ctx d).waitSince ∨ ((s.ctx c).waitSince = (s.ctx d).waitSince ∧ c < d)
    let first := (s.part p).switchFirst
    ((first = false ∧ (s.ctx c).window ≠ none ∧ ∀ d, ready d → (s.ctx d).window ≠ none → c ≤ d) ∨
      ((first = true ∨ ∀ d, ready d → (s.ctx d).window = none) ∧
        (longest (fun d => (s.ctx d).block = none) ∨
          ((∀ d, ready d → (s.ctx d).block ≠ none) ∧ longest fun _ => True)))) →
    (∀ w, (s.ctx c).window = some w → w ≤ s.now) → (s.stnsOfCtx c).Nodup →
    let rest (t : State) : Prop := { t with parts := s.parts, ctxs := s.ctxs, stns := s.stns, sched := s.sched } = s ∧
      { t.part p with preSince := none } = { s.part p with holder := some c, preSince := none, switchFirst := false } ∧
      (first = true → (∃ d, ready d ∧ d ≠ c ∧ (s.ctx d).window ≠ none) → (t.part p).preSince = some s.now) ∧
      (first = false ∨ (∀ d, ready d → d ≠ c → (s.ctx d).window = none) → (t.part p).preSince = none) ∧ (∀ q, q ≠ p → t.part q = s.part q) ∧
      (∀ d, d ≠ c → t.ctx d = s.ctx d) ∧ (∀ j, j ∉ s.stnsOfCtx c → t.stn j = s.stn j) ∧
      (t.ctx c).sliceStart = s.now ∧ (t.ctx c).sliceNow = s.sliceUs c ∧ (t.ctx c).store = (s.ctx c).store ∧ (t.ctx c).step = (s.ctx c).step
    ((s.ctx c).complete = true → ∃ t, exec (.takeStations p) s = .next t ∧ { t with parts := s.parts, ctxs := s.ctxs } = s ∧
      t.ctx c = { s.ctx c with state := .finished } ∧ t.part p = { s.part p with switchFirst := false } ∧
      (∀ d, d ≠ c → t.ctx d = s.ctx d) ∧ ∀ q, q ≠ p → t.part q = s.part q) ∧
    ((s.ctx c).complete = false → (s.ctx c).hamper = true → (∀ v, (s.ctx c).itin.caravan = some v → ∀ g ∈ (s.ctx c).caravan.live, s.groupAway c v g = []) →
      ∃ t, exec (.takeStations p) s = .next t ∧ rest t ∧ t.sched = s.sched ∧ (t.ctx c).state = .restoring ∧
      ∀ j ∈ s.stnsOfCtx c, (t.stn j).state = 3 ∧ (t.stn j).ctx = some c ∧ t.arch j = s.arch j) ∧
    ((s.ctx c).complete = false → (s.ctx c).hamper = false → (s.ctx c).log = [] → mwf 0 (s.ctx c).shelf = true → (∀ i, mget 0 (s.ctx c).shelf i ≤ 65535) →
      ∃ t, exec (.takeStations p) s = .next t ∧ rest t ∧ (t.ctx c).state = .running ∧ (t.ctx c).shelf = [] ∧
        (t.ctx c).heldSince = some s.now ∧ (t.ctx c).stepStart = s.now ∧ (t.ctx c).stepRun = 0 ∧
        (t.sched = if ∃ w, (s.ctx c).window = some w ∧ w < s.now
          then { s.sched with event := setBit s.sched.event 4, fresh := s.sched.fresh.add s.now 16 } else s.sched) ∧
        ∀ rel d, (s.ctx c).itin.streams[rel]? = some d →
          let j := s.stnOfCtx c rel
          let pol := (s.ctx c).newPolicy.getD (s.ctx c).policy
          (t.stn j).state = 1 ∧ (t.stn j).ctx = some c ∧ (t.arch j).next = d.entry ∧ (t.arch j).run = .issuing ∧
          (t.arch j).sreg 1 = BitVec.ofNat 64 rel ∧ (t.arch j).sreg 2 = BitVec.ofNat 64 (s.ctx c).itin.streams.length ∧
          (∀ r, r ≠ 1 → r ≠ 2 → (t.arch j).sreg r = 0) ∧ (∀ r, (t.arch j).vreg r = 0) ∧ (t.arch j).accs = [] ∧
          (∀ a, rdByte (t.arch j).saddle a = 0) ∧ (t.arch j).retStack = [] ∧ (t.arch j).openBlocks = [] ∧ (t.arch j).inflight = [] ∧
          (∀ l ∈ (t.arch j).istore, l.line < d.entry / 64 + 5 ∧ d.entry / 64 ≤ l.line) ∧
          (∀ k < 64, (t.arch j).token k = mget 0 (s.ctx c).shelf (64 * rel + k)) ∧
          (t.arch j).quota = if pol.cap = 65535 then none else
            some (pol.cap / (s.ctx c).itin.streams.length + if rel < pol.cap % (s.ctx c).itin.streams.length then 1 else 0))

/-- SLICE_EXPIRE, BLOCK_DETECT, BLOCK_EXPECTED_END (R358, R359), PREEMPT_START, PREEMPT_SAVED (R362), RESTORE_DONE (R364),
RESERVED_WINDOW_LEAD and RESERVED_WINDOW_END (R361, R363). That a blocked holder inside its reserved window is not asked to yield is the
model's reading of R358 and R361 (log entry 30). -/
def Obligations.PreemptionAndRestore : Prop :=
  ∀ (s : State) (p c : Nat), c ∈ ctxsOfPart p →
    let k := s.ctx c
    let holds := (s.part p).holder = some c
    let other := ∃ d ∈ ctxsOfPart p, d ≠ c ∧ (s.ctx d).state = .ready ∧ (s.ctx d).block = none
    let onlyPart (t : State) : Prop := { t with parts := s.parts } = s ∧ ∀ q, q ≠ p → t.part q = s.part q
    let onlyCtx (t : State) : Prop := { t with ctxs := s.ctxs } = s ∧ ∀ d, d ≠ c → t.ctx d = s.ctx d
    let asked (t : State) : Prop := t.part p = { s.part p with preSince := (s.part p).preSince <|> some s.now }
    (holds → k.state = .running → k.window = none → k.sliceStart + 1000 * k.sliceNow ≤ s.now → (s.part p).preSince = none →
      (other → ∃ t, exec (.sliceExpire p) s = .next t ∧ onlyPart t ∧ asked t) ∧
      (¬ other → ∃ t, exec (.sliceExpire p) s = .next t ∧ onlyCtx t ∧ t.ctx c = { k with
        sliceStart := s.now, sliceNow := s.sliceUs c, blockNow := bitsOf (s.part p).cfg.toNat 30 10 })) ∧
    (∀ since, holds → k.state = .running → k.blockSince = some since → since + 1000 * k.blockNow ≤ s.now → s.blockTest c = true →
      let b := s.blockedNow c since
      ∃ t, exec (.blockDetect p) s = .next t ∧ t.ctx c = { k with blocked := some b } ∧ (b.cls = 1 ∨ b.cls = 4) ∧
        { t with ctxs := s.ctxs, parts := s.parts } = s ∧ (∀ d, d ≠ c → t.ctx d = s.ctx d) ∧ (∀ q, q ≠ p → t.part q = s.part q) ∧
        (k.window = none → other → asked t) ∧ (k.window ≠ none ∨ ¬ other → t.part p = s.part p)) ∧
    (∀ cls e, k.state = .ready → k.blocked = some ⟨cls, some e⟩ → e ≤ s.now →
      ∃ t, exec (.blockExpectedEnd c) s = .next t ∧ onlyCtx t ∧ t.ctx c = { k with blocked := none }) ∧
    (∀ r, holds → k.state = .running → (s.part p).preSince = some r →
      ∃ t, exec (.preemptStart p) s = .next t ∧ (t.ctx c).state = .saving ∧ (t.ctx c).heldSince = none ∧
        (∀ h, k.heldSince = some h → (t.ctx c).lifeRun = k.lifeRun + (s.now - h)) ∧
        { t with ctxs := s.ctxs, stns := s.stns, parts := s.parts } = s ∧ (∀ q, t.part q = s.part q) ∧ (∀ d, d ≠ c → t.ctx d = s.ctx d) ∧
        ∀ j, t.arch j = s.arch j ∧ (j ∈ s.stnsOfCtx c → (t.stn j).state = 2) ∧ (j ∉ s.stnsOfCtx c → t.stn j = s.stn j)) ∧
    (∀ r, holds → k.state = .saving → s.drained c = true → (s.part p).preSince = some r → (s.stnsOfCtx c).Nodup →
      (∀ j ∈ s.stnsOfCtx c, mwf 0 (s.arch j).tokens = true ∧ ∀ x ∈ (s.arch j).tokens, x.1 < 64) →
      ∃ t, exec (.preemptSaved p) s = .next t ∧ (t.part p).holder = none ∧ (t.part p).preSince = none ∧
        (t.part p).preempts = satAdd 32 (s.part p).preempts 1 ∧ (t.part p).maxPre = max (s.part p).maxPre (min (s.now - r) (2 ^ 32 - 1)) ∧
        (t.ctx c).state = (if k.evict then .swappingOut else if k.parkPending then .parked else if k.complete then .finished else .ready) ∧
        (t.ctx c).resident = (k.resident && !k.evict) ∧ (t.ctx c).hamper = true ∧ (t.ctx c).store = k.store ∧ (t.ctx c).waitSince = s.now ∧
        (t.ctx c).blocked = k.blocked ∧ (t.ctx c).window = k.window ∧ t.out = s.out ∧
        (∀ rel < s.stnCount c, mget {} (t.ctx c).saved rel = { s.arch (s.stnOfCtx c rel) with tokens := [] } ∧
          ∀ i < 64, mget 0 (t.ctx c).shelf (64 * rel + i) = mget 0 k.shelf (64 * rel + i) + (s.arch (s.stnOfCtx c rel)).token i) ∧
        (∀ j ∈ s.stnsOfCtx c, (t.stn j).ctx = none ∧ t.arch j = {} ∧ (t.stn j).state = if (s.stn j).failed then 4 else 0) ∧
        ∀ d, d ≠ c → t.ctx d = s.ctx d) ∧
    (holds → k.state = .restoring → (∀ w, k.window = some w → w ≤ s.now) → k.log = [] → mwf 0 k.shelf = true →
      (∀ i, mget 0 k.shelf i ≤ 65535) → (s.stnsOfCtx c).Nodup → (∀ rel, (mget {} k.saved rel).tokens = []) →
      s.againHere c = true → (∀ g o n, s.imageOf c = some g → g.poisoned o n = false) →
      (k.walk.dropped = true → ∀ x ∈ k.upperCopies, ∃ g, s.page p x.2 = some g ∧ g.poison = false ∧ g.checks 0 65536 = true) →
      ∃ t, exec (.restoreDone p) s = .next t ∧ (t.ctx c).state = .running ∧ (t.ctx c).hamper = false ∧ (t.ctx c).saved = [] ∧ (t.ctx c).walk.dropped = false ∧
        (t.ctx c).shelf = [] ∧ (t.ctx c).heldSince = some s.now ∧ (t.ctx c).step = k.step ∧ (∀ q, (t.part q).holder = (s.part q).holder) ∧
        (∀ d, d ≠ c → t.ctx d = s.ctx d) ∧ t.out = s.out ∧
        (t.sched = if ∃ w, k.window = some w ∧ w < s.now
          then { s.sched with event := setBit s.sched.event 4, fresh := s.sched.fresh.add s.now 16 } else s.sched) ∧
        ∀ rel < s.stnCount c, let j := s.stnOfCtx c rel
          (t.stn j).state = 1 ∧ (t.stn j).ctx = some c ∧ { t.arch j with tokens := [] } = mget {} k.saved rel ∧
          ∀ i < 64, (t.arch j).token i = mget 0 k.shelf (64 * rel + i)) ∧
    (∀ r, k.resv = some r → k.window = none → k.state ∈ [CtxState.ready, .running, .saving, .restoring] → 0 < r.periodUs →
      let past := (s.now - r.since) / 1000 + r.leadUs
      let start := r.since + 1000 * ((past - r.phaseUs) / r.periodUs * r.periodUs + r.phaseUs)
      r.phaseUs ≤ past → s.now < start + 1000 * r.lengthUs →
      ∃ t, exec (.reservedWindowLead c) s = .next t ∧ t.ctx c = { k with window := some start } ∧
        { t with ctxs := s.ctxs, parts := s.parts } = s ∧ (∀ d, d ≠ c → t.ctx d = s.ctx d) ∧ (∀ q, q ≠ p → t.part q = s.part q) ∧
        ((s.part p).holder = none → t.part p = s.part p) ∧
        ∀ d, (s.part p).holder = some d →
          let switching := (s.ctx d).state = .saving ∨ ((s.ctx d).state = .running ∧ (s.part p).preSince ≠ none)
          (switching → t.part p = { s.part p with switchFirst := true }) ∧
          (¬ switching → d = c → t.part p = s.part p) ∧ (¬ switching → d ≠ c → asked t)) ∧
    (∀ r w, k.resv = some r → k.window = some w → w + 1000 * r.lengthUs ≤ s.now →
      ∃ t, exec (.reservedWindowEnd c) s = .next t ∧ t.ctx c = { k with window := none } ∧
        { t with ctxs := s.ctxs, parts := s.parts } = s ∧ (∀ d, d ≠ c → t.ctx d = s.ctx d) ∧ (∀ q, q ≠ p → t.part q = s.part q) ∧
        (holds → asked t) ∧ (¬ holds → t.part p = s.part p))

/-- SWAP_IN_START, SWAP_AGE_EXPIRE, SWAP_IN_DONE, SWAP_OUT_DONE (R367, R355, R443). That a complete swapped-out context is a candidate only
while a host's access waits, and that a partition has one swap at a time, are the model's readings (log entry 30). -/
def Obligations.Swapping : Prop :=
  ∀ (s : State),
    (∀ p c, p < s.sched.count → s.candidate p = some c →
      (c ∈ ctxsOfPart p ∧ (s.ctx c).started = true ∧ (((s.ctx c).state = .swapped ∧ (s.ctx c).under = none ∧ ((s.ctx c).complete = true → (s.ctx c).hostAnswer = true)) ∨
        ((s.ctx c).state = .parked ∧ (s.ctx c).swapFirst = true ∧ (s.ctx c).resident = false)) ∧
        ∀ d ∈ ctxsOfPart p, (s.ctx d).swappable = true → d ≠ c → ((s.ctx c).swapFirst = true ∧ (s.ctx d).swapFirst = false) ∨
          ((s.ctx c).swapFirst = (s.ctx d).swapFirst ∧ ((s.ctx c).runnableSince < (s.ctx d).runnableSince ∨
            ((s.ctx c).runnableSince = (s.ctx d).runnableSince ∧ c < d)))) ∧
      ((∀ d ∈ ctxsOfPart p, (s.ctx d).state ≠ .swappingIn ∧ (s.ctx d).state ≠ .swappingOut ∧ (s.ctx d).evict = false) →
        let fits := ∀ j ∈ s.stnsOfCtx c, s.ctxSliceBytes c j ≤ s.sliceFree (fun d => (s.ctx d).occupies) j
        let evictable (d : Nat) : Prop := d ∈ ctxsOfPart p ∧ (s.ctx d).resident = true ∧ (s.ctx d).state ≠ .tearingDown ∧
          (s.ctx d).resv = none ∧
          (s.ctx d).residentSince + 1000000 ≤ s.now ∧ ((s.ctx d).itin.job = 0 ∨ (s.ctx d).isHeld = true)
        let room := s.fitsWithout c (s.evictable p) = true
        let first (d : Nat) (f : Nat → Prop) : Prop := evictable d ∧ ∀ e, evictable e → e ≠ d → f e
        let evicted (d : Nat) (t : State) : Prop := (∀ e, e ≠ d → t.ctx e = s.ctx e) ∧ (∀ q, q ≠ p → t.part q = s.part q) ∧ t.stns = s.stns ∧
          ((s.part p).holder = some d → t.ctx d = { s.ctx d with evict := true } ∧
            t.part p = { s.part p with preSince := (s.part p).preSince <|> some s.now }) ∧
          ((s.part p).holder ≠ some d → (t.ctx d).state = .swappingOut ∧ (t.ctx d).resident = false ∧ t.part p = s.part p)
        (((s.ctx c).fetchesAgain = true → ∀ v, (s.ctx c).itin.caravan = some v → ∀ g ∈ (s.ctx c).caravan.live, s.groupAway c v g = []) →
         fits → ∃ t, exec (.swapInStart p) s = .next t ∧ { t with ctxs := s.ctxs } = s ∧ (∀ d, d ≠ c → t.ctx d = s.ctx d) ∧
          { t.ctx c with caravan := (s.ctx c).caravan } = { s.ctx c with
            state := .swappingIn, swapFirst := false, under := if (s.ctx c).state = .parked then some .parked else none }) ∧
        (¬ fits → room → (∀ d ∈ ctxsOfPart p, (s.ctx d).resident = true → (s.ctx d).block ≠ none) →
          ∀ d b, (s.ctx d).block = some b → 1 ≤ b.cls → b.cls ≤ 4 →
          first d (fun e => ∀ x, (s.ctx e).block = some x → b.cls < x.cls ∨ (b.cls = x.cls ∧
            if b.cls = 4 then (match b.until_, x.until_ with
              | none, none => d < e
              | none, some _ => True
              | some _, none => False
              | some u, some w => w < u ∨ (u = w ∧ d < e))
            else (s.ctx d).residentSince < (s.ctx e).residentSince ∨ ((s.ctx d).residentSince = (s.ctx e).residentSince ∧ d < e))) →
          ∃ t, exec (.swapInStart p) s = .next t ∧ evicted d t ∧ t.sched = s.sched) ∧
        (¬ fits → room → (s.ctx c).runnableSince + 1000000 * bitsOf (s.part p).cfg.toNat 40 16 ≤ s.now →
          ∀ d, first d (fun e => (s.ctx d).residentSince < (s.ctx e).residentSince ∨
            ((s.ctx d).residentSince = (s.ctx e).residentSince ∧ d < e)) →
          ∃ t, exec (.swapAgeExpire p) s = .next t ∧ evicted d t ∧ t.sched = { s.sched with
            event := setBit s.sched.event 2, fresh := s.sched.fresh.add s.now 4 }))) ∧
    (∀ c, c < 128 → (s.ctx c).state = .swappingIn → ((s.ctx c).fetchesAgain = true → s.againHere c = true) → (∀ g o n, s.imageOf c = some g → g.poisoned o n = false) →
      let k := s.ctx c
      (k.walk.dropped = true → ∀ x ∈ k.upperCopies, ∃ g, s.page (partOfCtx c) x.2 = some g ∧ g.poison = false ∧ g.checks 0 65536 = true) →
      ∃ t : State, exec (.swapInDone c) s = .next t.serveWaiting ∧ (t.ctx c).resident = true ∧ (t.ctx c).everResident = true ∧
        (t.ctx c).residentSince = s.now ∧ (t.ctx c).under = none ∧ (t.ctx c).hostAnswer = false ∧
        (t.ctx c).state = (if k.under = some .parked ∨ k.parkPending = true then .parked else if k.complete then .finished else .ready) ∧
        ((t.ctx c).state = .ready → (t.ctx c).waitSince = if k.everReady then k.waitSince else s.now) ∧
        (k.everResident = true → k.hamper = false → (t.ctx c).walk.dropped = false) ∧
        ((k.everResident = false ∨ k.hamper = true) → (t.ctx c).store = k.store) ∧ (∀ d, d ≠ c → t.ctx d = s.ctx d) ∧
        (∀ v g, k.itin.caravan = some v → g ∈ t.images → g.part = partOfCtx c → g.id = v.imageId → g.open_ = false) ∧ t.out = s.out) ∧
    (∀ c, c < 128 → (s.ctx c).state = .swappingOut →
      let k := s.ctx c
      let gone (a : Nat) : Prop := (∃ r ∈ k.itin.regions, r.kind = 2 ∧ r.holds a 1 = true) ∨ ∃ x ∈ k.upperCopies, x.1 ≤ a ∧ a < x.1 + 65536
      ∃ t, exec (.swapOutDone c) s = .next t ∧ (t.ctx c).state = (if k.parkPending then .parked else .swapped) ∧
        (t.ctx c).runnableSince = s.now ∧ (∀ a, (gone a → rdByte (t.ctx c).store a = 0) ∧ (¬ gone a → rdByte (t.ctx c).store a = rdByte k.store a)) ∧
        (t.ctx c).walk = { k.walk with dropped := !k.upperCopies.isEmpty } ∧ (∀ e ∈ t.kvw.lab, ∀ x ∈ e.2, x.1 ≠ c) ∧
        (t.ctx c).saved = k.saved ∧ (t.ctx c).shelf = k.shelf ∧ (t.ctx c).step = k.step ∧
        (t.part (partOfCtx c)).swaps = satAdd 32 (s.part (partOfCtx c)).swaps 1 ∧ (∀ d, d ≠ c → t.ctx d = s.ctx d) ∧ t.out = s.out)

/-- WATCHDOG_EXPIRE (R369) and TEARDOWN_COMPLETE (R372, R373). That a second CTX_END that waited gets 0x0302, the context being gone, is the
model's reading (log entry 21). -/
def Obligations.WatchdogAndTeardown : Prop :=
  ∀ (s : State) (c : Nat), c < 128 →
    let k := s.ctx c
    (∀ h, k.state = .running → k.breach = false → s.stepArrived c = false → k.heldSince = some h →
      k.margin * (k.itin.bounds.getD k.bound 0 + k.policy.boundExt) + 100 * (k.policy.detourCycles * (k.sum.detoured - k.policy.allow)) <
        180 * (k.stepRun + (s.now - h) - k.extNs) →
      ∃ t, exec (.watchdogExpire c) s = .next t ∧ (t.ctx c).state = .tearingDown ∧ (t.ctx c).teardown = some { reason := 2, since := s.now } ∧
        (∀ d, d ≠ c → t.ctx d = s.ctx d) ∧ t.out = s.out ∧
        ((s.part (partOfCtx c)).holder = some c → (t.part (partOfCtx c)).holder = none ∧
          ∀ j ∈ s.stnsOfCtx c, (t.stn j).ctx = none ∧ t.arch j = {})) ∧
    (∀ td, k.state = .tearingDown → k.teardown = some td →
      ∃ t : State, exec (.teardownComplete c) s = .next t.serveWaiting ∧ (t.ctx c).state = .free ∧ (t.ctx c).handle = 0xFFFF ∧ (t.ctx c).store = [] ∧
        (t.ctx c).use_ = k.use_ ∧ (∀ d, d ≠ c → t.ctx d = s.ctx d) ∧ t.stns = s.stns ∧
        (∀ x ∈ t.host.qps, x.kind = 1 → x.ctx = c → x.error = true) ∧
        (∀ v, k.itin.caravan = some v → (∀ d ∈ s.imageUsers (partOfCtx c) v.imageId, d = c) →
          ∀ g ∈ t.images, ¬ (g.part = partOfCtx c ∧ g.id = v.imageId)) ∧
        t.part (partOfCtx c) = { s.part (partOfCtx c) with
          tdHandle := k.handle, tdReason := td.reason, tdDetail := td.detail, tdStation := td.station } ∧
        t.sched.event.getLsbD 0 = true ∧ (td.reason = 2 → t.sched.event.getLsbD 1 = true) ∧ (td.reason = 0x10 → t.sched.event.getLsbD 3 = true) ∧
        (s.faultSec ≠ s.second ∨ s.faultRate < 256 → ∃ e l, t.nv.faults = e :: l ∧ e.kind = 1 ∧ e.reason = td.reason.toNat ∧
          e.detail = td.detail.toNat ∧ e.ctx = k.handle ∧ e.station = td.station.toNat ∧ e.bundle = td.bundle ∧ e.job = k.itin.job ∧ e.step = k.step) ∧
        Posted s t 0x8002 k.handle (toBe 2 k.handle.toNat ++ toBe 1 td.reason.toNat ++ toBe 1 td.detail.toNat ++ toBe 2 td.station.toNat ++
          toBe 2 0 ++ toBe 4 td.bundle ++ toBe 4 k.itin.job.toNat ++ toBe 4 0 ++ toBe 8 k.step) ∧
        ∀ i o, k.owed[i]? = some o → (s.session o.slot).open_ = true → (s.session o.slot).number = o.pkt.session →
          (o.pkt.opcode = 0x42 → (∀ e ∈ k.owed.take i, e.pkt.opcode ≠ 0x42) → Replied s t o.pkt 0 0 (toBe 8 k.step)) ∧
          (o.pkt.opcode = 0x42 → (∃ e ∈ k.owed.take i, e.pkt.opcode = 0x42) → Replied s t o.pkt 0x0302 0 []) ∧
          (o.pkt.opcode = 0x61 → Replied s t o.pkt 0 0 (toBe 2 k.handle.toNat ++ toBe 6 0) ∧ k.itin.job ∉ t.fab.dead ∧
            (k.itin.job, s.now + 10000000) ∈ t.fab.quarantine) ∧
          (o.pkt.opcode ≠ 0x42 → o.pkt.opcode ≠ 0x61 → Replied s t o.pkt 0x0501 0 []))

/-- THERMAL_CROSSING, THERMAL_REPORT_HOLDOFF (R394), THERMAL_TRIP (R395), HBM_DOUBLED_REFRESH (R194). -/
def Obligations.TemperatureAndRefresh : Prop :=
  ∀ (s : State),
    (∀ x i n code key ctl trip, (x, n, code, key, ctl, trip) ∈
        [(Sensor.island, 1024, 1, i, (95 : Int), (115 : Int)), (.hbm, 32, 2, 1024 + i, 95, 105), (.gate, 4, 3, 1056 + i, 95, 115),
         (.converter, 4, 4, 1060 + i, 110, 125)] → i < n →
      let v := s.sens key
      let says_ (t : State) (kind : Nat) (temp : Int) : Prop :=
        Posted s t 0x8011 0xFFFF (toBe 1 kind ++ toBe 1 code ++ toBe 2 i ++ toBe 1 (min 255 temp.toNat) ++ toBe 3 0)
      let quiet (t : State) : Prop := t.ctxs = s.ctxs ∧ t.stns = s.stns ∧ t.parts = s.parts ∧ t.bring = s.bring ∧ t.gate = s.gate
      let crosses (t : State) (up : Bool) (temp : Int) : Prop :=
        (t.sens key).temp = temp ∧ (t.sens key).above = up ∧
        ((∃ e, v.lastEvent = some e ∧ s.now < e + 100000000) → (t.sens key).held = true ∧ t.out = s.out) ∧
        ((∀ e, v.lastEvent = some e → e + 100000000 ≤ s.now) → (t.sens key).reported = up ∧ (t.sens key).lastEvent = some s.now ∧
          says_ t (if up then 1 else 2) temp)
      (∀ temp, s.bring.powered = true →
        ∃ t, exec (.thermalCrossing x i temp) s = .next t ∧ quiet t ∧
          (v.above = false → ctl ≤ temp → crosses t true temp ∧ t.gov.event.getLsbD 4 = true ∧
            (x = .hbm → (t.stk i).event.getLsbD 2 = true)) ∧
          (v.above = true → temp ≤ ctl - 5 → crosses t false temp ∧ t.gov.event = s.gov.event) ∧
          ((v.above = false ∧ temp < ctl) ∨ (v.above = true ∧ ctl - 5 < temp) → t.out = s.out ∧ t.sens key = { v with temp := temp })) ∧
      (∀ e, v.held = true → v.lastEvent = some e → e + 100000000 ≤ s.now →
        ∃ t, exec (.thermalReportHoldoff x i) s = .next t ∧ quiet t ∧ (t.sens key).held = false ∧ (t.sens key).reported = v.above ∧
          (v.above = v.reported → t.out = s.out ∧ (t.sens key).lastEvent = v.lastEvent) ∧
          (v.above ≠ v.reported → (t.sens key).lastEvent = some s.now ∧ says_ t (if v.above then 1 else 2) v.temp)) ∧
      (∀ temp, s.bring.powered = true → trip ≤ temp →
        ∃ t, exec (.thermalTrip x i temp) s = .next t ∧ t.gov.thermtrip = true ∧ t.mode = (if s.mode = 4 then 4 else 3) ∧
          (∀ c < 128, (t.ctx c).state = .free) ∧ t.bring.diesOn = false ∧ t.images = [] ∧ t.pages = [] ∧ t.cst.split = [] ∧ t.cst.hbm = [] ∧
          (∀ j < 1024, (t.stn j).ctx = none ∧ t.arch j = {}) ∧ (s.mode ≠ 4 → ∀ k, t.session k = {}) ∧ t.nv.revoked = s.nv.revoked ∧
          (∀ r ∈ s.upPorts, Sent s t r 0x30 ⟨0, BitVec.ofNat 8 s.fabricId, 0, 0, 0, 0, 0, 0,
            toBe 8 Config.serial.toNat ++ toBe 1 3 ++ toBe 7 0, 0, 0⟩) ∧
          (∀ l, t.out = l ++ s.out → ∀ o ∈ l, match o with
            | .reply .. => False
            | _ => True) ∧
          ∀ k, (s.session k).open_ = true →
            (∃ e tag, Emitted s t (.event k e tag) ∧ e.opcode = 0x8011 ∧
              e.body = toBe 1 3 ++ toBe 1 code ++ toBe 2 i ++ toBe 1 (min 255 temp.toNat) ++ toBe 3 0) ∧
            ∀ c ∈ s.loadedCtxs, (s.ctx c).state ≠ .tearingDown →
              ∃ e tag, Emitted s t (.event k e tag) ∧ e.opcode = 0x8002 ∧ e.ctx = (s.ctx c).handle ∧
                e.body = toBe 2 (s.ctx c).handle.toNat ++ toBe 1 6 ++ toBe 1 0 ++ toBe 2 0xFFFF ++ toBe 2 0 ++ toBe 4 0 ++
                  toBe 4 (s.ctx c).itin.job.toNat ++ toBe 4 0 ++ toBe 8 (s.ctx c).step)) ∧
    (∀ n temp, n < 32 → s.bring.diesOn = true →
      let k := s.stk n
      ∃ t, exec (.hbmDoubledRefresh n temp) s = .next t ∧ (t.sens (1024 + n)).temp = temp ∧
        t.stk n = { k with
          doubled := decide (85 < temp), event := if 85 < temp ∧ k.doubled = false then setBit k.event 3 else k.event
          fresh := if 85 < temp ∧ k.doubled = false then k.fresh.add s.now 8 else k.fresh } ∧
        (∀ m, m ≠ n → t.stk m = s.stk m) ∧ { t with stks := s.stks, gov := s.gov } = s)

/-- SUPPLY_OUT, SUPPLY_OUT_CLEAR (R397), SHED, SHED_END (R398), LAST_GASP_SAVE (R399, R400, R435, R473), LEDGER_WINDOW_CLOSE
(R386, R389). When an input out of range is reported again before its clearing, and how long a save lasts, are the model's (log entry 17). -/
def Obligations.SupplyAndLedger : Prop :=
  ∀ (s : State), s.bring.powered = true →
    let power (t : State) (kind cause value : Nat) : Prop :=
      Posted s t 0x8010 0xFFFF (toBe 1 kind ++ toBe 1 cause ++ toBe 1 0 ++ toBe 1 0 ++ toBe 4 value ++ toBe 4 0 ++ toBe 4 0)
    let quiet (t : State) : Prop := t.ctxs = s.ctxs ∧ t.parts = s.parts ∧ t.bring = s.bring ∧ t.gate = s.gate ∧ t.nv = s.nv
    let side (mv : Nat) : Nat := if mv < 40000 then 1 else if 59500 < mv then 2 else 0
    let saves := s.saving = true ∨ (s.bring.removal = true ∧ s.bring.prsntHigh ≠ none)
    (∀ mv, 40000 ≤ mv → mv ≤ 59500 → exec (.supplyOut mv) s = .next s) ∧ (∀ mv, 38000 ≤ mv → exec (.shed mv) s = .next s) ∧
    (∀ i mv, (i = Instr.supplyOut mv ∧ ¬ (40000 ≤ mv ∧ mv ≤ 59500)) ∨ (i = Instr.shed mv ∧ mv < 38000) →
      (34000 ≤ mv ∨ s.armed = true →
        let sheds := mv < 38000 ∧ s.gov.shed = false ∧ s.bring.diesOn = true
        ∃ t, exec i s = .next t ∧ t.bring = s.bring ∧ t.gate = s.gate ∧ t.nv = s.nv ∧ t.gov.inputMv = mv ∧ t.gov.supplyOut = true ∧
          (s.gov.supplyOut = false ∨ side s.gov.inputMv ≠ side mv → t.gov.event.getLsbD 5 = true ∧ power t 5 (side mv) mv) ∧
          (s.gov.supplyOut = true → side s.gov.inputMv = side mv → ¬ sheds → t.gov.event = s.gov.event ∧ t.out = s.out) ∧
          (sheds → t.gov.shed = true ∧ t.gov.event.getLsbD 6 = true ∧ power t 6 0 mv ∧ (∀ j < 1024, (t.stn j).island.target = 1000) ∧
            (∀ j, (t.arch j).weaveRun.map (·.op) = (s.arch j).weaveRun.map (·.op) ∧
              { t.arch j with weaveRun := (s.arch j).weaveRun } = s.arch j) ∧
            (∀ c, { t.ctx c with energy := (s.ctx c).energy } = s.ctx c) ∧ ∀ n, { t.part n with gov := (s.part n).gov } = s.part n) ∧
          (¬ sheds → quiet t ∧ t.gov.shed = s.gov.shed ∧ t.stns = s.stns)) ∧
      (mv < 34000 → s.armed = false → ∃ t, exec i s = .next t ∧ t.bring.powered = false ∧ t.bring.diesOn = false ∧ t.nv = s.nv ∧
        (∀ k, t.session k = {}) ∧ t.out = s.out)) ∧
    (∀ mv, s.gov.supplyOut = true → 40500 ≤ mv → mv ≤ 59000 →
      ∃ t, exec (.supplyOutClear mv) s = .next t ∧ quiet t ∧ t.stns = s.stns ∧
        t.gov = { s.gov with supplyOut := false, inputMv := mv } ∧ power t 5 3 mv) ∧
    (∀ mv, s.gov.shed = true → 40000 ≤ mv →
      ∃ t, exec (.shedEnd mv) s = .next t ∧ quiet t ∧ t.stns = s.stns ∧ t.gov = { s.gov with shed := false, inputMv := mv } ∧ power t 7 0 mv) ∧
    (∀ mv after, mv < 34000 ∨ 62000 < mv → s.armed = true → saves → 40000 ≤ after →
      ∃ t, exec (.lastGaspSave ⟨mv, after⟩) s = .next t ∧ t.nv = s.nv ∧ t.bring = s.bring ∧ t.gate = s.gate ∧ t.images = s.images ∧
        t.gov.inputMv = after) ∧
    (∀ mv after, mv < 34000 ∨ 62000 < mv → s.armed = true → ¬ saves →
      ∃ t, exec (.lastGaspSave ⟨mv, after⟩) s = .next t ∧ (∀ c, t.ctx c = {}) ∧ (∀ n < 8, (t.part n).holder = none) ∧ t.bring.diesOn = false ∧
        t.bring.powered = decide (40000 ≤ after) ∧ t.gov.inputMv = after ∧ t.mode = (if s.mode = 4 then 4 else 3) ∧ (s.mode ≠ 4 → ∀ k, t.session k = {}) ∧
        t.images = [] ∧ t.pages = [] ∧ t.cst.hbm = [] ∧ t.cst.split = [] ∧
        s.now < t.bring.saveEnd ∧ t.bring.saveEnd ≤ s.now + 3000000 ∧
        (s.gov.meterSince ≠ none → ∃ r, t.nv.savedRec = some r ∧ r.window = s.gov.openWindow ∧ bitOf r.flags 3 = true ∧ bitOf r.flags 2 = false) ∧
        (s.gov.meterSince = none → t.nv.savedRec = s.nv.savedRec) ∧
        (∀ c ∈ s.loadedCtxs, ∃ e ∈ t.nv.faults, e.kind = 1 ∧ e.reason = 7 ∧ e.flags = 2 ∧ e.ctx = (s.ctx c).handle ∧ e.step = (s.ctx c).step) ∧
        (∀ r ∈ s.upPorts, Sent s t r 0x30 ⟨0, BitVec.ofNat 8 s.fabricId, 0, 0, 0, 0, 0, 0,
          toBe 8 Config.serial.toNat ++ toBe 1 2 ++ toBe 7 0, 0, 0⟩) ∧
        (∀ l, t.out = l ++ s.out → ∀ o ∈ l, match o with
          | .event _ e _ => e.opcode = 0x8010
          | .reply .. => False
          | _ => True)) ∧
    (let n := s.gov.openWindow
     let stop := 60000000000 * (n + 1)
     s.gov.meterSince ≠ none → stop ≤ s.now →
      let r := s.openRecord stop false false
      (r.window = n ∧ r.startUs = s.gov.openStart / 1000 ∧ r.lengthMs = (stop - s.gov.openStart) / 1000000 ∧
        bitOf r.flags 0 = decide (s.gov.openStart ≠ 60000000000 * n) ∧ bitOf r.flags 2 = false ∧ bitOf r.flags 3 = false ∧
        bitOf r.flags 4 = s.gov.openFallback ∧ bitOf r.flags 5 = s.gov.openBreach) ∧
      ∃ t, exec .ledgerWindowClose s = .next t ∧ quiet t ∧ t.stns = s.stns ∧ t.gov.windows = (r :: s.gov.windows).take 64 ∧
        t.gov.openWindow = n + 1 ∧ t.gov.openStart = stop ∧ t.gov.openBreach = false ∧ t.gov.openModel = 0 ∧
        t.gov.openFallback = (s.gov.source != 1) ∧ (bitOf r.flags 1 = false → t.gov.event.getLsbD 3 = true) ∧
        Posted s t 0x8010 0xFFFF (toBe 1 4 ++ toBe 1 (b2n (bitOf r.flags 1)) ++ toBe 1 0 ++ toBe 1 0 ++ toBe 4 r.peak1sW ++ toBe 4 0 ++
          toBe 4 n))

/-- ALARM_FIRE (R424, R427, R428, R430), FW_INTEGRITY_CHECK (R427 source 6), JTAG_INSTRUCTION (R429, R484). The aligned authentication
window is the model's choice (log entry 22), whose context an engine's trip ends and the alarms that are only logged during a ZEROIZE, a
contain or an erase are log entry 23, and what a debug code names is log entry 21. -/
def Obligations.AlarmsAndJtag : Prop :=
  ∀ (s : State), s.bring.powered = true →
    let acts (w t : State) (src : Nat) (det : Word) (part : Nat) : Prop :=
      let level := s.nv.policy.levels.getD src 0
      let during := s.now < s.sec.containEnd
      let action := if s.saving then 0 else if s.cmd.responsive = false then 3 else if s.sec.zeroizing then 0
        else if during then (if level = 2 ∧ s.sec.containLevel < 2 then 2 else 0) else if s.outranked level then 0 else level
      let n := mget 0 s.sec.counts src + 1
      t.nv.alog.head? = some ⟨s.uptimeUs, s.nv.bootCount, src, level, action, det, part⟩ ∧ t.nv.alogCount = s.nv.alogCount + 1 ∧
      t.sec.alarms = satAdd 32 s.sec.alarms 1 ∧ mget 0 t.sec.counts src = n ∧ t.sec.event.getLsbD 2 = true ∧
      t.nv.revoked = (s.nv.revoked || (level == 2 && (s.saving || s.cmd.responsive) && (s.saving || s.sec.zeroizing || !decide during || s.sec.containLevel < 2))) ∧
      (∀ k, (s.session k).open_ = true → ∃ e tag, Emitted s t (.event k e tag) ∧ e.opcode = 0x8020 ∧
        e.body = toBe 1 src ++ toBe 1 level ++ toBe 1 action ++ toBe 1 part ++ toBe 4 n ++ toBe 8 det.toNat) ∧
      t.sec.deferred = (if s.saving || s.cmd.responsive then s.sec.deferred else s.sec.deferred ++ [(src, part, det)]) ∧
      (during ∧ action = 2 → t.sec.event.getLsbD 4 = true ∧ t.sec.containLevel = 2 ∧ t.sec.containEnd = s.sec.containEnd) ∧
      (action = 0 ∨ action = 3 ∨ during → t.ctxs = w.ctxs ∧ t.parts = w.parts ∧ t.gate = s.gate ∧ t.stns = w.stns ∧ t.sec.contained = s.sec.contained) ∧
      (action = 1 ∨ action = 2 → ¬ during → t.sec.contained = true ∧ t.sec.containLevel = level ∧ s.now < t.sec.containEnd ∧
        t.sec.containEnd ≤ s.now + 5000000 ∧ (∀ c < 128, (t.ctx c).state = .free) ∧ (∀ p < 8, (t.part p).key = 0) ∧
        t.sec.atPriv = none ∧ (∀ k, t.session k = {}) ∧ t.mode = (if s.mode = 4 then 4 else 3) ∧ t.cst.split = [] ∧
        t.sec.event.getLsbD (action + 2) = true ∧
        ∀ r ∈ s.upPorts, Sent s t r 0x30 ⟨0, BitVec.ofNat 8 s.fabricId, 0, 0, 0, 0, 0, 0,
          toBe 8 Config.serial.toNat ++ toBe 1 3 ++ toBe 7 0, 0, 0⟩)
    (∀ l ∈ s.nv.policy.levels, l ≤ 2) →
    (∀ who det, (∀ src, src = 1 ∨ src = 2 ∨ src = 3 → (src = 1 → s.gov.supplyOut = false) → ∃ t, exec (.alarmFire src who det) s = .next t ∧ acts s t src det 0xFF) ∧
      (∃ t, exec (.alarmFire 4 who det) s = .next t ∧ acts s t 4 0 0xFF ∧ t.sec.tamperOpen = true) ∧
      (s.gov.supplyOut = true → exec (.alarmFire 1 who det) s = .next s) ∧
      (let n := s.cmd.authFails - s.sec.authBase
       let due := s.sec.authFired = false ∧ s.sec.authSince = s.second / max 1 s.nv.policy.authWindowS ∧ s.nv.policy.authLimit < n
       (due → ∃ t, exec (.alarmFire 5 who det) s = .next t ∧ acts s t 5 (BitVec.ofNat 64 n) 0xFF ∧ t.sec.authFired = true) ∧
       (¬ due → exec (.alarmFire 5 who det) s = .next s)) ∧
      (∃ t, exec (.alarmFire 6 who det) s = .next t ∧ acts s t 6 0 0xFF) ∧
      (let n := det.toNat % 2 ^ 20
       let part := who.partition
       let named := who.ctx.or (if n / 65536 ≤ 2 then (s.stn (n % 65536)).ctx else none)
       let tears (c : Nat) : Prop := named = some c ∧ c < 128 ∧ partOfCtx c = part
       ∃ w t, exec (.alarmFire 7 who det) s = .next t ∧ acts w t 7 (BitVec.ofNat 64 (part % 16 * 2 ^ 20 + n)) part ∧ t.sec.event.getLsbD 0 = true ∧
        t.sec.trips = satAdd 32 s.sec.trips 1 ∧ t.sec.tripAgent.toNat = n % 65536 ∧
        t.sec.tripKind.toNat = n / 65536 ∧ t.sec.tripPart.toNat = part % 16 ∧
        ((∀ c, ¬ tears c) → w = { s with sec := w.sec }) ∧
        ∀ c, tears c → (∀ d, d ≠ c → w.ctx d = s.ctx d) ∧
          ((s.ctx c).state ≠ .free → (s.ctx c).state ≠ .tearingDown → (w.ctx c).state = .tearingDown ∧
            (w.ctx c).teardown = some { reason := 8, since := s.now }))) ∧
    (∀ digest, (digest = Config.codeDigest s.runningBank.image ∨ s.cmd.responsive = false → exec (.fwIntegrityCheck digest) s = .next s) ∧
      (digest ≠ Config.codeDigest s.runningBank.image → s.cmd.responsive = true →
        ∃ t, exec (.fwIntegrityCheck digest) s = .next t ∧ acts s t 6 0 0xFF)) ∧
    (∀ op, let allowed := match op with
        | .bypass | .idcode | .samplePreload => True
        | .extest => s.mode = 0 ∨ s.mode = 3
        | .debug _ => s.nv.policy.isolation = false
      (¬ allowed → exec (.jtagInstruction op) s = .next s) ∧
      (allowed → ∃ t d, exec (.jtagInstruction op) s = .next t ∧ t.bring = { s.bring with trstHigh := true, tdo := none } ∧ t.sec = { s.sec with jtag := some (op, match op with
          | .debug n => s.debugRead n
          | _ => Config.debugValue d) } ∧
        { t with sec := s.sec, bring := s.bring, free := s.free } = s))

/-- POWER_APPLIED, BOOT_ROM, RESERVOIR_CHARGED, HBM_TRAINING_DONE, SELF_TEST_DONE (R434-R436, R409-R412), RST_N_LOW, RST_N_RELEASE,
RESET_TEMPERATURE_OK, HBM_ZERO_DONE (R396, R425, R437, R438), TRAY_REMOVAL, PRESENCE_CLOSE (R471, R473, R487). GATE_MODE 0x03 of a
hot warm reset and RST_N during a ZEROIZE or a removal rest on log entry 25, and POWER_APPLIED from any state on log entry 13. -/
def Obligations.BringUpAndResets : Prop :=
  ∀ (s : State),
    let resets (t : State) (low : Option Nat) : Prop := (∀ c, t.ctx c = {}) ∧ (∀ k, t.session k = {}) ∧ t.now = s.now ∧
      t.bring.romDone = false ∧ t.bring.diesOn = false ∧ t.bring.warm = true ∧ t.bring.zeroPending = true ∧ t.bring.removal = false ∧
      t.bring.rstLow = low ∧ t.gov.envelope = s.nv.fallbackW ∧ (∀ j < 1024, (t.stn j).failed = (s.stn j).failed) ∧
      t.bring.hot = (s.above90 || s.bring.hot) ∧ t.mode = if s.above90 || s.bring.hot then 3 else 0
    let settled (k : Stk) : BitVec 8 := if k.live ≠ 0 then 2 else if k.removed = BitVec.allOnes 64 then 4 else 3
    let splits (t : State) : Prop := t.mode = 1 ∧ t.bring.warm = false ∧ t.bring.hot = false ∧ t.bring.zeroPending = false ∧
      t.gov.thermtrip = false ∧ t.sched.count = s.nv.layout ∧ (∀ c, t.ctx c = {}) ∧ t.images = [] ∧ t.pages = [] ∧ t.cst.hbm = [] ∧
      t.cst.split = [] ∧ (∀ p < s.nv.layout, (t.part p).holder = none ∧ (t.part p).key = 0 ∧ (t.part p).pages = 0) ∧
      t.nv.rollback = max s.nv.rollback s.sec.imageRollback ∧ (s.nv.rollback < s.sec.imageRollback → t.sec.event.getLsbD 6 = true)
    let powers (t : State) : Prop := t.bring.diesOn = true ∧
      (∀ j < 1024, (t.stn j).tally = {} ∧ (t.stn j).slice = {} ∧ t.arch j = s.arch j) ∧ ∀ n < 32, (t.stk n).state = 1 ∧ (t.stk n).tally = {}
    (∀ mv, (mv < 40000 → exec (.powerApplied mv) s = .next s) ∧
      (40000 ≤ mv → ∃ t, exec (.powerApplied mv) s = .next t ∧ t.nv = s.nv ∧ t.now = 0 ∧ t.mode = 0 ∧ t.bring.powered = true ∧
        t.bring.pgood = true ∧ t.sec.tamperOpen = s.sec.tamperOpen ∧ t.bring.romDone = false ∧ t.bring.diesOn = false ∧ t.bring.rstLow = s.bring.rstLow ∧
        t.bring.prsntHigh = s.bring.prsntHigh ∧ (∀ c, t.ctx c = {}) ∧ (∀ k, t.session k = {}) ∧ (∀ j, t.stn j = {}) ∧
        (∀ n, t.stk n = {}) ∧ t.gov.envelope = s.nv.fallbackW ∧ t.gov.event.getLsbD 7 = s.nv.savedRec.isSome ∧
        t.sched.count = s.nv.layout ∧ t.images = [] ∧ t.pages = [] ∧ t.pending = s.pending)) ∧
    (s.bring.powered = true → s.bring.pgood = true → s.bring.romDone = false → s.bring.stopped = false → s.bring.rstLow = none →
      s.bring.diesOn = false → s.mode = 0 → s.cmd.waiting = [] → s.sec.deferred = [] →
      let passes (b : Bool) : Prop := fwCheck (if b then s.nv.bankB else s.nv.bankA).image s.nv.rollback = 0
      let first := s.nv.nextBank
      let boots (b : Bool) (t : State) : Prop :=
        let img := (if b then s.nv.bankB else s.nv.bankA).image
        let fw := leAt img 16 8
        let serial := toBe 8 Config.serial.toNat
        let idSeed := hkdf (ascii "NGK7 identity") (toBe 32 Config.uds.toNat) serial 32
        let atSeed := hkdf (sha512 img) idSeed (ascii "NGK7 attestation") 32
        t.sec.bootBank = b ∧ t.nv.nextBank = b ∧ t.gate.fw = BitVec.ofNat 64 fw ∧ t.bring.romDone = true ∧ t.cmd.responsive = true ∧
        t.sec.contained = false ∧ t.sec.imageRollback.val = leAt img 26 1 ∧ t.gov.meterSince.isSome = true ∧
        (if s.nv.revoked then t.sec.atPriv = s.sec.atPriv else
          t.sec.atPriv = some atSeed ∧ t.sec.idPub = edPublic idSeed ∧ t.sec.atPub = edPublic atSeed ∧ t.sec.aliasSig = edSign idSeed
            (serial ++ toBe 8 fw ++ toBe 1 s.nv.rollback ++ sha512 img ++ edPublic atSeed)) ∧
        (∀ r < 8, (t.port r).state = 1 ∧ (t.port r).step = 1) ∧ (if s.bring.prsntHigh = none ∧ s.bring.reservoir = true then powers t else t.bring.diesOn = false)
      ∃ t, exec .bootRom s = .next t ∧ t.nv.bootCount = s.nv.bootCount + 1 ∧ t.nv.rollback = s.nv.rollback ∧ t.bring.fuseLocked = true ∧
        (passes first → boots first t) ∧ (¬ passes first → passes (!first) → boots (!first) t ∧ t.sec.event.getLsbD 5 = true) ∧
        (¬ passes first → ¬ passes (!first) → t.bring.stopped = true ∧ t.bring.romDone = false ∧ t.gate = s.gate ∧ t.cmd = s.cmd)) ∧
    (s.bring.powered = true → s.bring.romDone = true →
      let charged := { s with bring := { s.bring with reservoir := true } }
      (s.bring.diesOn = true ∨ s.mode ≠ 0 ∨ s.bring.prsntHigh ≠ none → exec .reservoirCharged s = .next charged) ∧
      (s.bring.diesOn = false → s.mode = 0 → s.bring.prsntHigh = none →
        ∃ t, exec .reservoirCharged s = .next t ∧ powers t ∧ t.bring = { charged.bring with diesOn := true } ∧
          { t with stns := s.stns, stks := s.stks, bring := s.bring } = s)) ∧
    (∀ failed, s.bring.diesOn = true → s.bring.trained = false → s.mode = 0 →
      ∃ t, exec (.hbmTrainingDone failed) s = .next t ∧ t.bring = { s.bring with trained := true } ∧ t.gate = s.gate ∧
        (∀ n < 32, (∀ ch < 32, ∀ h < 2, (t.stk n).live.getLsbD (2 * ch + h) =
            (!(s.stk n).out.getLsbD (2 * ch + h) && !(s.stk n).removed.getLsbD (2 * ch + h) && !failed.contains (n, ch))) ∧
          (t.stk n).state = settled (t.stk n) ∧ ∀ ch < 32, (n, ch) ∈ failed → (t.stk n).event.getLsbD 1 = true) ∧
        ∀ j < 1024, t.stn j = { s.stn j with state := if (s.stn j).failed then 4 else 5 }) ∧
    (∀ (r : SelfTest), s.bring.trained = true → s.bring.selfTested = false → s.mode = 0 → s.nv.layout ∈ [1, 2, 4, 8] →
      ∃ t, exec (.selfTestDone r) s = .next t ∧ t.bring.selfTested = true ∧
        (s.bring.zeroPending = false → splits t) ∧
        (s.bring.zeroPending = true → t.mode = 0 ∧ t.bring = { s.bring with selfTested := true } ∧ t.ctxs = s.ctxs ∧ t.parts = s.parts) ∧
        (∀ j < 1024, (t.stn j).failed = ((s.stn j).failed || (r.stations.map (·.1)).contains j || r.slices.contains j || r.served.contains j) ∧
          (t.stn j).state = (if (t.stn j).failed then 4 else 0) ∧ t.arch j = {} ∧ (t.stn j).ctx = none ∧
          ∀ l < 4, (t.stn j).linkUp.getLsbD l = ((linkFar j l).isSome && !(t.stn j).linkFailed.getLsbD l)) ∧
        (∀ j l far, (j, l) ∈ r.links → linkFar j l = some far →
          (t.stn j).linkFailed.getLsbD l = true ∧
            ((s.stn j).linkFailed.getLsbD l = false → (t.stn far).linkFailed.getLsbD (linkBack l) = true ∧
              (t.stn j).fault.getLsbD 6 = true ∧ (t.stn far).fault.getLsbD 6 = true)) ∧
        ∀ n < 32, (t.stk n).state = settled (t.stk n) ∧
          ∀ ch < 32, (n, ch) ∈ r.channels → (t.stk n).live.getLsbD (2 * ch) = false ∧ (t.stk n).live.getLsbD (2 * ch + 1) = false) ∧
    (s.bring.rstLow = none → ∃ t, exec .rstNLow s = .next t ∧ t.bring.rstLow = some s.now ∧
      (s.bring.powered = true → s.mode ≠ 4 → s.sec.zeroizing = false → (s.bring.removal = false ∨ s.saving = false) →
        resets t (some s.now)) ∧
      (s.bring.powered = false ∨ s.mode = 4 ∨ s.sec.zeroizing = true ∨ (s.bring.removal = true ∧ s.saving = true) →
        { t with bring := s.bring } = s)) ∧
    exec .rstNRelease s = .next { s with bring := { s.bring with rstLow := none } } ∧
    (∀ temp, s.bring.hot = true → s.bring.powered = true → s.mode = 3 → s.sec.zeroizing = false →
      (90 < temp → exec (.resetTemperatureOk temp) s = .next s) ∧
      (temp ≤ 90 → ∃ t, exec (.resetTemperatureOk temp) s = .next t ∧ t.mode = 0 ∧ t.bring = { s.bring with hot := false } ∧
        { t with gate := s.gate, bring := s.bring } = s)) ∧
    (s.bring.zeroPending = true → s.bring.trained = true →
      (s.bring.selfTested = false ∨ s.mode ≠ 0 → exec .hbmZeroDone s = .next { s with bring := { s.bring with zeroPending := false } }) ∧
      (s.bring.selfTested = true → s.mode = 0 → s.nv.layout ∈ [1, 2, 4, 8] → ∃ t, exec .hbmZeroDone s = .next t ∧ splits t)) ∧
    (s.bring.prsntHigh = none →
      (s.bring.powered = false → exec .trayRemoval s = .next { s with bring := { s.bring with prsntHigh := some s.now } }) ∧
      (s.bring.powered = true → s.saving = true → ∃ t, exec .trayRemoval s = .next t ∧ t.gate = s.gate ∧ t.ctxs = s.ctxs ∧ t.out = s.out ∧
        t.bring = { s.bring with prsntHigh := some s.now, removal := true } ∧ t.nv.savedRec = s.nv.savedRec ∧
        (t.nv = s.nv ∨ ∃ e ∈ t.nv.faults, e.kind = 0x0B ∧ e.flags = 2)) ∧
      (s.bring.powered = true → s.saving = false → ∃ t, exec .trayRemoval s = .next t ∧ t.bring.prsntHigh = some s.now ∧ t.bring.removal = true ∧
        t.bring.diesOn = false ∧ (∀ c, t.ctx c = {}) ∧ t.mode = (if s.mode = 4 then 4 else 3) ∧
        (∀ c ∈ s.loadedCtxs, ∃ e ∈ t.nv.faults, e.kind = 1 ∧ e.reason = 0x0B ∧ e.flags = 2 ∧ e.ctx = (s.ctx c).handle) ∧
        (∃ e ∈ t.nv.faults, e.kind = 0x0B ∧ e.flags = 2) ∧
        ∀ q ∈ s.upPorts, Sent s t q 0x30 ⟨0, BitVec.ofNat 8 s.fabricId, 0, 0, 0, 0, 0, 0,
          toBe 8 Config.serial.toNat ++ toBe 1 1 ++ toBe 7 0, 0, 0⟩)) ∧
    (∃ t, exec .presenceClose s = .next t ∧ t.bring.prsntHigh = none ∧
      (∀ z, s.bring.removal = true → s.bring.rstLow = some z → s.bring.powered = true → s.mode ≠ 4 → s.sec.zeroizing = false →
        resets t (some z)) ∧
      (s.bring.removal = false ∨ s.bring.rstLow = none → s.bring.powered = true → s.bring.romDone = true → s.bring.reservoir = true →
        s.bring.diesOn = false → s.mode = 0 → powers t))

/-- The reset state (R439): gate, station and store registers. That memories, registers, saddlebags and token counters read 0 is the
model's choice (log entries 3 and 40), the pins' levels and MRAM as shipped are log entries 13 and 24. -/
def Obligations.ResetState : Prop :=
  let s := State.reset
  s.pending = [] ∧ s.now = 0 ∧ s.mode = 0 ∧ s.out = [] ∧ s.images = [] ∧ s.pages = [] ∧ s.sched.count = 1 ∧ s.bring.powered = true ∧
  s.bring.romDone = false ∧ s.bring.diesOn = false ∧ s.gov.envelope = 2400 ∧ s.gov.source = 0 ∧
  (∀ c, (s.ctx c).state = .free ∧ ∀ a, rdByte (s.ctx c).store a = 0) ∧ (∀ k, (s.session k).open_ = false) ∧
  (∀ p, (s.part p).holder = none) ∧ s.regRead 0 = some 0x00004E474B370A27 ∧ s.regRead 8 = some 0x4200 ∧ s.regRead 0x10 = some 0 ∧
  s.regRead 0x28 = some 0 ∧ s.regRead 0x30 = some 0 ∧ s.regRead 0x38 = some 0 ∧
  ∀ i < 1024, let base := 0x1000000 + 0x10000 * i
    s.regRead (base + 8) = some 0xFFFF0000 ∧ s.regRead (base + 0x10) = some 0x08340000FFFF ∧ s.regRead (base + 0x18) = some 0 ∧
    (∀ r, (s.arch i).sreg r = 0) ∧ (∀ r, (s.arch i).vreg r = 0) ∧ (∀ a, rdByte (s.arch i).saddle a = 0) ∧ ∀ k, (s.arch i).token k = 0

/-- STN_ID (R57). -/
def Obligations.StationIdentity : Prop :=
  ∀ (s : State) (i : Nat), i < 1024 → ∃ v, s.regRead (0x1000000 + 0x10000 * i) = some v ∧ v = i ∧ bitsOf v 10 54 = 0 ∧
    bitsOf v 8 2 = i / 256 ∧ bitsOf v 4 4 = i / 16 % 16 ∧ bitsOf v 0 4 = i % 16

/-- Partition-relative numbers (R351), with the rule's example. -/
def Obligations.PartitionUnits : Prop :=
  ∀ (s : State) (e : Nat), (s.sched.count, e) ∈ [(1, 8), (2, 4), (4, 2), (8, 1)] →
    (∀ p < s.sched.count,
      (∀ i, (s.stnsOfPart p)[i]? = if i < 128 * e then some (128 * p * e + i) else none) ∧
      (∀ i, (s.stksOfPart p)[i]? = if i < 4 * e then some (4 * p * e + i) else none)) ∧
    (s.sched.count = 4 → (∀ j, j ∈ s.stnsOfPart 2 ↔ 512 ≤ j ∧ j ≤ 767) ∧ (∀ j, j ∈ s.stksOfPart 2 ↔ 16 ≤ j ∧ j ≤ 23) ∧
      (s.stnsOfPart 2)[130]? = some 642 ∧ 642 / 256 = 2 ∧ 642 / 16 % 16 = 8 ∧ 642 % 16 = 2)

/-- Decoding and encoding of bundles agree in both directions (R92-R94, R101, R102, R112, R113, R135, R147, R148). -/
def Obligations.BundlesRoundTrip : Prop :=
  (∀ b : Bundle, bundlePlain b = true → decodeBundle (encodeBundle b) = some b) ∧
  ∀ (w : BitVec 256) (b : Bundle), decodeBundle w = some b → encodeBundle b = w ∧ bundlePlain b = true

/-- The queue is first in, first out, and no command reorders or adds to it; the empty queue (the model's choice, log entry 2) and the
commands that wait behind a FW_UPDATE (log entry 47). -/
def Obligations.QueueAndTime : Prop :=
  (∀ (s t : State) (c : Instr) (rest : List Instr), s.pending = c :: rest → step s = .next t → t.pending = rest) ∧
  ∀ (s : State), s.pending = [] →
    (s.bring.powered = false → step s = .next s) ∧
    (s.bring.powered = true → s.cmd.serial = [] → ∃ t, step s = .next t ∧ t.now = s.now + 1000 ∧
      { t with now := s.now, ctxs := s.ctxs, parts := s.parts, sec := s.sec, nv := s.nv, cmd := s.cmd, host := s.host, tally := s.tally,
               out := s.out, fab := s.fab, stns := s.stns, stks := s.stks, free := s.free } = s ∧
      (∀ j, { t.stn j with slice := (s.stn j).slice, island := (s.stn j).island } = s.stn j ∧
        { (t.stn j).slice with prog := (s.stn j).slice.prog } = (s.stn j).slice ∧
        { (t.stn j).island with waited := (s.stn j).island.waited } = (s.stn j).island) ∧
      (∀ n, { t.stk n with tally := (s.stk n).tally } = s.stk n) ∧
      t.cmd.beatAt = (if s.cmd.responsive then some (s.now + 1000) else s.cmd.beatAt) ∧
      (s.sec.fwWrite = none → t.sec = s.sec ∧ t.nv = s.nv) ∧
      ((∀ r < 8, (s.port r).draining = none) → { t.fab with drovers := s.fab.drovers } = s.fab ∧
        (∀ d, { t.drover d with tally := (s.drover d).tally } = s.drover d) ∧
        (s.sec.fwWrite = none → { t.cmd with beatAt := s.cmd.beatAt } = s.cmd ∧ t.host = s.host ∧ t.tally = s.tally ∧ t.out = s.out)) ∧
      (∀ r < 8, ∀ a, (s.port r).draining = some a →
        if (s.port r).unacked = [] ∨ a + 100000 ≤ s.now + 1000
        then (t.port r).draining = none ∧ (t.port r).unacked = [] ∧ (t.port r).state = (if (s.port r).disable then 7 else 1)
        else t.port r = s.port r) ∧
      (s.bring.diesOn = false → t.parts = s.parts ∧ t.stns = s.stns ∧ t.stks = s.stks ∧ t.free = s.free) ∧
      (∀ p, { t.part p with gov := (s.part p).gov } = s.part p) ∧
      ∀ c, { t.ctx c with extNs := (s.ctx c).extNs, lifeExt := (s.ctx c).lifeExt, blockSince := (s.ctx c).blockSince,
                          blocked := (s.ctx c).blocked, energy := (s.ctx c).energy } = s.ctx c ∧
        ((∀ p, (s.part p).holder ≠ some c) → { t.ctx c with energy := (s.ctx c).energy } = s.ctx c)) ∧
    (s.bring.powered = true → s.sec.fwRead ≠ none ∨ (∃ w, s.sec.fwWrite = some w ∧ 1 < w.left) →
      ∃ t, step s = .next t ∧ t.cmd.serial = s.cmd.serial) ∧
    (∀ k p, s.bring.powered = true → s.sec.fwRead = none → s.sec.fwWrite = none → s.cmd.serial = [(k, p)] →
      (s.session k).open_ = true → (s.session k).number = p.session →
      let leased := s.cmd.baton = some k ∧ s.now + 1000 < s.cmd.batonEnd
      ∃ t, step s = .next t ∧ t.cmd.serial = [] ∧
        (p.opcode ≠ 0x21 → ¬ leased → Replied s t p 0x0203 0 []) ∧
        (p.opcode = 0x51 → leased → p.params.length = 40 → zeroAt p.params 1 7 = true → s.hasPart (beAt p.params 0 1) = true →
          Replied s t p 0 0 [] ∧ (t.part (beAt p.params 0 1)).key = BitVec.ofNat 256 (beAt p.params 8 32)))

/-- The one-time fuses (R407, R411, R428). -/
def Obligations.FusesStayBlown : Prop :=
  ∀ (s t : State), step s = .next t →
    (s.nv.revoked = true → t.nv.revoked = true) ∧ s.nv.rollback ≤ t.nv.rollback ∧
    (s.nv.rollback < t.nv.rollback → t.nv.rollback = s.sec.imageRollback)

/-- The canonical form of memory is an invariant of every step, and holds at reset. -/
def Obligations.MemoryStaysCanonical : Prop :=
  let sound (s : State) : Prop := (∀ c, Mem.wf (s.ctx c).store = true ∧ ∀ r, Mem.wf (mget {} (s.ctx c).saved r).saddle = true) ∧
    (∀ j, Mem.wf (s.arch j).saddle = true) ∧ (∀ g ∈ s.images, Mem.wf g.data = true) ∧ Mem.wf s.cst.split = true ∧ Mem.wf s.cst.hbm = true
  sound State.reset ∧ ∀ (s t : State), sound s → step s = .next t → sound t
end

