-- ==== Sys2Proof/Laws/Crypto.lean ====
section
/-!
SUPPORT. Lengths of hashes and tags, and the multiples of the neutral point of the signature curve.
-/

namespace Sys2Proof.Machine

@[simp] theorem toLe_length (n v : Nat) : (toLe n v).length = n := by
  induction n generalizing v with
  | zero => rfl
  | succ n ih => simp [toLe, ih]

@[simp] theorem toBe_length (n v : Nat) : (toBe n v).length = n := by
  simp [toBe]

theorem shaRound_length (v : List Word) (kw : Word) : (shaRound v kw).length = v.length := by
  unfold shaRound; split <;> simp

theorem shaRounds_length (ks w : List Word) (n : Nat) (v : List Word) : (shaRounds ks w n v).length = v.length := by
  induction ks generalizing w n v with
  | nil => rfl
  | cons k ks ih => unfold shaRounds; split <;> simp [ih, shaRound_length]

theorem shaBlock_length (h : List Word) (bs : Bytes) : (shaBlock h bs).length = h.length := by
  simp [shaBlock, shaRounds_length]

theorem shaBlocks_length (n : Nat) (bs : Bytes) (h : List Word) : (shaBlocks n bs h).length = h.length := by
  induction n generalizing bs h with
  | zero => rfl
  | succ n ih => simp [shaBlocks, ih, shaBlock_length]

/-- A hash has 8 bytes for each word of its initial value. -/
theorem shaFrom_length (init : List Word) (m : Bytes) : (shaFrom init m).length = 8 * init.length := by
  simp [shaFrom, List.length_flatMap, shaBlocks_length, Nat.mul_comm]

/-- The tag of R329 has 32 bytes. -/
@[simp] theorem plouthTag_length (key m : Bytes) : (plouthTag key m).length = 32 := by
  simp [plouthTag, hmac, sha512t256, shaFrom_length, sha512t256Init]

theorem subMod_zero (y : Nat) : subMod y 0 = y % p25519 := by
  simp [subMod]

theorem subMod_self (y : Nat) : subMod (y % p25519) (y % p25519) = 0 := by
  have h : y % p25519 < p25519 := Nat.mod_lt _ (by decide)
  simp [subMod, Nat.mod_eq_of_lt h]

/-- Points with x = 0 and y = z stay so under addition. -/
theorem edAdd_neutral (y w : Nat) : ∃ v, edAdd (0, y, y, 0) (0, w, w, 0) = (0, v, v, 0) := by
  have e : y % p25519 * (w % p25519) % p25519 = y * w % p25519 := (Nat.mul_mod ..).symm
  have d : (y * w % p25519 + y * w % p25519) % p25519 = 2 * y * w % p25519 := by
    rw [← Nat.add_mod]; congr 1; ring
  refine ⟨2 * y * w % p25519 * (2 * y * w % p25519) % p25519, ?_⟩
  simp only [edAdd, subMod_zero, e, Nat.add_zero, subMod_self, d, Nat.mod_mod, Nat.mul_zero, Nat.zero_mul, Nat.zero_mod]

/-- Multiples of such a point are such points. -/
theorem edMul_neutral (y n k : Nat) : ∃ v, edMul (0, y, y, 0) n k = (0, v, v, 0) := by
  induction n generalizing k with
  | zero => exact ⟨1, rfl⟩
  | succ n ih =>
    obtain ⟨v, hv⟩ := ih (k / 2)
    obtain ⟨w, hw⟩ := edAdd_neutral v v
    simp only [edMul, hv, hw]
    split
    · exact edAdd_neutral w y
    · exact ⟨w, rfl⟩

theorem edEq_neutral (y w : Nat) : edEq (0, y, y, 0) (0, w, w, 0) = true := by
  simp [edEq, Nat.mul_comm]

end Sys2Proof.Machine
end

