-- ==== Sys2Proof/Laws/Sparse.lean ====
section
/-!
SUPPORT. What reading and writing sparse data by number does, and that every writing keeps the canonical form; the same for
bytes of memory.
-/

namespace Sys2Proof.Laws

open Sys2Proof Sys2Proof.Machine

variable {α : Type}

/-! ### Reading after writing -/

@[simp] theorem mget_nil (d : α) (k : Nat) : mget d [] k = d := rfl

theorem mget_mdel_same (d : α) (m : Sparse α) (k : Nat) : mget d (mdel m k) k = d := by
  induction m with
  | nil => rfl
  | cons p rest ih => simp only [mdel]; split <;> simp_all [mget]

theorem mget_mdel_ne (d : α) (m : Sparse α) {j k : Nat} (h : j ≠ k) : mget d (mdel m k) j = mget d m j := by
  induction m with
  | nil => rfl
  | cons p rest ih =>
    simp only [mdel]; split
    · rename_i e; simp only [mget, e, if_neg (Ne.symm h)]; exact ih
    · simp only [mget, ih]

/-- No entry of `m` has key `k`. -/
theorem mem_mdel {m : Sparse α} {k : Nat} {p : Nat × α} (h : p ∈ mdel m k) : p ∈ m ∧ p.1 ≠ k := by
  induction m with
  | nil => simp [mdel] at h
  | cons q rest ih =>
    simp only [mdel] at h
    split at h
    · exact ⟨List.mem_cons_of_mem _ (ih h).1, (ih h).2⟩
    · rename_i e
      rcases List.mem_cons.1 h with rfl | h
      · exact ⟨List.mem_cons_self, e⟩
      · exact ⟨List.mem_cons_of_mem _ (ih h).1, (ih h).2⟩

theorem mget_mput_same (d : α) (m : Sparse α) (k : Nat) (v : α) (h : ∀ p ∈ m, p.1 ≠ k) : mget d (mput m k v) k = v := by
  induction m with
  | nil => simp [mput, mget]
  | cons q rest ih =>
    simp only [mput]; split
    · simp [mget]
    · simp only [mget, if_neg (h q List.mem_cons_self)]
      exact ih fun p hp => h p (List.mem_cons_of_mem _ hp)

theorem mget_mput_ne (d : α) (m : Sparse α) {j k : Nat} (v : α) (h : j ≠ k) : mget d (mput m k v) j = mget d m j := by
  induction m with
  | nil => simp [mput, mget, Ne.symm h]
  | cons q rest ih =>
    simp only [mput]; split
    · simp [mget, Ne.symm h]
    · simp only [mget, ih]

/-- What was written at a number is what is read there. -/
@[simp] theorem mget_mset_same [DecidableEq α] (d : α) (m : Sparse α) (k : Nat) (v : α) : mget d (mset d m k v) k = v := by
  unfold mset; split
  · rename_i e; rw [mget_mdel_same, e]
  · exact mget_mput_same d _ k v fun p hp => (mem_mdel hp).2

/-- A write leaves every other number alone. -/
theorem mget_mset_ne [DecidableEq α] (d : α) (m : Sparse α) {j k : Nat} (v : α) (h : j ≠ k) :
    mget d (mset d m k v) j = mget d m j := by
  unfold mset; split
  · exact mget_mdel_ne d m h
  · rw [mget_mput_ne d _ v h, mget_mdel_ne d m h]

theorem mget_mset [DecidableEq α] (d : α) (m : Sparse α) (j k : Nat) (v : α) :
    mget d (mset d m k v) j = if j = k then v else mget d m j := by
  by_cases h : j = k
  · subst h; simp
  · rw [mget_mset_ne d m v h, if_neg h]

@[simp] theorem mget_mmod_same [DecidableEq α] (d : α) (m : Sparse α) (k : Nat) (f : α → α) :
    mget d (mmod d m k f) k = f (mget d m k) := by simp [mmod]

theorem mget_mmod_ne [DecidableEq α] (d : α) (m : Sparse α) {j k : Nat} (f : α → α) (h : j ≠ k) :
    mget d (mmod d m k f) j = mget d m j := mget_mset_ne d m _ h

theorem mget_mmod [DecidableEq α] (d : α) (m : Sparse α) (j k : Nat) (f : α → α) :
    mget d (mmod d m k f) j = if j = k then f (mget d m k) else mget d m j := mget_mset d m j k _

/-! ### The canonical form -/

section Form
variable [DecidableEq α]

theorem mwfFrom_mono (d : α) {lo lo' : Nat} (m : Sparse α) (h : lo' ≤ lo) (hm : mwfFrom d lo m = true) :
    mwfFrom d lo' m = true := by
  cases m with
  | nil => rfl
  | cons p rest => simp only [mwfFrom, Bool.and_eq_true, decide_eq_true_eq] at *; exact ⟨⟨by omega, hm.1.2⟩, hm.2⟩

theorem mwfFrom_mdel (d : α) (m : Sparse α) (k lo : Nat) (h : mwfFrom d lo m = true) : mwfFrom d lo (mdel m k) = true := by
  induction m generalizing lo with
  | nil => rfl
  | cons p rest ih =>
    simp only [mwfFrom, Bool.and_eq_true, decide_eq_true_eq] at h
    simp only [mdel]; split
    · exact mwfFrom_mono d _ (by omega : lo ≤ p.1 + 1) (ih _ h.2)
    · simp only [mwfFrom, Bool.and_eq_true, decide_eq_true_eq]; exact ⟨h.1, ih _ h.2⟩

theorem mwfFrom_mput (d : α) (m : Sparse α) (k lo : Nat) (v : α) (hv : v ≠ d) (hk : ∀ p ∈ m, p.1 ≠ k) (hlo : lo ≤ k)
    (h : mwfFrom d lo m = true) : mwfFrom d lo (mput m k v) = true := by
  induction m generalizing lo with
  | nil => simp [mput, mwfFrom, hv, hlo]
  | cons p rest ih =>
    simp only [mwfFrom, Bool.and_eq_true, decide_eq_true_eq] at h
    have hne := hk p List.mem_cons_self
    simp only [mput]; split
    · simp only [mwfFrom, Bool.and_eq_true, decide_eq_true_eq, Bool.not_eq_true', decide_eq_false_iff_not]
      exact ⟨⟨hlo, hv⟩, ⟨by omega, by simpa using h.1.2⟩, h.2⟩
    · simp only [mwfFrom, Bool.and_eq_true, decide_eq_true_eq]
      exact ⟨h.1, ih _ (fun q hq => hk q (List.mem_cons_of_mem _ hq)) (by omega) h.2⟩

/-- Every write keeps the canonical form. -/
theorem mwf_mset (d : α) (m : Sparse α) (k : Nat) (v : α) (h : mwf d m = true) : mwf d (mset d m k v) = true := by
  unfold mset; split
  · exact mwfFrom_mdel d m k 0 h
  · rename_i hv
    exact mwfFrom_mput d _ k 0 v hv (fun p hp => (mem_mdel hp).2) (Nat.zero_le _) (mwfFrom_mdel d m k 0 h)

/-- Every change keeps the canonical form. -/
theorem mwf_mmod (d : α) (m : Sparse α) (k : Nat) (f : α → α) (h : mwf d m = true) : mwf d (mmod d m k f) = true :=
  mwf_mset d m k _ h

theorem mwf_nil (d : α) : mwf d ([] : Sparse α) = true := rfl

theorem mget_below (d : α) {lo j : Nat} (m : Sparse α) (h : mwfFrom d lo m = true) (hj : j < lo) : mget d m j = d := by
  induction m generalizing lo with
  | nil => rfl
  | cons p rest ih =>
    simp only [mwfFrom, Bool.and_eq_true, decide_eq_true_eq] at h
    simp only [mget, if_neg (show p.1 ≠ j by omega)]
    exact ih h.2 (by omega)

theorem mwfFrom_ext (d : α) {lo : Nat} (m n : Sparse α) (hm : mwfFrom d lo m = true) (hn : mwfFrom d lo n = true)
    (h : ∀ k, mget d m k = mget d n k) : m = n := by
  induction m generalizing lo n with
  | nil =>
    cases n with
    | nil => rfl
    | cons q rest =>
      simp only [mwfFrom, Bool.and_eq_true, decide_eq_true_eq, Bool.not_eq_true', decide_eq_false_iff_not] at hn
      exact absurd (by simpa [mget] using (h q.1).symm) hn.1.2
  | cons p rest ih =>
    cases n with
    | nil =>
      simp only [mwfFrom, Bool.and_eq_true, decide_eq_true_eq, Bool.not_eq_true', decide_eq_false_iff_not] at hm
      exact absurd (by simpa [mget] using h p.1) hm.1.2
    | cons q rest' =>
      obtain ⟨i, v⟩ := p
      obtain ⟨j, w⟩ := q
      have hm' := hm
      have hn' := hn
      simp only [mwfFrom, Bool.and_eq_true, decide_eq_true_eq, Bool.not_eq_true', decide_eq_false_iff_not] at hm hn
      have hij : i = j := by
        rcases Nat.lt_trichotomy i j with hlt | he | hlt
        · have := h i
          simp only [mget, if_true, if_neg (show j ≠ i by omega)] at this
          exact absurd (this.trans (mget_below d rest' hn.2 (by omega))) hm.1.2
        · exact he
        · have := h j
          simp only [mget, if_true, if_neg (show i ≠ j by omega)] at this
          exact absurd (this.symm.trans (mget_below d rest hm.2 (by omega))) hn.1.2
      subst hij
      have hv : v = w := by simpa [mget] using h i
      subst hv
      congr 1
      refine ih rest' hm.2 hn.2 fun k => ?_
      by_cases hk : i = k
      · subst hk
        rw [mget_below d rest hm.2 (Nat.lt_succ_self _), mget_below d rest' hn.2 (Nat.lt_succ_self _)]
      · simpa [mget, hk] using h k

/-- Equal readings are equal data. -/
theorem mwf_ext (d : α) (m n : Sparse α) (hm : mwf d m = true) (hn : mwf d n = true) (h : ∀ k, mget d m k = mget d n k) :
    m = n := mwfFrom_ext d m n hm hn h

end Form

/-! ### Bytes of memory -/

@[simp] theorem rdByte_wrByte_same (m : Mem) (a : Nat) (v : Byte) : rdByte (wrByte m a v) a = v := by
  simp [rdByte, wrByte]

theorem rdByte_wrByte_ne (m : Mem) {a b : Nat} (v : Byte) (h : b ≠ a) : rdByte (wrByte m a v) b = rdByte m b :=
  mget_mset_ne 0 m v h

/-- A byte outside a written range keeps its value. -/
theorem rdByte_wrBytes_out (m : Mem) (a b : Nat) (bs : Bytes) (h : b < a ∨ a + bs.length ≤ b) :
    rdByte (wrBytes m a bs) b = rdByte m b := by
  induction bs generalizing m a with
  | nil => rfl
  | cons v rest ih =>
    simp only [List.length_cons] at h
    rw [wrBytes, ih _ _ (by omega), rdByte_wrByte_ne m v (by omega)]

/-- A byte of a written range is the one written there. -/
theorem rdByte_wrBytes_in (m : Mem) (a i : Nat) (bs : Bytes) (h : i < bs.length) :
    rdByte (wrBytes m a bs) (a + i) = bs[i] := by
  induction bs generalizing m a i with
  | nil => simp at h
  | cons v rest ih =>
    cases i with
    | zero => rw [wrBytes, rdByte_wrBytes_out _ _ _ _ (by omega)]; simp
    | succ i =>
      simp only [List.length_cons] at h
      have := ih (wrByte m a v) (a + 1) i (by omega)
      rw [wrBytes, show a + (i + 1) = a + 1 + i by omega, this]; simp

/-- Bytes read back from where they were written. -/
theorem rdBytes_wrBytes (m : Mem) (a : Nat) (bs : Bytes) : rdBytes (wrBytes m a bs) a bs.length = bs := by
  apply List.ext_getElem
  · simp [rdBytes]
  · intro i h h'
    simp only [rdBytes, List.getElem_map, List.getElem_range]
    exact rdByte_wrBytes_in m a i bs h'

/-- Writing memory keeps its canonical form. -/
theorem wf_wrByte (m : Mem) (a : Nat) (v : Byte) (h : m.wf = true) : (wrByte m a v).wf = true := mwf_mset 0 m a v h

/-- Writing bytes keeps the canonical form of memory. -/
theorem wf_wrBytes (m : Mem) (a : Nat) (bs : Bytes) (h : m.wf = true) : (wrBytes m a bs).wf = true := by
  induction bs generalizing m a with
  | nil => exact h
  | cons v rest ih => exact ih _ _ (wf_wrByte m a v h)

end Sys2Proof.Laws
end

