-- ==== Sys2Proof/Laws/State.lean ====
section
/-!
SUPPORT. One lemma per field of the state for each named update of Machine/Ops.lean: what the update leaves alone, and what
reading a numbered block after it gives.
-/

namespace Sys2Proof.Laws

open Sys2Proof Sys2Proof.Machine


/-! ### Numbered blocks -/

@[simp] theorem modStn_pending (s : State) (i : Nat) (f : Stn → Stn) : (s.modStn i f).pending = s.pending := rfl
@[simp] theorem modStn_now (s : State) (i : Nat) (f : Stn → Stn) : (s.modStn i f).now = s.now := rfl
@[simp] theorem modStn_bring (s : State) (i : Nat) (f : Stn → Stn) : (s.modStn i f).bring = s.bring := rfl
@[simp] theorem modStn_gate (s : State) (i : Nat) (f : Stn → Stn) : (s.modStn i f).gate = s.gate := rfl
@[simp] theorem modStn_nv (s : State) (i : Nat) (f : Stn → Stn) : (s.modStn i f).nv = s.nv := rfl
@[simp] theorem modStn_cmd (s : State) (i : Nat) (f : Stn → Stn) : (s.modStn i f).cmd = s.cmd := rfl
@[simp] theorem modStn_host (s : State) (i : Nat) (f : Stn → Stn) : (s.modStn i f).host = s.host := rfl
@[simp] theorem modStn_gov (s : State) (i : Nat) (f : Stn → Stn) : (s.modStn i f).gov = s.gov := rfl
@[simp] theorem modStn_sec (s : State) (i : Nat) (f : Stn → Stn) : (s.modStn i f).sec = s.sec := rfl
@[simp] theorem modStn_sched (s : State) (i : Nat) (f : Stn → Stn) : (s.modStn i f).sched = s.sched := rfl
@[simp] theorem modStn_parts (s : State) (i : Nat) (f : Stn → Stn) : (s.modStn i f).parts = s.parts := rfl
@[simp] theorem modStn_ctxs (s : State) (i : Nat) (f : Stn → Stn) : (s.modStn i f).ctxs = s.ctxs := rfl
@[simp] theorem modStn_stks (s : State) (i : Nat) (f : Stn → Stn) : (s.modStn i f).stks = s.stks := rfl
@[simp] theorem modStn_cst (s : State) (i : Nat) (f : Stn → Stn) : (s.modStn i f).cst = s.cst := rfl
@[simp] theorem modStn_fab (s : State) (i : Nat) (f : Stn → Stn) : (s.modStn i f).fab = s.fab := rfl
@[simp] theorem modStn_kvw (s : State) (i : Nat) (f : Stn → Stn) : (s.modStn i f).kvw = s.kvw := rfl
@[simp] theorem modStn_pfx (s : State) (i : Nat) (f : Stn → Stn) : (s.modStn i f).pfx = s.pfx := rfl
@[simp] theorem modStn_moe (s : State) (i : Nat) (f : Stn → Stn) : (s.modStn i f).moe = s.moe := rfl
@[simp] theorem modStn_tally (s : State) (i : Nat) (f : Stn → Stn) : (s.modStn i f).tally = s.tally := rfl
@[simp] theorem modStn_images (s : State) (i : Nat) (f : Stn → Stn) : (s.modStn i f).images = s.images := rfl
@[simp] theorem modStn_pages (s : State) (i : Nat) (f : Stn → Stn) : (s.modStn i f).pages = s.pages := rfl
@[simp] theorem modStn_seals (s : State) (i : Nat) (f : Stn → Stn) : (s.modStn i f).seals = s.seals := rfl
@[simp] theorem modStn_faultSec (s : State) (i : Nat) (f : Stn → Stn) : (s.modStn i f).faultSec = s.faultSec := rfl
@[simp] theorem modStn_faultRate (s : State) (i : Nat) (f : Stn → Stn) : (s.modStn i f).faultRate = s.faultRate := rfl
@[simp] theorem modStn_faultSuppressed (s : State) (i : Nat) (f : Stn → Stn) : (s.modStn i f).faultSuppressed = s.faultSuppressed := rfl
@[simp] theorem modStn_out (s : State) (i : Nat) (f : Stn → Stn) : (s.modStn i f).out = s.out := rfl
@[simp] theorem modStn_free (s : State) (i : Nat) (f : Stn → Stn) : (s.modStn i f).free = s.free := rfl
@[simp] theorem modStn_part (s : State) (i : Nat) (f : Stn → Stn) (j : Nat) : (s.modStn i f).part j = s.part j := rfl
@[simp] theorem modStn_ctx (s : State) (i : Nat) (f : Stn → Stn) (j : Nat) : (s.modStn i f).ctx j = s.ctx j := rfl
@[simp] theorem modStn_stk (s : State) (i : Nat) (f : Stn → Stn) (j : Nat) : (s.modStn i f).stk j = s.stk j := rfl
theorem modStn_stn (s : State) (i j : Nat) (f : Stn → Stn) : (s.modStn i f).stn j = if j = i then f (s.stn i) else s.stn j :=
  mget_mmod _ _ _ _ _
@[simp] theorem modStn_stn_same (s : State) (i : Nat) (f : Stn → Stn) : (s.modStn i f).stn i = f (s.stn i) :=
  mget_mmod_same _ _ _ _
theorem modStn_stn_ne (s : State) {i j : Nat} (f : Stn → Stn) (h : j ≠ i) : (s.modStn i f).stn j = s.stn j :=
  mget_mmod_ne _ _ _ h
@[simp] theorem modCtx_pending (s : State) (c : Nat) (f : Ctx → Ctx) : (s.modCtx c f).pending = s.pending := rfl
@[simp] theorem modCtx_now (s : State) (c : Nat) (f : Ctx → Ctx) : (s.modCtx c f).now = s.now := rfl
@[simp] theorem modCtx_bring (s : State) (c : Nat) (f : Ctx → Ctx) : (s.modCtx c f).bring = s.bring := rfl
@[simp] theorem modCtx_gate (s : State) (c : Nat) (f : Ctx → Ctx) : (s.modCtx c f).gate = s.gate := rfl
@[simp] theorem modCtx_nv (s : State) (c : Nat) (f : Ctx → Ctx) : (s.modCtx c f).nv = s.nv := rfl
@[simp] theorem modCtx_cmd (s : State) (c : Nat) (f : Ctx → Ctx) : (s.modCtx c f).cmd = s.cmd := rfl
@[simp] theorem modCtx_host (s : State) (c : Nat) (f : Ctx → Ctx) : (s.modCtx c f).host = s.host := rfl
@[simp] theorem modCtx_gov (s : State) (c : Nat) (f : Ctx → Ctx) : (s.modCtx c f).gov = s.gov := rfl
@[simp] theorem modCtx_sec (s : State) (c : Nat) (f : Ctx → Ctx) : (s.modCtx c f).sec = s.sec := rfl
@[simp] theorem modCtx_sched (s : State) (c : Nat) (f : Ctx → Ctx) : (s.modCtx c f).sched = s.sched := rfl
@[simp] theorem modCtx_parts (s : State) (c : Nat) (f : Ctx → Ctx) : (s.modCtx c f).parts = s.parts := rfl
@[simp] theorem modCtx_stns (s : State) (c : Nat) (f : Ctx → Ctx) : (s.modCtx c f).stns = s.stns := rfl
@[simp] theorem modCtx_stks (s : State) (c : Nat) (f : Ctx → Ctx) : (s.modCtx c f).stks = s.stks := rfl
@[simp] theorem modCtx_cst (s : State) (c : Nat) (f : Ctx → Ctx) : (s.modCtx c f).cst = s.cst := rfl
@[simp] theorem modCtx_fab (s : State) (c : Nat) (f : Ctx → Ctx) : (s.modCtx c f).fab = s.fab := rfl
@[simp] theorem modCtx_kvw (s : State) (c : Nat) (f : Ctx → Ctx) : (s.modCtx c f).kvw = s.kvw := rfl
@[simp] theorem modCtx_pfx (s : State) (c : Nat) (f : Ctx → Ctx) : (s.modCtx c f).pfx = s.pfx := rfl
@[simp] theorem modCtx_moe (s : State) (c : Nat) (f : Ctx → Ctx) : (s.modCtx c f).moe = s.moe := rfl
@[simp] theorem modCtx_tally (s : State) (c : Nat) (f : Ctx → Ctx) : (s.modCtx c f).tally = s.tally := rfl
@[simp] theorem modCtx_images (s : State) (c : Nat) (f : Ctx → Ctx) : (s.modCtx c f).images = s.images := rfl
@[simp] theorem modCtx_pages (s : State) (c : Nat) (f : Ctx → Ctx) : (s.modCtx c f).pages = s.pages := rfl
@[simp] theorem modCtx_seals (s : State) (c : Nat) (f : Ctx → Ctx) : (s.modCtx c f).seals = s.seals := rfl
@[simp] theorem modCtx_faultSec (s : State) (c : Nat) (f : Ctx → Ctx) : (s.modCtx c f).faultSec = s.faultSec := rfl
@[simp] theorem modCtx_faultRate (s : State) (c : Nat) (f : Ctx → Ctx) : (s.modCtx c f).faultRate = s.faultRate := rfl
@[simp] theorem modCtx_faultSuppressed (s : State) (c : Nat) (f : Ctx → Ctx) : (s.modCtx c f).faultSuppressed = s.faultSuppressed := rfl
@[simp] theorem modCtx_out (s : State) (c : Nat) (f : Ctx → Ctx) : (s.modCtx c f).out = s.out := rfl
@[simp] theorem modCtx_free (s : State) (c : Nat) (f : Ctx → Ctx) : (s.modCtx c f).free = s.free := rfl
@[simp] theorem modCtx_part (s : State) (c : Nat) (f : Ctx → Ctx) (j : Nat) : (s.modCtx c f).part j = s.part j := rfl
@[simp] theorem modCtx_stn (s : State) (c : Nat) (f : Ctx → Ctx) (j : Nat) : (s.modCtx c f).stn j = s.stn j := rfl
@[simp] theorem modCtx_stk (s : State) (c : Nat) (f : Ctx → Ctx) (j : Nat) : (s.modCtx c f).stk j = s.stk j := rfl
theorem modCtx_ctx (s : State) (c j : Nat) (f : Ctx → Ctx) : (s.modCtx c f).ctx j = if j = c then f (s.ctx c) else s.ctx j :=
  mget_mmod _ _ _ _ _
@[simp] theorem modCtx_ctx_same (s : State) (c : Nat) (f : Ctx → Ctx) : (s.modCtx c f).ctx c = f (s.ctx c) :=
  mget_mmod_same _ _ _ _
theorem modCtx_ctx_ne (s : State) {c j : Nat} (f : Ctx → Ctx) (h : j ≠ c) : (s.modCtx c f).ctx j = s.ctx j :=
  mget_mmod_ne _ _ _ h
@[simp] theorem modPart_pending (s : State) (p : Nat) (f : Part → Part) : (s.modPart p f).pending = s.pending := rfl
@[simp] theorem modPart_now (s : State) (p : Nat) (f : Part → Part) : (s.modPart p f).now = s.now := rfl
@[simp] theorem modPart_bring (s : State) (p : Nat) (f : Part → Part) : (s.modPart p f).bring = s.bring := rfl
@[simp] theorem modPart_gate (s : State) (p : Nat) (f : Part → Part) : (s.modPart p f).gate = s.gate := rfl
@[simp] theorem modPart_nv (s : State) (p : Nat) (f : Part → Part) : (s.modPart p f).nv = s.nv := rfl
@[simp] theorem modPart_cmd (s : State) (p : Nat) (f : Part → Part) : (s.modPart p f).cmd = s.cmd := rfl
@[simp] theorem modPart_host (s : State) (p : Nat) (f : Part → Part) : (s.modPart p f).host = s.host := rfl
@[simp] theorem modPart_gov (s : State) (p : Nat) (f : Part → Part) : (s.modPart p f).gov = s.gov := rfl
@[simp] theorem modPart_sec (s : State) (p : Nat) (f : Part → Part) : (s.modPart p f).sec = s.sec := rfl
@[simp] theorem modPart_sched (s : State) (p : Nat) (f : Part → Part) : (s.modPart p f).sched = s.sched := rfl
@[simp] theorem modPart_ctxs (s : State) (p : Nat) (f : Part → Part) : (s.modPart p f).ctxs = s.ctxs := rfl
@[simp] theorem modPart_stns (s : State) (p : Nat) (f : Part → Part) : (s.modPart p f).stns = s.stns := rfl
@[simp] theorem modPart_stks (s : State) (p : Nat) (f : Part → Part) : (s.modPart p f).stks = s.stks := rfl
@[simp] theorem modPart_cst (s : State) (p : Nat) (f : Part → Part) : (s.modPart p f).cst = s.cst := rfl
@[simp] theorem modPart_fab (s : State) (p : Nat) (f : Part → Part) : (s.modPart p f).fab = s.fab := rfl
@[simp] theorem modPart_kvw (s : State) (p : Nat) (f : Part → Part) : (s.modPart p f).kvw = s.kvw := rfl
@[simp] theorem modPart_pfx (s : State) (p : Nat) (f : Part → Part) : (s.modPart p f).pfx = s.pfx := rfl
@[simp] theorem modPart_moe (s : State) (p : Nat) (f : Part → Part) : (s.modPart p f).moe = s.moe := rfl
@[simp] theorem modPart_tally (s : State) (p : Nat) (f : Part → Part) : (s.modPart p f).tally = s.tally := rfl
@[simp] theorem modPart_images (s : State) (p : Nat) (f : Part → Part) : (s.modPart p f).images = s.images := rfl
@[simp] theorem modPart_pages (s : State) (p : Nat) (f : Part → Part) : (s.modPart p f).pages = s.pages := rfl
@[simp] theorem modPart_seals (s : State) (p : Nat) (f : Part → Part) : (s.modPart p f).seals = s.seals := rfl
@[simp] theorem modPart_faultSec (s : State) (p : Nat) (f : Part → Part) : (s.modPart p f).faultSec = s.faultSec := rfl
@[simp] theorem modPart_faultRate (s : State) (p : Nat) (f : Part → Part) : (s.modPart p f).faultRate = s.faultRate := rfl
@[simp] theorem modPart_faultSuppressed (s : State) (p : Nat) (f : Part → Part) : (s.modPart p f).faultSuppressed = s.faultSuppressed := rfl
@[simp] theorem modPart_out (s : State) (p : Nat) (f : Part → Part) : (s.modPart p f).out = s.out := rfl
@[simp] theorem modPart_free (s : State) (p : Nat) (f : Part → Part) : (s.modPart p f).free = s.free := rfl
@[simp] theorem modPart_ctx (s : State) (p : Nat) (f : Part → Part) (j : Nat) : (s.modPart p f).ctx j = s.ctx j := rfl
@[simp] theorem modPart_stn (s : State) (p : Nat) (f : Part → Part) (j : Nat) : (s.modPart p f).stn j = s.stn j := rfl
@[simp] theorem modPart_stk (s : State) (p : Nat) (f : Part → Part) (j : Nat) : (s.modPart p f).stk j = s.stk j := rfl
theorem modPart_part (s : State) (p j : Nat) (f : Part → Part) : (s.modPart p f).part j = if j = p then f (s.part p) else s.part j :=
  mget_mmod _ _ _ _ _
@[simp] theorem modPart_part_same (s : State) (p : Nat) (f : Part → Part) : (s.modPart p f).part p = f (s.part p) :=
  mget_mmod_same _ _ _ _
theorem modPart_part_ne (s : State) {p j : Nat} (f : Part → Part) (h : j ≠ p) : (s.modPart p f).part j = s.part j :=
  mget_mmod_ne _ _ _ h
@[simp] theorem modStk_pending (s : State) (n : Nat) (f : Stk → Stk) : (s.modStk n f).pending = s.pending := rfl
@[simp] theorem modStk_now (s : State) (n : Nat) (f : Stk → Stk) : (s.modStk n f).now = s.now := rfl
@[simp] theorem modStk_bring (s : State) (n : Nat) (f : Stk → Stk) : (s.modStk n f).bring = s.bring := rfl
@[simp] theorem modStk_gate (s : State) (n : Nat) (f : Stk → Stk) : (s.modStk n f).gate = s.gate := rfl
@[simp] theorem modStk_nv (s : State) (n : Nat) (f : Stk → Stk) : (s.modStk n f).nv = s.nv := rfl
@[simp] theorem modStk_cmd (s : State) (n : Nat) (f : Stk → Stk) : (s.modStk n f).cmd = s.cmd := rfl
@[simp] theorem modStk_host (s : State) (n : Nat) (f : Stk → Stk) : (s.modStk n f).host = s.host := rfl
@[simp] theorem modStk_gov (s : State) (n : Nat) (f : Stk → Stk) : (s.modStk n f).gov = s.gov := rfl
@[simp] theorem modStk_sec (s : State) (n : Nat) (f : Stk → Stk) : (s.modStk n f).sec = s.sec := rfl
@[simp] theorem modStk_sched (s : State) (n : Nat) (f : Stk → Stk) : (s.modStk n f).sched = s.sched := rfl
@[simp] theorem modStk_parts (s : State) (n : Nat) (f : Stk → Stk) : (s.modStk n f).parts = s.parts := rfl
@[simp] theorem modStk_ctxs (s : State) (n : Nat) (f : Stk → Stk) : (s.modStk n f).ctxs = s.ctxs := rfl
@[simp] theorem modStk_stns (s : State) (n : Nat) (f : Stk → Stk) : (s.modStk n f).stns = s.stns := rfl
@[simp] theorem modStk_cst (s : State) (n : Nat) (f : Stk → Stk) : (s.modStk n f).cst = s.cst := rfl
@[simp] theorem modStk_fab (s : State) (n : Nat) (f : Stk → Stk) : (s.modStk n f).fab = s.fab := rfl
@[simp] theorem modStk_kvw (s : State) (n : Nat) (f : Stk → Stk) : (s.modStk n f).kvw = s.kvw := rfl
@[simp] theorem modStk_pfx (s : State) (n : Nat) (f : Stk → Stk) : (s.modStk n f).pfx = s.pfx := rfl
@[simp] theorem modStk_moe (s : State) (n : Nat) (f : Stk → Stk) : (s.modStk n f).moe = s.moe := rfl
@[simp] theorem modStk_tally (s : State) (n : Nat) (f : Stk → Stk) : (s.modStk n f).tally = s.tally := rfl
@[simp] theorem modStk_images (s : State) (n : Nat) (f : Stk → Stk) : (s.modStk n f).images = s.images := rfl
@[simp] theorem modStk_pages (s : State) (n : Nat) (f : Stk → Stk) : (s.modStk n f).pages = s.pages := rfl
@[simp] theorem modStk_seals (s : State) (n : Nat) (f : Stk → Stk) : (s.modStk n f).seals = s.seals := rfl
@[simp] theorem modStk_faultSec (s : State) (n : Nat) (f : Stk → Stk) : (s.modStk n f).faultSec = s.faultSec := rfl
@[simp] theorem modStk_faultRate (s : State) (n : Nat) (f : Stk → Stk) : (s.modStk n f).faultRate = s.faultRate := rfl
@[simp] theorem modStk_faultSuppressed (s : State) (n : Nat) (f : Stk → Stk) : (s.modStk n f).faultSuppressed = s.faultSuppressed := rfl
@[simp] theorem modStk_out (s : State) (n : Nat) (f : Stk → Stk) : (s.modStk n f).out = s.out := rfl
@[simp] theorem modStk_free (s : State) (n : Nat) (f : Stk → Stk) : (s.modStk n f).free = s.free := rfl
@[simp] theorem modStk_part (s : State) (n : Nat) (f : Stk → Stk) (j : Nat) : (s.modStk n f).part j = s.part j := rfl
@[simp] theorem modStk_ctx (s : State) (n : Nat) (f : Stk → Stk) (j : Nat) : (s.modStk n f).ctx j = s.ctx j := rfl
@[simp] theorem modStk_stn (s : State) (n : Nat) (f : Stk → Stk) (j : Nat) : (s.modStk n f).stn j = s.stn j := rfl
theorem modStk_stk (s : State) (n j : Nat) (f : Stk → Stk) : (s.modStk n f).stk j = if j = n then f (s.stk n) else s.stk j :=
  mget_mmod _ _ _ _ _
@[simp] theorem modStk_stk_same (s : State) (n : Nat) (f : Stk → Stk) : (s.modStk n f).stk n = f (s.stk n) :=
  mget_mmod_same _ _ _ _
theorem modStk_stk_ne (s : State) {n j : Nat} (f : Stk → Stk) (h : j ≠ n) : (s.modStk n f).stk j = s.stk j :=
  mget_mmod_ne _ _ _ h
@[simp] theorem modArch_pending (s : State) (i : Nat) (f : Arch → Arch) : (s.modArch i f).pending = s.pending := rfl
@[simp] theorem modArch_now (s : State) (i : Nat) (f : Arch → Arch) : (s.modArch i f).now = s.now := rfl
@[simp] theorem modArch_bring (s : State) (i : Nat) (f : Arch → Arch) : (s.modArch i f).bring = s.bring := rfl
@[simp] theorem modArch_gate (s : State) (i : Nat) (f : Arch → Arch) : (s.modArch i f).gate = s.gate := rfl
@[simp] theorem modArch_nv (s : State) (i : Nat) (f : Arch → Arch) : (s.modArch i f).nv = s.nv := rfl
@[simp] theorem modArch_cmd (s : State) (i : Nat) (f : Arch → Arch) : (s.modArch i f).cmd = s.cmd := rfl
@[simp] theorem modArch_host (s : State) (i : Nat) (f : Arch → Arch) : (s.modArch i f).host = s.host := rfl
@[simp] theorem modArch_gov (s : State) (i : Nat) (f : Arch → Arch) : (s.modArch i f).gov = s.gov := rfl
@[simp] theorem modArch_sec (s : State) (i : Nat) (f : Arch → Arch) : (s.modArch i f).sec = s.sec := rfl
@[simp] theorem modArch_sched (s : State) (i : Nat) (f : Arch → Arch) : (s.modArch i f).sched = s.sched := rfl
@[simp] theorem modArch_parts (s : State) (i : Nat) (f : Arch → Arch) : (s.modArch i f).parts = s.parts := rfl
@[simp] theorem modArch_ctxs (s : State) (i : Nat) (f : Arch → Arch) : (s.modArch i f).ctxs = s.ctxs := rfl
@[simp] theorem modArch_stks (s : State) (i : Nat) (f : Arch → Arch) : (s.modArch i f).stks = s.stks := rfl
@[simp] theorem modArch_cst (s : State) (i : Nat) (f : Arch → Arch) : (s.modArch i f).cst = s.cst := rfl
@[simp] theorem modArch_fab (s : State) (i : Nat) (f : Arch → Arch) : (s.modArch i f).fab = s.fab := rfl
@[simp] theorem modArch_kvw (s : State) (i : Nat) (f : Arch → Arch) : (s.modArch i f).kvw = s.kvw := rfl
@[simp] theorem modArch_pfx (s : State) (i : Nat) (f : Arch → Arch) : (s.modArch i f).pfx = s.pfx := rfl
@[simp] theorem modArch_moe (s : State) (i : Nat) (f : Arch → Arch) : (s.modArch i f).moe = s.moe := rfl
@[simp] theorem modArch_tally (s : State) (i : Nat) (f : Arch → Arch) : (s.modArch i f).tally = s.tally := rfl
@[simp] theorem modArch_images (s : State) (i : Nat) (f : Arch → Arch) : (s.modArch i f).images = s.images := rfl
@[simp] theorem modArch_pages (s : State) (i : Nat) (f : Arch → Arch) : (s.modArch i f).pages = s.pages := rfl
@[simp] theorem modArch_seals (s : State) (i : Nat) (f : Arch → Arch) : (s.modArch i f).seals = s.seals := rfl
@[simp] theorem modArch_faultSec (s : State) (i : Nat) (f : Arch → Arch) : (s.modArch i f).faultSec = s.faultSec := rfl
@[simp] theorem modArch_faultRate (s : State) (i : Nat) (f : Arch → Arch) : (s.modArch i f).faultRate = s.faultRate := rfl
@[simp] theorem modArch_faultSuppressed (s : State) (i : Nat) (f : Arch → Arch) : (s.modArch i f).faultSuppressed = s.faultSuppressed := rfl
@[simp] theorem modArch_out (s : State) (i : Nat) (f : Arch → Arch) : (s.modArch i f).out = s.out := rfl
@[simp] theorem modArch_free (s : State) (i : Nat) (f : Arch → Arch) : (s.modArch i f).free = s.free := rfl
@[simp] theorem modArch_part (s : State) (i : Nat) (f : Arch → Arch) (j : Nat) : (s.modArch i f).part j = s.part j := rfl
@[simp] theorem modArch_ctx (s : State) (i : Nat) (f : Arch → Arch) (j : Nat) : (s.modArch i f).ctx j = s.ctx j := rfl
@[simp] theorem modArch_stk (s : State) (i : Nat) (f : Arch → Arch) (j : Nat) : (s.modArch i f).stk j = s.stk j := rfl
@[simp] theorem modArch_stn_same (s : State) (i : Nat) (f : Arch → Arch) :
    (s.modArch i f).stn i = { s.stn i with arch := f (s.stn i).arch } := modStn_stn_same _ _ _
theorem modArch_stn_ne (s : State) {i j : Nat} (f : Arch → Arch) (h : j ≠ i) : (s.modArch i f).stn j = s.stn j :=
  modStn_stn_ne _ _ h
@[simp] theorem modPort_pending (s : State) (r : Nat) (f : FabPort → FabPort) : (s.modPort r f).pending = s.pending := rfl
@[simp] theorem modPort_now (s : State) (r : Nat) (f : FabPort → FabPort) : (s.modPort r f).now = s.now := rfl
@[simp] theorem modPort_bring (s : State) (r : Nat) (f : FabPort → FabPort) : (s.modPort r f).bring = s.bring := rfl
@[simp] theorem modPort_gate (s : State) (r : Nat) (f : FabPort → FabPort) : (s.modPort r f).gate = s.gate := rfl
@[simp] theorem modPort_nv (s : State) (r : Nat) (f : FabPort → FabPort) : (s.modPort r f).nv = s.nv := rfl
@[simp] theorem modPort_cmd (s : State) (r : Nat) (f : FabPort → FabPort) : (s.modPort r f).cmd = s.cmd := rfl
@[simp] theorem modPort_host (s : State) (r : Nat) (f : FabPort → FabPort) : (s.modPort r f).host = s.host := rfl
@[simp] theorem modPort_gov (s : State) (r : Nat) (f : FabPort → FabPort) : (s.modPort r f).gov = s.gov := rfl
@[simp] theorem modPort_sec (s : State) (r : Nat) (f : FabPort → FabPort) : (s.modPort r f).sec = s.sec := rfl
@[simp] theorem modPort_sched (s : State) (r : Nat) (f : FabPort → FabPort) : (s.modPort r f).sched = s.sched := rfl
@[simp] theorem modPort_parts (s : State) (r : Nat) (f : FabPort → FabPort) : (s.modPort r f).parts = s.parts := rfl
@[simp] theorem modPort_ctxs (s : State) (r : Nat) (f : FabPort → FabPort) : (s.modPort r f).ctxs = s.ctxs := rfl
@[simp] theorem modPort_stns (s : State) (r : Nat) (f : FabPort → FabPort) : (s.modPort r f).stns = s.stns := rfl
@[simp] theorem modPort_stks (s : State) (r : Nat) (f : FabPort → FabPort) : (s.modPort r f).stks = s.stks := rfl
@[simp] theorem modPort_cst (s : State) (r : Nat) (f : FabPort → FabPort) : (s.modPort r f).cst = s.cst := rfl
@[simp] theorem modPort_kvw (s : State) (r : Nat) (f : FabPort → FabPort) : (s.modPort r f).kvw = s.kvw := rfl
@[simp] theorem modPort_pfx (s : State) (r : Nat) (f : FabPort → FabPort) : (s.modPort r f).pfx = s.pfx := rfl
@[simp] theorem modPort_moe (s : State) (r : Nat) (f : FabPort → FabPort) : (s.modPort r f).moe = s.moe := rfl
@[simp] theorem modPort_tally (s : State) (r : Nat) (f : FabPort → FabPort) : (s.modPort r f).tally = s.tally := rfl
@[simp] theorem modPort_images (s : State) (r : Nat) (f : FabPort → FabPort) : (s.modPort r f).images = s.images := rfl
@[simp] theorem modPort_pages (s : State) (r : Nat) (f : FabPort → FabPort) : (s.modPort r f).pages = s.pages := rfl
@[simp] theorem modPort_seals (s : State) (r : Nat) (f : FabPort → FabPort) : (s.modPort r f).seals = s.seals := rfl
@[simp] theorem modPort_faultSec (s : State) (r : Nat) (f : FabPort → FabPort) : (s.modPort r f).faultSec = s.faultSec := rfl
@[simp] theorem modPort_faultRate (s : State) (r : Nat) (f : FabPort → FabPort) : (s.modPort r f).faultRate = s.faultRate := rfl
@[simp] theorem modPort_faultSuppressed (s : State) (r : Nat) (f : FabPort → FabPort) : (s.modPort r f).faultSuppressed = s.faultSuppressed := rfl
@[simp] theorem modPort_out (s : State) (r : Nat) (f : FabPort → FabPort) : (s.modPort r f).out = s.out := rfl
@[simp] theorem modPort_free (s : State) (r : Nat) (f : FabPort → FabPort) : (s.modPort r f).free = s.free := rfl
@[simp] theorem modPort_part (s : State) (r : Nat) (f : FabPort → FabPort) (j : Nat) : (s.modPort r f).part j = s.part j := rfl
@[simp] theorem modPort_ctx (s : State) (r : Nat) (f : FabPort → FabPort) (j : Nat) : (s.modPort r f).ctx j = s.ctx j := rfl
@[simp] theorem modPort_stn (s : State) (r : Nat) (f : FabPort → FabPort) (j : Nat) : (s.modPort r f).stn j = s.stn j := rfl
@[simp] theorem modPort_stk (s : State) (r : Nat) (f : FabPort → FabPort) (j : Nat) : (s.modPort r f).stk j = s.stk j := rfl
@[simp] theorem modPort_port_same (s : State) (r : Nat) (f : FabPort → FabPort) : (s.modPort r f).port r = f (s.port r) :=
  mget_mmod_same _ _ _ _
theorem modPort_port_ne (s : State) {r j : Nat} (f : FabPort → FabPort) (h : j ≠ r) : (s.modPort r f).port j = s.port j :=
  mget_mmod_ne _ _ _ h
@[simp] theorem modDrover_pending (s : State) (d : Nat) (f : Drover → Drover) : (s.modDrover d f).pending = s.pending := rfl
@[simp] theorem modDrover_now (s : State) (d : Nat) (f : Drover → Drover) : (s.modDrover d f).now = s.now := rfl
@[simp] theorem modDrover_bring (s : State) (d : Nat) (f : Drover → Drover) : (s.modDrover d f).bring = s.bring := rfl
@[simp] theorem modDrover_gate (s : State) (d : Nat) (f : Drover → Drover) : (s.modDrover d f).gate = s.gate := rfl
@[simp] theorem modDrover_nv (s : State) (d : Nat) (f : Drover → Drover) : (s.modDrover d f).nv = s.nv := rfl
@[simp] theorem modDrover_cmd (s : State) (d : Nat) (f : Drover → Drover) : (s.modDrover d f).cmd = s.cmd := rfl
@[simp] theorem modDrover_host (s : State) (d : Nat) (f : Drover → Drover) : (s.modDrover d f).host = s.host := rfl
@[simp] theorem modDrover_gov (s : State) (d : Nat) (f : Drover → Drover) : (s.modDrover d f).gov = s.gov := rfl
@[simp] theorem modDrover_sec (s : State) (d : Nat) (f : Drover → Drover) : (s.modDrover d f).sec = s.sec := rfl
@[simp] theorem modDrover_sched (s : State) (d : Nat) (f : Drover → Drover) : (s.modDrover d f).sched = s.sched := rfl
@[simp] theorem modDrover_parts (s : State) (d : Nat) (f : Drover → Drover) : (s.modDrover d f).parts = s.parts := rfl
@[simp] theorem modDrover_ctxs (s : State) (d : Nat) (f : Drover → Drover) : (s.modDrover d f).ctxs = s.ctxs := rfl
@[simp] theorem modDrover_stns (s : State) (d : Nat) (f : Drover → Drover) : (s.modDrover d f).stns = s.stns := rfl
@[simp] theorem modDrover_stks (s : State) (d : Nat) (f : Drover → Drover) : (s.modDrover d f).stks = s.stks := rfl
@[simp] theorem modDrover_cst (s : State) (d : Nat) (f : Drover → Drover) : (s.modDrover d f).cst = s.cst := rfl
@[simp] theorem modDrover_kvw (s : State) (d : Nat) (f : Drover → Drover) : (s.modDrover d f).kvw = s.kvw := rfl
@[simp] theorem modDrover_pfx (s : State) (d : Nat) (f : Drover → Drover) : (s.modDrover d f).pfx = s.pfx := rfl
@[simp] theorem modDrover_moe (s : State) (d : Nat) (f : Drover → Drover) : (s.modDrover d f).moe = s.moe := rfl
@[simp] theorem modDrover_tally (s : State) (d : Nat) (f : Drover → Drover) : (s.modDrover d f).tally = s.tally := rfl
@[simp] theorem modDrover_images (s : State) (d : Nat) (f : Drover → Drover) : (s.modDrover d f).images = s.images := rfl
@[simp] theorem modDrover_pages (s : State) (d : Nat) (f : Drover → Drover) : (s.modDrover d f).pages = s.pages := rfl
@[simp] theorem modDrover_seals (s : State) (d : Nat) (f : Drover → Drover) : (s.modDrover d f).seals = s.seals := rfl
@[simp] theorem modDrover_faultSec (s : State) (d : Nat) (f : Drover → Drover) : (s.modDrover d f).faultSec = s.faultSec := rfl
@[simp] theorem modDrover_faultRate (s : State) (d : Nat) (f : Drover → Drover) : (s.modDrover d f).faultRate = s.faultRate := rfl
@[simp] theorem modDrover_faultSuppressed (s : State) (d : Nat) (f : Drover → Drover) : (s.modDrover d f).faultSuppressed = s.faultSuppressed := rfl
@[simp] theorem modDrover_out (s : State) (d : Nat) (f : Drover → Drover) : (s.modDrover d f).out = s.out := rfl
@[simp] theorem modDrover_free (s : State) (d : Nat) (f : Drover → Drover) : (s.modDrover d f).free = s.free := rfl
@[simp] theorem modDrover_part (s : State) (d : Nat) (f : Drover → Drover) (j : Nat) : (s.modDrover d f).part j = s.part j := rfl
@[simp] theorem modDrover_ctx (s : State) (d : Nat) (f : Drover → Drover) (j : Nat) : (s.modDrover d f).ctx j = s.ctx j := rfl
@[simp] theorem modDrover_stn (s : State) (d : Nat) (f : Drover → Drover) (j : Nat) : (s.modDrover d f).stn j = s.stn j := rfl
@[simp] theorem modDrover_stk (s : State) (d : Nat) (f : Drover → Drover) (j : Nat) : (s.modDrover d f).stk j = s.stk j := rfl
@[simp] theorem modDrover_drover_same (s : State) (d : Nat) (f : Drover → Drover) : (s.modDrover d f).drover d = f (s.drover d) :=
  mget_mmod_same _ _ _ _
theorem modDrover_drover_ne (s : State) {d j : Nat} (f : Drover → Drover) (h : j ≠ d) : (s.modDrover d f).drover j = s.drover j :=
  mget_mmod_ne _ _ _ h
@[simp] theorem modSens_pending (s : State) (k : Nat) (f : Sens → Sens) : (s.modSens k f).pending = s.pending := rfl
@[simp] theorem modSens_now (s : State) (k : Nat) (f : Sens → Sens) : (s.modSens k f).now = s.now := rfl
@[simp] theorem modSens_bring (s : State) (k : Nat) (f : Sens → Sens) : (s.modSens k f).bring = s.bring := rfl
@[simp] theorem modSens_gate (s : State) (k : Nat) (f : Sens → Sens) : (s.modSens k f).gate = s.gate := rfl
@[simp] theorem modSens_nv (s : State) (k : Nat) (f : Sens → Sens) : (s.modSens k f).nv = s.nv := rfl
@[simp] theorem modSens_cmd (s : State) (k : Nat) (f : Sens → Sens) : (s.modSens k f).cmd = s.cmd := rfl
@[simp] theorem modSens_host (s : State) (k : Nat) (f : Sens → Sens) : (s.modSens k f).host = s.host := rfl
@[simp] theorem modSens_sec (s : State) (k : Nat) (f : Sens → Sens) : (s.modSens k f).sec = s.sec := rfl
@[simp] theorem modSens_sched (s : State) (k : Nat) (f : Sens → Sens) : (s.modSens k f).sched = s.sched := rfl
@[simp] theorem modSens_parts (s : State) (k : Nat) (f : Sens → Sens) : (s.modSens k f).parts = s.parts := rfl
@[simp] theorem modSens_ctxs (s : State) (k : Nat) (f : Sens → Sens) : (s.modSens k f).ctxs = s.ctxs := rfl
@[simp] theorem modSens_stns (s : State) (k : Nat) (f : Sens → Sens) : (s.modSens k f).stns = s.stns := rfl
@[simp] theorem modSens_stks (s : State) (k : Nat) (f : Sens → Sens) : (s.modSens k f).stks = s.stks := rfl
@[simp] theorem modSens_cst (s : State) (k : Nat) (f : Sens → Sens) : (s.modSens k f).cst = s.cst := rfl
@[simp] theorem modSens_fab (s : State) (k : Nat) (f : Sens → Sens) : (s.modSens k f).fab = s.fab := rfl
@[simp] theorem modSens_kvw (s : State) (k : Nat) (f : Sens → Sens) : (s.modSens k f).kvw = s.kvw := rfl
@[simp] theorem modSens_pfx (s : State) (k : Nat) (f : Sens → Sens) : (s.modSens k f).pfx = s.pfx := rfl
@[simp] theorem modSens_moe (s : State) (k : Nat) (f : Sens → Sens) : (s.modSens k f).moe = s.moe := rfl
@[simp] theorem modSens_tally (s : State) (k : Nat) (f : Sens → Sens) : (s.modSens k f).tally = s.tally := rfl
@[simp] theorem modSens_images (s : State) (k : Nat) (f : Sens → Sens) : (s.modSens k f).images = s.images := rfl
@[simp] theorem modSens_pages (s : State) (k : Nat) (f : Sens → Sens) : (s.modSens k f).pages = s.pages := rfl
@[simp] theorem modSens_seals (s : State) (k : Nat) (f : Sens → Sens) : (s.modSens k f).seals = s.seals := rfl
@[simp] theorem modSens_faultSec (s : State) (k : Nat) (f : Sens → Sens) : (s.modSens k f).faultSec = s.faultSec := rfl
@[simp] theorem modSens_faultRate (s : State) (k : Nat) (f : Sens → Sens) : (s.modSens k f).faultRate = s.faultRate := rfl
@[simp] theorem modSens_faultSuppressed (s : State) (k : Nat) (f : Sens → Sens) : (s.modSens k f).faultSuppressed = s.faultSuppressed := rfl
@[simp] theorem modSens_out (s : State) (k : Nat) (f : Sens → Sens) : (s.modSens k f).out = s.out := rfl
@[simp] theorem modSens_free (s : State) (k : Nat) (f : Sens → Sens) : (s.modSens k f).free = s.free := rfl
@[simp] theorem modSens_part (s : State) (k : Nat) (f : Sens → Sens) (j : Nat) : (s.modSens k f).part j = s.part j := rfl
@[simp] theorem modSens_ctx (s : State) (k : Nat) (f : Sens → Sens) (j : Nat) : (s.modSens k f).ctx j = s.ctx j := rfl
@[simp] theorem modSens_stn (s : State) (k : Nat) (f : Sens → Sens) (j : Nat) : (s.modSens k f).stn j = s.stn j := rfl
@[simp] theorem modSens_stk (s : State) (k : Nat) (f : Sens → Sens) (j : Nat) : (s.modSens k f).stk j = s.stk j := rfl
@[simp] theorem modSens_sens_same (s : State) (k : Nat) (f : Sens → Sens) : (s.modSens k f).sens k = f (s.sens k) :=
  mget_mmod_same _ _ _ _
theorem modSens_sens_ne (s : State) {k j : Nat} (f : Sens → Sens) (h : j ≠ k) : (s.modSens k f).sens j = s.sens j :=
  mget_mmod_ne _ _ _ h

/-! ### Modes, sessions and bindings -/

@[simp] theorem setMode_pending (s : State) (m : BitVec 8) : (s.setMode m).pending = s.pending := rfl
@[simp] theorem setMode_now (s : State) (m : BitVec 8) : (s.setMode m).now = s.now := rfl
@[simp] theorem setMode_bring (s : State) (m : BitVec 8) : (s.setMode m).bring = s.bring := rfl
@[simp] theorem setMode_nv (s : State) (m : BitVec 8) : (s.setMode m).nv = s.nv := rfl
@[simp] theorem setMode_cmd (s : State) (m : BitVec 8) : (s.setMode m).cmd = s.cmd := rfl
@[simp] theorem setMode_host (s : State) (m : BitVec 8) : (s.setMode m).host = s.host := rfl
@[simp] theorem setMode_gov (s : State) (m : BitVec 8) : (s.setMode m).gov = s.gov := rfl
@[simp] theorem setMode_sec (s : State) (m : BitVec 8) : (s.setMode m).sec = s.sec := rfl
@[simp] theorem setMode_sched (s : State) (m : BitVec 8) : (s.setMode m).sched = s.sched := rfl
@[simp] theorem setMode_parts (s : State) (m : BitVec 8) : (s.setMode m).parts = s.parts := rfl
@[simp] theorem setMode_ctxs (s : State) (m : BitVec 8) : (s.setMode m).ctxs = s.ctxs := rfl
@[simp] theorem setMode_stns (s : State) (m : BitVec 8) : (s.setMode m).stns = s.stns := rfl
@[simp] theorem setMode_stks (s : State) (m : BitVec 8) : (s.setMode m).stks = s.stks := rfl
@[simp] theorem setMode_cst (s : State) (m : BitVec 8) : (s.setMode m).cst = s.cst := rfl
@[simp] theorem setMode_fab (s : State) (m : BitVec 8) : (s.setMode m).fab = s.fab := rfl
@[simp] theorem setMode_kvw (s : State) (m : BitVec 8) : (s.setMode m).kvw = s.kvw := rfl
@[simp] theorem setMode_pfx (s : State) (m : BitVec 8) : (s.setMode m).pfx = s.pfx := rfl
@[simp] theorem setMode_moe (s : State) (m : BitVec 8) : (s.setMode m).moe = s.moe := rfl
@[simp] theorem setMode_tally (s : State) (m : BitVec 8) : (s.setMode m).tally = s.tally := rfl
@[simp] theorem setMode_images (s : State) (m : BitVec 8) : (s.setMode m).images = s.images := rfl
@[simp] theorem setMode_pages (s : State) (m : BitVec 8) : (s.setMode m).pages = s.pages := rfl
@[simp] theorem setMode_seals (s : State) (m : BitVec 8) : (s.setMode m).seals = s.seals := rfl
@[simp] theorem setMode_faultSec (s : State) (m : BitVec 8) : (s.setMode m).faultSec = s.faultSec := rfl
@[simp] theorem setMode_faultRate (s : State) (m : BitVec 8) : (s.setMode m).faultRate = s.faultRate := rfl
@[simp] theorem setMode_faultSuppressed (s : State) (m : BitVec 8) : (s.setMode m).faultSuppressed = s.faultSuppressed := rfl
@[simp] theorem setMode_out (s : State) (m : BitVec 8) : (s.setMode m).out = s.out := rfl
@[simp] theorem setMode_free (s : State) (m : BitVec 8) : (s.setMode m).free = s.free := rfl
@[simp] theorem setMode_part (s : State) (m : BitVec 8) (j : Nat) : (s.setMode m).part j = s.part j := rfl
@[simp] theorem setMode_ctx (s : State) (m : BitVec 8) (j : Nat) : (s.setMode m).ctx j = s.ctx j := rfl
@[simp] theorem setMode_stn (s : State) (m : BitVec 8) (j : Nat) : (s.setMode m).stn j = s.stn j := rfl
@[simp] theorem setMode_stk (s : State) (m : BitVec 8) (j : Nat) : (s.setMode m).stk j = s.stk j := rfl
@[simp] theorem setMode_mode (s : State) (m : BitVec 8) : (s.setMode m).mode = m.toNat := rfl
@[simp] theorem modSession_pending (s : State) (k : Slot) (f : Session → Session) : (s.modSession k f).pending = s.pending := by cases k <;> rfl
@[simp] theorem modSession_now (s : State) (k : Slot) (f : Session → Session) : (s.modSession k f).now = s.now := by cases k <;> rfl
@[simp] theorem modSession_bring (s : State) (k : Slot) (f : Session → Session) : (s.modSession k f).bring = s.bring := by cases k <;> rfl
@[simp] theorem modSession_gate (s : State) (k : Slot) (f : Session → Session) : (s.modSession k f).gate = s.gate := by cases k <;> rfl
@[simp] theorem modSession_nv (s : State) (k : Slot) (f : Session → Session) : (s.modSession k f).nv = s.nv := by cases k <;> rfl
@[simp] theorem modSession_host (s : State) (k : Slot) (f : Session → Session) : (s.modSession k f).host = s.host := by cases k <;> rfl
@[simp] theorem modSession_gov (s : State) (k : Slot) (f : Session → Session) : (s.modSession k f).gov = s.gov := by cases k <;> rfl
@[simp] theorem modSession_sec (s : State) (k : Slot) (f : Session → Session) : (s.modSession k f).sec = s.sec := by cases k <;> rfl
@[simp] theorem modSession_sched (s : State) (k : Slot) (f : Session → Session) : (s.modSession k f).sched = s.sched := by cases k <;> rfl
@[simp] theorem modSession_parts (s : State) (k : Slot) (f : Session → Session) : (s.modSession k f).parts = s.parts := by cases k <;> rfl
@[simp] theorem modSession_ctxs (s : State) (k : Slot) (f : Session → Session) : (s.modSession k f).ctxs = s.ctxs := by cases k <;> rfl
@[simp] theorem modSession_stns (s : State) (k : Slot) (f : Session → Session) : (s.modSession k f).stns = s.stns := by cases k <;> rfl
@[simp] theorem modSession_stks (s : State) (k : Slot) (f : Session → Session) : (s.modSession k f).stks = s.stks := by cases k <;> rfl
@[simp] theorem modSession_cst (s : State) (k : Slot) (f : Session → Session) : (s.modSession k f).cst = s.cst := by cases k <;> rfl
@[simp] theorem modSession_fab (s : State) (k : Slot) (f : Session → Session) : (s.modSession k f).fab = s.fab := by cases k <;> rfl
@[simp] theorem modSession_kvw (s : State) (k : Slot) (f : Session → Session) : (s.modSession k f).kvw = s.kvw := by cases k <;> rfl
@[simp] theorem modSession_pfx (s : State) (k : Slot) (f : Session → Session) : (s.modSession k f).pfx = s.pfx := by cases k <;> rfl
@[simp] theorem modSession_moe (s : State) (k : Slot) (f : Session → Session) : (s.modSession k f).moe = s.moe := by cases k <;> rfl
@[simp] theorem modSession_tally (s : State) (k : Slot) (f : Session → Session) : (s.modSession k f).tally = s.tally := by cases k <;> rfl
@[simp] theorem modSession_images (s : State) (k : Slot) (f : Session → Session) : (s.modSession k f).images = s.images := by cases k <;> rfl
@[simp] theorem modSession_pages (s : State) (k : Slot) (f : Session → Session) : (s.modSession k f).pages = s.pages := by cases k <;> rfl
@[simp] theorem modSession_seals (s : State) (k : Slot) (f : Session → Session) : (s.modSession k f).seals = s.seals := by cases k <;> rfl
@[simp] theorem modSession_faultSec (s : State) (k : Slot) (f : Session → Session) : (s.modSession k f).faultSec = s.faultSec := by cases k <;> rfl
@[simp] theorem modSession_faultRate (s : State) (k : Slot) (f : Session → Session) : (s.modSession k f).faultRate = s.faultRate := by cases k <;> rfl
@[simp] theorem modSession_faultSuppressed (s : State) (k : Slot) (f : Session → Session) : (s.modSession k f).faultSuppressed = s.faultSuppressed := by cases k <;> rfl
@[simp] theorem modSession_out (s : State) (k : Slot) (f : Session → Session) : (s.modSession k f).out = s.out := by cases k <;> rfl
@[simp] theorem modSession_free (s : State) (k : Slot) (f : Session → Session) : (s.modSession k f).free = s.free := by cases k <;> rfl
@[simp] theorem modSession_part (s : State) (k : Slot) (f : Session → Session) (j : Nat) : (s.modSession k f).part j = s.part j := by simp [State.part]
@[simp] theorem modSession_ctx (s : State) (k : Slot) (f : Session → Session) (j : Nat) : (s.modSession k f).ctx j = s.ctx j := by simp [State.ctx]
@[simp] theorem modSession_stn (s : State) (k : Slot) (f : Session → Session) (j : Nat) : (s.modSession k f).stn j = s.stn j := by simp [State.stn]
@[simp] theorem modSession_stk (s : State) (k : Slot) (f : Session → Session) (j : Nat) : (s.modSession k f).stk j = s.stk j := by simp [State.stk]
@[simp] theorem modSession_session_same (s : State) (k : Slot) (f : Session → Session) :
    (s.modSession k f).session k = f (s.session k) := by cases k <;> rfl
theorem modSession_session_ne (s : State) {j k : Slot} (f : Session → Session) (h : j ≠ k) :
    (s.modSession k f).session j = s.session j := by cases j <;> cases k <;> simp_all [State.modSession, State.session]
@[simp] theorem modBinding_pending (s : State) (k : Slot) (f : Binding → Binding) : (s.modBinding k f).pending = s.pending := by cases k <;> rfl
@[simp] theorem modBinding_now (s : State) (k : Slot) (f : Binding → Binding) : (s.modBinding k f).now = s.now := by cases k <;> rfl
@[simp] theorem modBinding_bring (s : State) (k : Slot) (f : Binding → Binding) : (s.modBinding k f).bring = s.bring := by cases k <;> rfl
@[simp] theorem modBinding_gate (s : State) (k : Slot) (f : Binding → Binding) : (s.modBinding k f).gate = s.gate := by cases k <;> rfl
@[simp] theorem modBinding_cmd (s : State) (k : Slot) (f : Binding → Binding) : (s.modBinding k f).cmd = s.cmd := by cases k <;> rfl
@[simp] theorem modBinding_host (s : State) (k : Slot) (f : Binding → Binding) : (s.modBinding k f).host = s.host := by cases k <;> rfl
@[simp] theorem modBinding_gov (s : State) (k : Slot) (f : Binding → Binding) : (s.modBinding k f).gov = s.gov := by cases k <;> rfl
@[simp] theorem modBinding_sec (s : State) (k : Slot) (f : Binding → Binding) : (s.modBinding k f).sec = s.sec := by cases k <;> rfl
@[simp] theorem modBinding_sched (s : State) (k : Slot) (f : Binding → Binding) : (s.modBinding k f).sched = s.sched := by cases k <;> rfl
@[simp] theorem modBinding_parts (s : State) (k : Slot) (f : Binding → Binding) : (s.modBinding k f).parts = s.parts := by cases k <;> rfl
@[simp] theorem modBinding_ctxs (s : State) (k : Slot) (f : Binding → Binding) : (s.modBinding k f).ctxs = s.ctxs := by cases k <;> rfl
@[simp] theorem modBinding_stns (s : State) (k : Slot) (f : Binding → Binding) : (s.modBinding k f).stns = s.stns := by cases k <;> rfl
@[simp] theorem modBinding_stks (s : State) (k : Slot) (f : Binding → Binding) : (s.modBinding k f).stks = s.stks := by cases k <;> rfl
@[simp] theorem modBinding_cst (s : State) (k : Slot) (f : Binding → Binding) : (s.modBinding k f).cst = s.cst := by cases k <;> rfl
@[simp] theorem modBinding_fab (s : State) (k : Slot) (f : Binding → Binding) : (s.modBinding k f).fab = s.fab := by cases k <;> rfl
@[simp] theorem modBinding_kvw (s : State) (k : Slot) (f : Binding → Binding) : (s.modBinding k f).kvw = s.kvw := by cases k <;> rfl
@[simp] theorem modBinding_pfx (s : State) (k : Slot) (f : Binding → Binding) : (s.modBinding k f).pfx = s.pfx := by cases k <;> rfl
@[simp] theorem modBinding_moe (s : State) (k : Slot) (f : Binding → Binding) : (s.modBinding k f).moe = s.moe := by cases k <;> rfl
@[simp] theorem modBinding_tally (s : State) (k : Slot) (f : Binding → Binding) : (s.modBinding k f).tally = s.tally := by cases k <;> rfl
@[simp] theorem modBinding_images (s : State) (k : Slot) (f : Binding → Binding) : (s.modBinding k f).images = s.images := by cases k <;> rfl
@[simp] theorem modBinding_pages (s : State) (k : Slot) (f : Binding → Binding) : (s.modBinding k f).pages = s.pages := by cases k <;> rfl
@[simp] theorem modBinding_seals (s : State) (k : Slot) (f : Binding → Binding) : (s.modBinding k f).seals = s.seals := by cases k <;> rfl
@[simp] theorem modBinding_faultSec (s : State) (k : Slot) (f : Binding → Binding) : (s.modBinding k f).faultSec = s.faultSec := by cases k <;> rfl
@[simp] theorem modBinding_faultRate (s : State) (k : Slot) (f : Binding → Binding) : (s.modBinding k f).faultRate = s.faultRate := by cases k <;> rfl
@[simp] theorem modBinding_faultSuppressed (s : State) (k : Slot) (f : Binding → Binding) : (s.modBinding k f).faultSuppressed = s.faultSuppressed := by cases k <;> rfl
@[simp] theorem modBinding_out (s : State) (k : Slot) (f : Binding → Binding) : (s.modBinding k f).out = s.out := by cases k <;> rfl
@[simp] theorem modBinding_free (s : State) (k : Slot) (f : Binding → Binding) : (s.modBinding k f).free = s.free := by cases k <;> rfl
@[simp] theorem modBinding_part (s : State) (k : Slot) (f : Binding → Binding) (j : Nat) : (s.modBinding k f).part j = s.part j := by simp [State.part]
@[simp] theorem modBinding_ctx (s : State) (k : Slot) (f : Binding → Binding) (j : Nat) : (s.modBinding k f).ctx j = s.ctx j := by simp [State.ctx]
@[simp] theorem modBinding_stn (s : State) (k : Slot) (f : Binding → Binding) (j : Nat) : (s.modBinding k f).stn j = s.stn j := by simp [State.stn]
@[simp] theorem modBinding_stk (s : State) (k : Slot) (f : Binding → Binding) (j : Nat) : (s.modBinding k f).stk j = s.stk j := by simp [State.stk]
@[simp] theorem modBinding_binding_same (s : State) (k : Slot) (f : Binding → Binding) :
    (s.modBinding k f).binding k = f (s.binding k) := by cases k <;> rfl

/-! ### What the package sends, and what it counts -/

@[simp] theorem emit_pending (s : State) (o : Out) : (s.emit o).pending = s.pending := rfl
@[simp] theorem emit_now (s : State) (o : Out) : (s.emit o).now = s.now := rfl
@[simp] theorem emit_bring (s : State) (o : Out) : (s.emit o).bring = s.bring := rfl
@[simp] theorem emit_gate (s : State) (o : Out) : (s.emit o).gate = s.gate := rfl
@[simp] theorem emit_nv (s : State) (o : Out) : (s.emit o).nv = s.nv := rfl
@[simp] theorem emit_cmd (s : State) (o : Out) : (s.emit o).cmd = s.cmd := rfl
@[simp] theorem emit_gov (s : State) (o : Out) : (s.emit o).gov = s.gov := rfl
@[simp] theorem emit_sec (s : State) (o : Out) : (s.emit o).sec = s.sec := rfl
@[simp] theorem emit_sched (s : State) (o : Out) : (s.emit o).sched = s.sched := rfl
@[simp] theorem emit_parts (s : State) (o : Out) : (s.emit o).parts = s.parts := rfl
@[simp] theorem emit_ctxs (s : State) (o : Out) : (s.emit o).ctxs = s.ctxs := rfl
@[simp] theorem emit_stns (s : State) (o : Out) : (s.emit o).stns = s.stns := rfl
@[simp] theorem emit_stks (s : State) (o : Out) : (s.emit o).stks = s.stks := rfl
@[simp] theorem emit_cst (s : State) (o : Out) : (s.emit o).cst = s.cst := rfl
@[simp] theorem emit_fab (s : State) (o : Out) : (s.emit o).fab = s.fab := rfl
@[simp] theorem emit_kvw (s : State) (o : Out) : (s.emit o).kvw = s.kvw := rfl
@[simp] theorem emit_pfx (s : State) (o : Out) : (s.emit o).pfx = s.pfx := rfl
@[simp] theorem emit_moe (s : State) (o : Out) : (s.emit o).moe = s.moe := rfl
@[simp] theorem emit_tally (s : State) (o : Out) : (s.emit o).tally = s.tally := rfl
@[simp] theorem emit_images (s : State) (o : Out) : (s.emit o).images = s.images := rfl
@[simp] theorem emit_pages (s : State) (o : Out) : (s.emit o).pages = s.pages := rfl
@[simp] theorem emit_seals (s : State) (o : Out) : (s.emit o).seals = s.seals := rfl
@[simp] theorem emit_faultSec (s : State) (o : Out) : (s.emit o).faultSec = s.faultSec := rfl
@[simp] theorem emit_faultRate (s : State) (o : Out) : (s.emit o).faultRate = s.faultRate := rfl
@[simp] theorem emit_faultSuppressed (s : State) (o : Out) : (s.emit o).faultSuppressed = s.faultSuppressed := rfl
@[simp] theorem emit_free (s : State) (o : Out) : (s.emit o).free = s.free := rfl
@[simp] theorem emit_part (s : State) (o : Out) (j : Nat) : (s.emit o).part j = s.part j := rfl
@[simp] theorem emit_ctx (s : State) (o : Out) (j : Nat) : (s.emit o).ctx j = s.ctx j := rfl
@[simp] theorem emit_stn (s : State) (o : Out) (j : Nat) : (s.emit o).stn j = s.stn j := rfl
@[simp] theorem emit_stk (s : State) (o : Out) (j : Nat) : (s.emit o).stk j = s.stk j := rfl
@[simp] theorem emit_out (s : State) (o : Out) : (s.emit o).out = o :: s.out := rfl
@[simp] theorem heardBytes_pending (s : State) (n : Nat) : (s.heardBytes n).pending = s.pending := rfl
@[simp] theorem heardBytes_now (s : State) (n : Nat) : (s.heardBytes n).now = s.now := rfl
@[simp] theorem heardBytes_bring (s : State) (n : Nat) : (s.heardBytes n).bring = s.bring := rfl
@[simp] theorem heardBytes_gate (s : State) (n : Nat) : (s.heardBytes n).gate = s.gate := rfl
@[simp] theorem heardBytes_nv (s : State) (n : Nat) : (s.heardBytes n).nv = s.nv := rfl
@[simp] theorem heardBytes_cmd (s : State) (n : Nat) : (s.heardBytes n).cmd = s.cmd := rfl
@[simp] theorem heardBytes_gov (s : State) (n : Nat) : (s.heardBytes n).gov = s.gov := rfl
@[simp] theorem heardBytes_sec (s : State) (n : Nat) : (s.heardBytes n).sec = s.sec := rfl
@[simp] theorem heardBytes_sched (s : State) (n : Nat) : (s.heardBytes n).sched = s.sched := rfl
@[simp] theorem heardBytes_parts (s : State) (n : Nat) : (s.heardBytes n).parts = s.parts := rfl
@[simp] theorem heardBytes_ctxs (s : State) (n : Nat) : (s.heardBytes n).ctxs = s.ctxs := rfl
@[simp] theorem heardBytes_stns (s : State) (n : Nat) : (s.heardBytes n).stns = s.stns := rfl
@[simp] theorem heardBytes_stks (s : State) (n : Nat) : (s.heardBytes n).stks = s.stks := rfl
@[simp] theorem heardBytes_cst (s : State) (n : Nat) : (s.heardBytes n).cst = s.cst := rfl
@[simp] theorem heardBytes_fab (s : State) (n : Nat) : (s.heardBytes n).fab = s.fab := rfl
@[simp] theorem heardBytes_kvw (s : State) (n : Nat) : (s.heardBytes n).kvw = s.kvw := rfl
@[simp] theorem heardBytes_pfx (s : State) (n : Nat) : (s.heardBytes n).pfx = s.pfx := rfl
@[simp] theorem heardBytes_moe (s : State) (n : Nat) : (s.heardBytes n).moe = s.moe := rfl
@[simp] theorem heardBytes_tally (s : State) (n : Nat) : (s.heardBytes n).tally = s.tally := rfl
@[simp] theorem heardBytes_images (s : State) (n : Nat) : (s.heardBytes n).images = s.images := rfl
@[simp] theorem heardBytes_pages (s : State) (n : Nat) : (s.heardBytes n).pages = s.pages := rfl
@[simp] theorem heardBytes_seals (s : State) (n : Nat) : (s.heardBytes n).seals = s.seals := rfl
@[simp] theorem heardBytes_faultSec (s : State) (n : Nat) : (s.heardBytes n).faultSec = s.faultSec := rfl
@[simp] theorem heardBytes_faultRate (s : State) (n : Nat) : (s.heardBytes n).faultRate = s.faultRate := rfl
@[simp] theorem heardBytes_faultSuppressed (s : State) (n : Nat) : (s.heardBytes n).faultSuppressed = s.faultSuppressed := rfl
@[simp] theorem heardBytes_out (s : State) (n : Nat) : (s.heardBytes n).out = s.out := rfl
@[simp] theorem heardBytes_free (s : State) (n : Nat) : (s.heardBytes n).free = s.free := rfl
@[simp] theorem heardBytes_part (s : State) (n : Nat) (j : Nat) : (s.heardBytes n).part j = s.part j := rfl
@[simp] theorem heardBytes_ctx (s : State) (n : Nat) (j : Nat) : (s.heardBytes n).ctx j = s.ctx j := rfl
@[simp] theorem heardBytes_stn (s : State) (n : Nat) (j : Nat) : (s.heardBytes n).stn j = s.stn j := rfl
@[simp] theorem heardBytes_stk (s : State) (n : Nat) (j : Nat) : (s.heardBytes n).stk j = s.stk j := rfl
@[simp] theorem gateEvent_pending (s : State) (code k : Nat) : (s.gateEvent code k).pending = s.pending := rfl
@[simp] theorem gateEvent_now (s : State) (code k : Nat) : (s.gateEvent code k).now = s.now := rfl
@[simp] theorem gateEvent_bring (s : State) (code k : Nat) : (s.gateEvent code k).bring = s.bring := rfl
@[simp] theorem gateEvent_gate (s : State) (code k : Nat) : (s.gateEvent code k).gate = s.gate := rfl
@[simp] theorem gateEvent_nv (s : State) (code k : Nat) : (s.gateEvent code k).nv = s.nv := rfl
@[simp] theorem gateEvent_cmd (s : State) (code k : Nat) : (s.gateEvent code k).cmd = s.cmd := rfl
@[simp] theorem gateEvent_host (s : State) (code k : Nat) : (s.gateEvent code k).host = s.host := rfl
@[simp] theorem gateEvent_gov (s : State) (code k : Nat) : (s.gateEvent code k).gov = s.gov := rfl
@[simp] theorem gateEvent_sec (s : State) (code k : Nat) : (s.gateEvent code k).sec = s.sec := rfl
@[simp] theorem gateEvent_sched (s : State) (code k : Nat) : (s.gateEvent code k).sched = s.sched := rfl
@[simp] theorem gateEvent_parts (s : State) (code k : Nat) : (s.gateEvent code k).parts = s.parts := rfl
@[simp] theorem gateEvent_ctxs (s : State) (code k : Nat) : (s.gateEvent code k).ctxs = s.ctxs := rfl
@[simp] theorem gateEvent_stns (s : State) (code k : Nat) : (s.gateEvent code k).stns = s.stns := rfl
@[simp] theorem gateEvent_stks (s : State) (code k : Nat) : (s.gateEvent code k).stks = s.stks := rfl
@[simp] theorem gateEvent_cst (s : State) (code k : Nat) : (s.gateEvent code k).cst = s.cst := rfl
@[simp] theorem gateEvent_fab (s : State) (code k : Nat) : (s.gateEvent code k).fab = s.fab := rfl
@[simp] theorem gateEvent_kvw (s : State) (code k : Nat) : (s.gateEvent code k).kvw = s.kvw := rfl
@[simp] theorem gateEvent_pfx (s : State) (code k : Nat) : (s.gateEvent code k).pfx = s.pfx := rfl
@[simp] theorem gateEvent_moe (s : State) (code k : Nat) : (s.gateEvent code k).moe = s.moe := rfl
@[simp] theorem gateEvent_images (s : State) (code k : Nat) : (s.gateEvent code k).images = s.images := rfl
@[simp] theorem gateEvent_pages (s : State) (code k : Nat) : (s.gateEvent code k).pages = s.pages := rfl
@[simp] theorem gateEvent_seals (s : State) (code k : Nat) : (s.gateEvent code k).seals = s.seals := rfl
@[simp] theorem gateEvent_faultSec (s : State) (code k : Nat) : (s.gateEvent code k).faultSec = s.faultSec := rfl
@[simp] theorem gateEvent_faultRate (s : State) (code k : Nat) : (s.gateEvent code k).faultRate = s.faultRate := rfl
@[simp] theorem gateEvent_faultSuppressed (s : State) (code k : Nat) : (s.gateEvent code k).faultSuppressed = s.faultSuppressed := rfl
@[simp] theorem gateEvent_out (s : State) (code k : Nat) : (s.gateEvent code k).out = s.out := rfl
@[simp] theorem gateEvent_free (s : State) (code k : Nat) : (s.gateEvent code k).free = s.free := rfl
@[simp] theorem gateEvent_part (s : State) (code k : Nat) (j : Nat) : (s.gateEvent code k).part j = s.part j := rfl
@[simp] theorem gateEvent_ctx (s : State) (code k : Nat) (j : Nat) : (s.gateEvent code k).ctx j = s.ctx j := rfl
@[simp] theorem gateEvent_stn (s : State) (code k : Nat) (j : Nat) : (s.gateEvent code k).stn j = s.stn j := rfl
@[simp] theorem gateEvent_stk (s : State) (code k : Nat) (j : Nat) : (s.gateEvent code k).stk j = s.stk j := rfl

/-! ### Register events -/

@[simp] theorem cmEvent_pending (s : State) (i : Nat) : (s.cmEvent i).pending = s.pending := rfl
@[simp] theorem cmEvent_now (s : State) (i : Nat) : (s.cmEvent i).now = s.now := rfl
@[simp] theorem cmEvent_bring (s : State) (i : Nat) : (s.cmEvent i).bring = s.bring := rfl
@[simp] theorem cmEvent_gate (s : State) (i : Nat) : (s.cmEvent i).gate = s.gate := rfl
@[simp] theorem cmEvent_nv (s : State) (i : Nat) : (s.cmEvent i).nv = s.nv := rfl
@[simp] theorem cmEvent_host (s : State) (i : Nat) : (s.cmEvent i).host = s.host := rfl
@[simp] theorem cmEvent_gov (s : State) (i : Nat) : (s.cmEvent i).gov = s.gov := rfl
@[simp] theorem cmEvent_sec (s : State) (i : Nat) : (s.cmEvent i).sec = s.sec := rfl
@[simp] theorem cmEvent_sched (s : State) (i : Nat) : (s.cmEvent i).sched = s.sched := rfl
@[simp] theorem cmEvent_parts (s : State) (i : Nat) : (s.cmEvent i).parts = s.parts := rfl
@[simp] theorem cmEvent_ctxs (s : State) (i : Nat) : (s.cmEvent i).ctxs = s.ctxs := rfl
@[simp] theorem cmEvent_stns (s : State) (i : Nat) : (s.cmEvent i).stns = s.stns := rfl
@[simp] theorem cmEvent_stks (s : State) (i : Nat) : (s.cmEvent i).stks = s.stks := rfl
@[simp] theorem cmEvent_cst (s : State) (i : Nat) : (s.cmEvent i).cst = s.cst := rfl
@[simp] theorem cmEvent_fab (s : State) (i : Nat) : (s.cmEvent i).fab = s.fab := rfl
@[simp] theorem cmEvent_kvw (s : State) (i : Nat) : (s.cmEvent i).kvw = s.kvw := rfl
@[simp] theorem cmEvent_pfx (s : State) (i : Nat) : (s.cmEvent i).pfx = s.pfx := rfl
@[simp] theorem cmEvent_moe (s : State) (i : Nat) : (s.cmEvent i).moe = s.moe := rfl
@[simp] theorem cmEvent_tally (s : State) (i : Nat) : (s.cmEvent i).tally = s.tally := rfl
@[simp] theorem cmEvent_images (s : State) (i : Nat) : (s.cmEvent i).images = s.images := rfl
@[simp] theorem cmEvent_pages (s : State) (i : Nat) : (s.cmEvent i).pages = s.pages := rfl
@[simp] theorem cmEvent_seals (s : State) (i : Nat) : (s.cmEvent i).seals = s.seals := rfl
@[simp] theorem cmEvent_faultSec (s : State) (i : Nat) : (s.cmEvent i).faultSec = s.faultSec := rfl
@[simp] theorem cmEvent_faultRate (s : State) (i : Nat) : (s.cmEvent i).faultRate = s.faultRate := rfl
@[simp] theorem cmEvent_faultSuppressed (s : State) (i : Nat) : (s.cmEvent i).faultSuppressed = s.faultSuppressed := rfl
@[simp] theorem cmEvent_out (s : State) (i : Nat) : (s.cmEvent i).out = s.out := rfl
@[simp] theorem cmEvent_free (s : State) (i : Nat) : (s.cmEvent i).free = s.free := rfl
@[simp] theorem cmEvent_part (s : State) (i : Nat) (j : Nat) : (s.cmEvent i).part j = s.part j := rfl
@[simp] theorem cmEvent_ctx (s : State) (i : Nat) (j : Nat) : (s.cmEvent i).ctx j = s.ctx j := rfl
@[simp] theorem cmEvent_stn (s : State) (i : Nat) (j : Nat) : (s.cmEvent i).stn j = s.stn j := rfl
@[simp] theorem cmEvent_stk (s : State) (i : Nat) (j : Nat) : (s.cmEvent i).stk j = s.stk j := rfl
@[simp] theorem gvEvent_pending (s : State) (i : Nat) : (s.gvEvent i).pending = s.pending := rfl
@[simp] theorem gvEvent_now (s : State) (i : Nat) : (s.gvEvent i).now = s.now := rfl
@[simp] theorem gvEvent_bring (s : State) (i : Nat) : (s.gvEvent i).bring = s.bring := rfl
@[simp] theorem gvEvent_gate (s : State) (i : Nat) : (s.gvEvent i).gate = s.gate := rfl
@[simp] theorem gvEvent_nv (s : State) (i : Nat) : (s.gvEvent i).nv = s.nv := rfl
@[simp] theorem gvEvent_cmd (s : State) (i : Nat) : (s.gvEvent i).cmd = s.cmd := rfl
@[simp] theorem gvEvent_host (s : State) (i : Nat) : (s.gvEvent i).host = s.host := rfl
@[simp] theorem gvEvent_sec (s : State) (i : Nat) : (s.gvEvent i).sec = s.sec := rfl
@[simp] theorem gvEvent_sched (s : State) (i : Nat) : (s.gvEvent i).sched = s.sched := rfl
@[simp] theorem gvEvent_parts (s : State) (i : Nat) : (s.gvEvent i).parts = s.parts := rfl
@[simp] theorem gvEvent_ctxs (s : State) (i : Nat) : (s.gvEvent i).ctxs = s.ctxs := rfl
@[simp] theorem gvEvent_stns (s : State) (i : Nat) : (s.gvEvent i).stns = s.stns := rfl
@[simp] theorem gvEvent_stks (s : State) (i : Nat) : (s.gvEvent i).stks = s.stks := rfl
@[simp] theorem gvEvent_cst (s : State) (i : Nat) : (s.gvEvent i).cst = s.cst := rfl
@[simp] theorem gvEvent_fab (s : State) (i : Nat) : (s.gvEvent i).fab = s.fab := rfl
@[simp] theorem gvEvent_kvw (s : State) (i : Nat) : (s.gvEvent i).kvw = s.kvw := rfl
@[simp] theorem gvEvent_pfx (s : State) (i : Nat) : (s.gvEvent i).pfx = s.pfx := rfl
@[simp] theorem gvEvent_moe (s : State) (i : Nat) : (s.gvEvent i).moe = s.moe := rfl
@[simp] theorem gvEvent_tally (s : State) (i : Nat) : (s.gvEvent i).tally = s.tally := rfl
@[simp] theorem gvEvent_images (s : State) (i : Nat) : (s.gvEvent i).images = s.images := rfl
@[simp] theorem gvEvent_pages (s : State) (i : Nat) : (s.gvEvent i).pages = s.pages := rfl
@[simp] theorem gvEvent_seals (s : State) (i : Nat) : (s.gvEvent i).seals = s.seals := rfl
@[simp] theorem gvEvent_faultSec (s : State) (i : Nat) : (s.gvEvent i).faultSec = s.faultSec := rfl
@[simp] theorem gvEvent_faultRate (s : State) (i : Nat) : (s.gvEvent i).faultRate = s.faultRate := rfl
@[simp] theorem gvEvent_faultSuppressed (s : State) (i : Nat) : (s.gvEvent i).faultSuppressed = s.faultSuppressed := rfl
@[simp] theorem gvEvent_out (s : State) (i : Nat) : (s.gvEvent i).out = s.out := rfl
@[simp] theorem gvEvent_free (s : State) (i : Nat) : (s.gvEvent i).free = s.free := rfl
@[simp] theorem gvEvent_part (s : State) (i : Nat) (j : Nat) : (s.gvEvent i).part j = s.part j := rfl
@[simp] theorem gvEvent_ctx (s : State) (i : Nat) (j : Nat) : (s.gvEvent i).ctx j = s.ctx j := rfl
@[simp] theorem gvEvent_stn (s : State) (i : Nat) (j : Nat) : (s.gvEvent i).stn j = s.stn j := rfl
@[simp] theorem gvEvent_stk (s : State) (i : Nat) (j : Nat) : (s.gvEvent i).stk j = s.stk j := rfl
@[simp] theorem seEvent_pending (s : State) (i : Nat) : (s.seEvent i).pending = s.pending := rfl
@[simp] theorem seEvent_now (s : State) (i : Nat) : (s.seEvent i).now = s.now := rfl
@[simp] theorem seEvent_bring (s : State) (i : Nat) : (s.seEvent i).bring = s.bring := rfl
@[simp] theorem seEvent_gate (s : State) (i : Nat) : (s.seEvent i).gate = s.gate := rfl
@[simp] theorem seEvent_nv (s : State) (i : Nat) : (s.seEvent i).nv = s.nv := rfl
@[simp] theorem seEvent_cmd (s : State) (i : Nat) : (s.seEvent i).cmd = s.cmd := rfl
@[simp] theorem seEvent_host (s : State) (i : Nat) : (s.seEvent i).host = s.host := rfl
@[simp] theorem seEvent_gov (s : State) (i : Nat) : (s.seEvent i).gov = s.gov := rfl
@[simp] theorem seEvent_sched (s : State) (i : Nat) : (s.seEvent i).sched = s.sched := rfl
@[simp] theorem seEvent_parts (s : State) (i : Nat) : (s.seEvent i).parts = s.parts := rfl
@[simp] theorem seEvent_ctxs (s : State) (i : Nat) : (s.seEvent i).ctxs = s.ctxs := rfl
@[simp] theorem seEvent_stns (s : State) (i : Nat) : (s.seEvent i).stns = s.stns := rfl
@[simp] theorem seEvent_stks (s : State) (i : Nat) : (s.seEvent i).stks = s.stks := rfl
@[simp] theorem seEvent_cst (s : State) (i : Nat) : (s.seEvent i).cst = s.cst := rfl
@[simp] theorem seEvent_fab (s : State) (i : Nat) : (s.seEvent i).fab = s.fab := rfl
@[simp] theorem seEvent_kvw (s : State) (i : Nat) : (s.seEvent i).kvw = s.kvw := rfl
@[simp] theorem seEvent_pfx (s : State) (i : Nat) : (s.seEvent i).pfx = s.pfx := rfl
@[simp] theorem seEvent_moe (s : State) (i : Nat) : (s.seEvent i).moe = s.moe := rfl
@[simp] theorem seEvent_tally (s : State) (i : Nat) : (s.seEvent i).tally = s.tally := rfl
@[simp] theorem seEvent_images (s : State) (i : Nat) : (s.seEvent i).images = s.images := rfl
@[simp] theorem seEvent_pages (s : State) (i : Nat) : (s.seEvent i).pages = s.pages := rfl
@[simp] theorem seEvent_seals (s : State) (i : Nat) : (s.seEvent i).seals = s.seals := rfl
@[simp] theorem seEvent_faultSec (s : State) (i : Nat) : (s.seEvent i).faultSec = s.faultSec := rfl
@[simp] theorem seEvent_faultRate (s : State) (i : Nat) : (s.seEvent i).faultRate = s.faultRate := rfl
@[simp] theorem seEvent_faultSuppressed (s : State) (i : Nat) : (s.seEvent i).faultSuppressed = s.faultSuppressed := rfl
@[simp] theorem seEvent_out (s : State) (i : Nat) : (s.seEvent i).out = s.out := rfl
@[simp] theorem seEvent_free (s : State) (i : Nat) : (s.seEvent i).free = s.free := rfl
@[simp] theorem seEvent_part (s : State) (i : Nat) (j : Nat) : (s.seEvent i).part j = s.part j := rfl
@[simp] theorem seEvent_ctx (s : State) (i : Nat) (j : Nat) : (s.seEvent i).ctx j = s.ctx j := rfl
@[simp] theorem seEvent_stn (s : State) (i : Nat) (j : Nat) : (s.seEvent i).stn j = s.stn j := rfl
@[simp] theorem seEvent_stk (s : State) (i : Nat) (j : Nat) : (s.seEvent i).stk j = s.stk j := rfl
@[simp] theorem scEvent_pending (s : State) (i : Nat) : (s.scEvent i).pending = s.pending := rfl
@[simp] theorem scEvent_now (s : State) (i : Nat) : (s.scEvent i).now = s.now := rfl
@[simp] theorem scEvent_bring (s : State) (i : Nat) : (s.scEvent i).bring = s.bring := rfl
@[simp] theorem scEvent_gate (s : State) (i : Nat) : (s.scEvent i).gate = s.gate := rfl
@[simp] theorem scEvent_nv (s : State) (i : Nat) : (s.scEvent i).nv = s.nv := rfl
@[simp] theorem scEvent_cmd (s : State) (i : Nat) : (s.scEvent i).cmd = s.cmd := rfl
@[simp] theorem scEvent_host (s : State) (i : Nat) : (s.scEvent i).host = s.host := rfl
@[simp] theorem scEvent_gov (s : State) (i : Nat) : (s.scEvent i).gov = s.gov := rfl
@[simp] theorem scEvent_sec (s : State) (i : Nat) : (s.scEvent i).sec = s.sec := rfl
@[simp] theorem scEvent_parts (s : State) (i : Nat) : (s.scEvent i).parts = s.parts := rfl
@[simp] theorem scEvent_ctxs (s : State) (i : Nat) : (s.scEvent i).ctxs = s.ctxs := rfl
@[simp] theorem scEvent_stns (s : State) (i : Nat) : (s.scEvent i).stns = s.stns := rfl
@[simp] theorem scEvent_stks (s : State) (i : Nat) : (s.scEvent i).stks = s.stks := rfl
@[simp] theorem scEvent_cst (s : State) (i : Nat) : (s.scEvent i).cst = s.cst := rfl
@[simp] theorem scEvent_fab (s : State) (i : Nat) : (s.scEvent i).fab = s.fab := rfl
@[simp] theorem scEvent_kvw (s : State) (i : Nat) : (s.scEvent i).kvw = s.kvw := rfl
@[simp] theorem scEvent_pfx (s : State) (i : Nat) : (s.scEvent i).pfx = s.pfx := rfl
@[simp] theorem scEvent_moe (s : State) (i : Nat) : (s.scEvent i).moe = s.moe := rfl
@[simp] theorem scEvent_tally (s : State) (i : Nat) : (s.scEvent i).tally = s.tally := rfl
@[simp] theorem scEvent_images (s : State) (i : Nat) : (s.scEvent i).images = s.images := rfl
@[simp] theorem scEvent_pages (s : State) (i : Nat) : (s.scEvent i).pages = s.pages := rfl
@[simp] theorem scEvent_seals (s : State) (i : Nat) : (s.scEvent i).seals = s.seals := rfl
@[simp] theorem scEvent_faultSec (s : State) (i : Nat) : (s.scEvent i).faultSec = s.faultSec := rfl
@[simp] theorem scEvent_faultRate (s : State) (i : Nat) : (s.scEvent i).faultRate = s.faultRate := rfl
@[simp] theorem scEvent_faultSuppressed (s : State) (i : Nat) : (s.scEvent i).faultSuppressed = s.faultSuppressed := rfl
@[simp] theorem scEvent_out (s : State) (i : Nat) : (s.scEvent i).out = s.out := rfl
@[simp] theorem scEvent_free (s : State) (i : Nat) : (s.scEvent i).free = s.free := rfl
@[simp] theorem scEvent_part (s : State) (i : Nat) (j : Nat) : (s.scEvent i).part j = s.part j := rfl
@[simp] theorem scEvent_ctx (s : State) (i : Nat) (j : Nat) : (s.scEvent i).ctx j = s.ctx j := rfl
@[simp] theorem scEvent_stn (s : State) (i : Nat) (j : Nat) : (s.scEvent i).stn j = s.stn j := rfl
@[simp] theorem scEvent_stk (s : State) (i : Nat) (j : Nat) : (s.scEvent i).stk j = s.stk j := rfl
@[simp] theorem csEvent_pending (s : State) (i : Nat) : (s.csEvent i).pending = s.pending := rfl
@[simp] theorem csEvent_now (s : State) (i : Nat) : (s.csEvent i).now = s.now := rfl
@[simp] theorem csEvent_bring (s : State) (i : Nat) : (s.csEvent i).bring = s.bring := rfl
@[simp] theorem csEvent_gate (s : State) (i : Nat) : (s.csEvent i).gate = s.gate := rfl
@[simp] theorem csEvent_nv (s : State) (i : Nat) : (s.csEvent i).nv = s.nv := rfl
@[simp] theorem csEvent_cmd (s : State) (i : Nat) : (s.csEvent i).cmd = s.cmd := rfl
@[simp] theorem csEvent_host (s : State) (i : Nat) : (s.csEvent i).host = s.host := rfl
@[simp] theorem csEvent_gov (s : State) (i : Nat) : (s.csEvent i).gov = s.gov := rfl
@[simp] theorem csEvent_sec (s : State) (i : Nat) : (s.csEvent i).sec = s.sec := rfl
@[simp] theorem csEvent_sched (s : State) (i : Nat) : (s.csEvent i).sched = s.sched := rfl
@[simp] theorem csEvent_parts (s : State) (i : Nat) : (s.csEvent i).parts = s.parts := rfl
@[simp] theorem csEvent_ctxs (s : State) (i : Nat) : (s.csEvent i).ctxs = s.ctxs := rfl
@[simp] theorem csEvent_stns (s : State) (i : Nat) : (s.csEvent i).stns = s.stns := rfl
@[simp] theorem csEvent_stks (s : State) (i : Nat) : (s.csEvent i).stks = s.stks := rfl
@[simp] theorem csEvent_fab (s : State) (i : Nat) : (s.csEvent i).fab = s.fab := rfl
@[simp] theorem csEvent_kvw (s : State) (i : Nat) : (s.csEvent i).kvw = s.kvw := rfl
@[simp] theorem csEvent_pfx (s : State) (i : Nat) : (s.csEvent i).pfx = s.pfx := rfl
@[simp] theorem csEvent_moe (s : State) (i : Nat) : (s.csEvent i).moe = s.moe := rfl
@[simp] theorem csEvent_tally (s : State) (i : Nat) : (s.csEvent i).tally = s.tally := rfl
@[simp] theorem csEvent_images (s : State) (i : Nat) : (s.csEvent i).images = s.images := rfl
@[simp] theorem csEvent_pages (s : State) (i : Nat) : (s.csEvent i).pages = s.pages := rfl
@[simp] theorem csEvent_seals (s : State) (i : Nat) : (s.csEvent i).seals = s.seals := rfl
@[simp] theorem csEvent_faultSec (s : State) (i : Nat) : (s.csEvent i).faultSec = s.faultSec := rfl
@[simp] theorem csEvent_faultRate (s : State) (i : Nat) : (s.csEvent i).faultRate = s.faultRate := rfl
@[simp] theorem csEvent_faultSuppressed (s : State) (i : Nat) : (s.csEvent i).faultSuppressed = s.faultSuppressed := rfl
@[simp] theorem csEvent_out (s : State) (i : Nat) : (s.csEvent i).out = s.out := rfl
@[simp] theorem csEvent_free (s : State) (i : Nat) : (s.csEvent i).free = s.free := rfl
@[simp] theorem csEvent_part (s : State) (i : Nat) (j : Nat) : (s.csEvent i).part j = s.part j := rfl
@[simp] theorem csEvent_ctx (s : State) (i : Nat) (j : Nat) : (s.csEvent i).ctx j = s.ctx j := rfl
@[simp] theorem csEvent_stn (s : State) (i : Nat) (j : Nat) : (s.csEvent i).stn j = s.stn j := rfl
@[simp] theorem csEvent_stk (s : State) (i : Nat) (j : Nat) : (s.csEvent i).stk j = s.stk j := rfl
@[simp] theorem fbEvent_pending (s : State) (i : Nat) : (s.fbEvent i).pending = s.pending := rfl
@[simp] theorem fbEvent_now (s : State) (i : Nat) : (s.fbEvent i).now = s.now := rfl
@[simp] theorem fbEvent_bring (s : State) (i : Nat) : (s.fbEvent i).bring = s.bring := rfl
@[simp] theorem fbEvent_gate (s : State) (i : Nat) : (s.fbEvent i).gate = s.gate := rfl
@[simp] theorem fbEvent_nv (s : State) (i : Nat) : (s.fbEvent i).nv = s.nv := rfl
@[simp] theorem fbEvent_cmd (s : State) (i : Nat) : (s.fbEvent i).cmd = s.cmd := rfl
@[simp] theorem fbEvent_host (s : State) (i : Nat) : (s.fbEvent i).host = s.host := rfl
@[simp] theorem fbEvent_gov (s : State) (i : Nat) : (s.fbEvent i).gov = s.gov := rfl
@[simp] theorem fbEvent_sec (s : State) (i : Nat) : (s.fbEvent i).sec = s.sec := rfl
@[simp] theorem fbEvent_sched (s : State) (i : Nat) : (s.fbEvent i).sched = s.sched := rfl
@[simp] theorem fbEvent_parts (s : State) (i : Nat) : (s.fbEvent i).parts = s.parts := rfl
@[simp] theorem fbEvent_ctxs (s : State) (i : Nat) : (s.fbEvent i).ctxs = s.ctxs := rfl
@[simp] theorem fbEvent_stns (s : State) (i : Nat) : (s.fbEvent i).stns = s.stns := rfl
@[simp] theorem fbEvent_stks (s : State) (i : Nat) : (s.fbEvent i).stks = s.stks := rfl
@[simp] theorem fbEvent_cst (s : State) (i : Nat) : (s.fbEvent i).cst = s.cst := rfl
@[simp] theorem fbEvent_kvw (s : State) (i : Nat) : (s.fbEvent i).kvw = s.kvw := rfl
@[simp] theorem fbEvent_pfx (s : State) (i : Nat) : (s.fbEvent i).pfx = s.pfx := rfl
@[simp] theorem fbEvent_moe (s : State) (i : Nat) : (s.fbEvent i).moe = s.moe := rfl
@[simp] theorem fbEvent_tally (s : State) (i : Nat) : (s.fbEvent i).tally = s.tally := rfl
@[simp] theorem fbEvent_images (s : State) (i : Nat) : (s.fbEvent i).images = s.images := rfl
@[simp] theorem fbEvent_pages (s : State) (i : Nat) : (s.fbEvent i).pages = s.pages := rfl
@[simp] theorem fbEvent_seals (s : State) (i : Nat) : (s.fbEvent i).seals = s.seals := rfl
@[simp] theorem fbEvent_faultSec (s : State) (i : Nat) : (s.fbEvent i).faultSec = s.faultSec := rfl
@[simp] theorem fbEvent_faultRate (s : State) (i : Nat) : (s.fbEvent i).faultRate = s.faultRate := rfl
@[simp] theorem fbEvent_faultSuppressed (s : State) (i : Nat) : (s.fbEvent i).faultSuppressed = s.faultSuppressed := rfl
@[simp] theorem fbEvent_out (s : State) (i : Nat) : (s.fbEvent i).out = s.out := rfl
@[simp] theorem fbEvent_free (s : State) (i : Nat) : (s.fbEvent i).free = s.free := rfl
@[simp] theorem fbEvent_part (s : State) (i : Nat) (j : Nat) : (s.fbEvent i).part j = s.part j := rfl
@[simp] theorem fbEvent_ctx (s : State) (i : Nat) (j : Nat) : (s.fbEvent i).ctx j = s.ctx j := rfl
@[simp] theorem fbEvent_stn (s : State) (i : Nat) (j : Nat) : (s.fbEvent i).stn j = s.stn j := rfl
@[simp] theorem fbEvent_stk (s : State) (i : Nat) (j : Nat) : (s.fbEvent i).stk j = s.stk j := rfl
@[simp] theorem hpEvent_pending (s : State) (i : Nat) : (s.hpEvent i).pending = s.pending := rfl
@[simp] theorem hpEvent_now (s : State) (i : Nat) : (s.hpEvent i).now = s.now := rfl
@[simp] theorem hpEvent_bring (s : State) (i : Nat) : (s.hpEvent i).bring = s.bring := rfl
@[simp] theorem hpEvent_gate (s : State) (i : Nat) : (s.hpEvent i).gate = s.gate := rfl
@[simp] theorem hpEvent_nv (s : State) (i : Nat) : (s.hpEvent i).nv = s.nv := rfl
@[simp] theorem hpEvent_cmd (s : State) (i : Nat) : (s.hpEvent i).cmd = s.cmd := rfl
@[simp] theorem hpEvent_gov (s : State) (i : Nat) : (s.hpEvent i).gov = s.gov := rfl
@[simp] theorem hpEvent_sec (s : State) (i : Nat) : (s.hpEvent i).sec = s.sec := rfl
@[simp] theorem hpEvent_sched (s : State) (i : Nat) : (s.hpEvent i).sched = s.sched := rfl
@[simp] theorem hpEvent_parts (s : State) (i : Nat) : (s.hpEvent i).parts = s.parts := rfl
@[simp] theorem hpEvent_ctxs (s : State) (i : Nat) : (s.hpEvent i).ctxs = s.ctxs := rfl
@[simp] theorem hpEvent_stns (s : State) (i : Nat) : (s.hpEvent i).stns = s.stns := rfl
@[simp] theorem hpEvent_stks (s : State) (i : Nat) : (s.hpEvent i).stks = s.stks := rfl
@[simp] theorem hpEvent_cst (s : State) (i : Nat) : (s.hpEvent i).cst = s.cst := rfl
@[simp] theorem hpEvent_fab (s : State) (i : Nat) : (s.hpEvent i).fab = s.fab := rfl
@[simp] theorem hpEvent_kvw (s : State) (i : Nat) : (s.hpEvent i).kvw = s.kvw := rfl
@[simp] theorem hpEvent_pfx (s : State) (i : Nat) : (s.hpEvent i).pfx = s.pfx := rfl
@[simp] theorem hpEvent_moe (s : State) (i : Nat) : (s.hpEvent i).moe = s.moe := rfl
@[simp] theorem hpEvent_tally (s : State) (i : Nat) : (s.hpEvent i).tally = s.tally := rfl
@[simp] theorem hpEvent_images (s : State) (i : Nat) : (s.hpEvent i).images = s.images := rfl
@[simp] theorem hpEvent_pages (s : State) (i : Nat) : (s.hpEvent i).pages = s.pages := rfl
@[simp] theorem hpEvent_seals (s : State) (i : Nat) : (s.hpEvent i).seals = s.seals := rfl
@[simp] theorem hpEvent_faultSec (s : State) (i : Nat) : (s.hpEvent i).faultSec = s.faultSec := rfl
@[simp] theorem hpEvent_faultRate (s : State) (i : Nat) : (s.hpEvent i).faultRate = s.faultRate := rfl
@[simp] theorem hpEvent_faultSuppressed (s : State) (i : Nat) : (s.hpEvent i).faultSuppressed = s.faultSuppressed := rfl
@[simp] theorem hpEvent_out (s : State) (i : Nat) : (s.hpEvent i).out = s.out := rfl
@[simp] theorem hpEvent_free (s : State) (i : Nat) : (s.hpEvent i).free = s.free := rfl
@[simp] theorem hpEvent_part (s : State) (i : Nat) (j : Nat) : (s.hpEvent i).part j = s.part j := rfl
@[simp] theorem hpEvent_ctx (s : State) (i : Nat) (j : Nat) : (s.hpEvent i).ctx j = s.ctx j := rfl
@[simp] theorem hpEvent_stn (s : State) (i : Nat) (j : Nat) : (s.hpEvent i).stn j = s.stn j := rfl
@[simp] theorem hpEvent_stk (s : State) (i : Nat) (j : Nat) : (s.hpEvent i).stk j = s.stk j := rfl
@[simp] theorem kwEvent_pending (s : State) (i : Nat) : (s.kwEvent i).pending = s.pending := rfl
@[simp] theorem kwEvent_now (s : State) (i : Nat) : (s.kwEvent i).now = s.now := rfl
@[simp] theorem kwEvent_bring (s : State) (i : Nat) : (s.kwEvent i).bring = s.bring := rfl
@[simp] theorem kwEvent_gate (s : State) (i : Nat) : (s.kwEvent i).gate = s.gate := rfl
@[simp] theorem kwEvent_nv (s : State) (i : Nat) : (s.kwEvent i).nv = s.nv := rfl
@[simp] theorem kwEvent_cmd (s : State) (i : Nat) : (s.kwEvent i).cmd = s.cmd := rfl
@[simp] theorem kwEvent_host (s : State) (i : Nat) : (s.kwEvent i).host = s.host := rfl
@[simp] theorem kwEvent_gov (s : State) (i : Nat) : (s.kwEvent i).gov = s.gov := rfl
@[simp] theorem kwEvent_sec (s : State) (i : Nat) : (s.kwEvent i).sec = s.sec := rfl
@[simp] theorem kwEvent_sched (s : State) (i : Nat) : (s.kwEvent i).sched = s.sched := rfl
@[simp] theorem kwEvent_parts (s : State) (i : Nat) : (s.kwEvent i).parts = s.parts := rfl
@[simp] theorem kwEvent_ctxs (s : State) (i : Nat) : (s.kwEvent i).ctxs = s.ctxs := rfl
@[simp] theorem kwEvent_stns (s : State) (i : Nat) : (s.kwEvent i).stns = s.stns := rfl
@[simp] theorem kwEvent_stks (s : State) (i : Nat) : (s.kwEvent i).stks = s.stks := rfl
@[simp] theorem kwEvent_cst (s : State) (i : Nat) : (s.kwEvent i).cst = s.cst := rfl
@[simp] theorem kwEvent_fab (s : State) (i : Nat) : (s.kwEvent i).fab = s.fab := rfl
@[simp] theorem kwEvent_pfx (s : State) (i : Nat) : (s.kwEvent i).pfx = s.pfx := rfl
@[simp] theorem kwEvent_moe (s : State) (i : Nat) : (s.kwEvent i).moe = s.moe := rfl
@[simp] theorem kwEvent_tally (s : State) (i : Nat) : (s.kwEvent i).tally = s.tally := rfl
@[simp] theorem kwEvent_images (s : State) (i : Nat) : (s.kwEvent i).images = s.images := rfl
@[simp] theorem kwEvent_pages (s : State) (i : Nat) : (s.kwEvent i).pages = s.pages := rfl
@[simp] theorem kwEvent_seals (s : State) (i : Nat) : (s.kwEvent i).seals = s.seals := rfl
@[simp] theorem kwEvent_faultSec (s : State) (i : Nat) : (s.kwEvent i).faultSec = s.faultSec := rfl
@[simp] theorem kwEvent_faultRate (s : State) (i : Nat) : (s.kwEvent i).faultRate = s.faultRate := rfl
@[simp] theorem kwEvent_faultSuppressed (s : State) (i : Nat) : (s.kwEvent i).faultSuppressed = s.faultSuppressed := rfl
@[simp] theorem kwEvent_out (s : State) (i : Nat) : (s.kwEvent i).out = s.out := rfl
@[simp] theorem kwEvent_free (s : State) (i : Nat) : (s.kwEvent i).free = s.free := rfl
@[simp] theorem kwEvent_part (s : State) (i : Nat) (j : Nat) : (s.kwEvent i).part j = s.part j := rfl
@[simp] theorem kwEvent_ctx (s : State) (i : Nat) (j : Nat) : (s.kwEvent i).ctx j = s.ctx j := rfl
@[simp] theorem kwEvent_stn (s : State) (i : Nat) (j : Nat) : (s.kwEvent i).stn j = s.stn j := rfl
@[simp] theorem kwEvent_stk (s : State) (i : Nat) (j : Nat) : (s.kwEvent i).stk j = s.stk j := rfl
@[simp] theorem pxEvent_pending (s : State) (i : Nat) : (s.pxEvent i).pending = s.pending := rfl
@[simp] theorem pxEvent_now (s : State) (i : Nat) : (s.pxEvent i).now = s.now := rfl
@[simp] theorem pxEvent_bring (s : State) (i : Nat) : (s.pxEvent i).bring = s.bring := rfl
@[simp] theorem pxEvent_gate (s : State) (i : Nat) : (s.pxEvent i).gate = s.gate := rfl
@[simp] theorem pxEvent_nv (s : State) (i : Nat) : (s.pxEvent i).nv = s.nv := rfl
@[simp] theorem pxEvent_cmd (s : State) (i : Nat) : (s.pxEvent i).cmd = s.cmd := rfl
@[simp] theorem pxEvent_host (s : State) (i : Nat) : (s.pxEvent i).host = s.host := rfl
@[simp] theorem pxEvent_gov (s : State) (i : Nat) : (s.pxEvent i).gov = s.gov := rfl
@[simp] theorem pxEvent_sec (s : State) (i : Nat) : (s.pxEvent i).sec = s.sec := rfl
@[simp] theorem pxEvent_sched (s : State) (i : Nat) : (s.pxEvent i).sched = s.sched := rfl
@[simp] theorem pxEvent_parts (s : State) (i : Nat) : (s.pxEvent i).parts = s.parts := rfl
@[simp] theorem pxEvent_ctxs (s : State) (i : Nat) : (s.pxEvent i).ctxs = s.ctxs := rfl
@[simp] theorem pxEvent_stns (s : State) (i : Nat) : (s.pxEvent i).stns = s.stns := rfl
@[simp] theorem pxEvent_stks (s : State) (i : Nat) : (s.pxEvent i).stks = s.stks := rfl
@[simp] theorem pxEvent_cst (s : State) (i : Nat) : (s.pxEvent i).cst = s.cst := rfl
@[simp] theorem pxEvent_fab (s : State) (i : Nat) : (s.pxEvent i).fab = s.fab := rfl
@[simp] theorem pxEvent_kvw (s : State) (i : Nat) : (s.pxEvent i).kvw = s.kvw := rfl
@[simp] theorem pxEvent_moe (s : State) (i : Nat) : (s.pxEvent i).moe = s.moe := rfl
@[simp] theorem pxEvent_tally (s : State) (i : Nat) : (s.pxEvent i).tally = s.tally := rfl
@[simp] theorem pxEvent_images (s : State) (i : Nat) : (s.pxEvent i).images = s.images := rfl
@[simp] theorem pxEvent_pages (s : State) (i : Nat) : (s.pxEvent i).pages = s.pages := rfl
@[simp] theorem pxEvent_seals (s : State) (i : Nat) : (s.pxEvent i).seals = s.seals := rfl
@[simp] theorem pxEvent_faultSec (s : State) (i : Nat) : (s.pxEvent i).faultSec = s.faultSec := rfl
@[simp] theorem pxEvent_faultRate (s : State) (i : Nat) : (s.pxEvent i).faultRate = s.faultRate := rfl
@[simp] theorem pxEvent_faultSuppressed (s : State) (i : Nat) : (s.pxEvent i).faultSuppressed = s.faultSuppressed := rfl
@[simp] theorem pxEvent_out (s : State) (i : Nat) : (s.pxEvent i).out = s.out := rfl
@[simp] theorem pxEvent_free (s : State) (i : Nat) : (s.pxEvent i).free = s.free := rfl
@[simp] theorem pxEvent_part (s : State) (i : Nat) (j : Nat) : (s.pxEvent i).part j = s.part j := rfl
@[simp] theorem pxEvent_ctx (s : State) (i : Nat) (j : Nat) : (s.pxEvent i).ctx j = s.ctx j := rfl
@[simp] theorem pxEvent_stn (s : State) (i : Nat) (j : Nat) : (s.pxEvent i).stn j = s.stn j := rfl
@[simp] theorem pxEvent_stk (s : State) (i : Nat) (j : Nat) : (s.pxEvent i).stk j = s.stk j := rfl
@[simp] theorem moEvent_pending (s : State) (i : Nat) : (s.moEvent i).pending = s.pending := rfl
@[simp] theorem moEvent_now (s : State) (i : Nat) : (s.moEvent i).now = s.now := rfl
@[simp] theorem moEvent_bring (s : State) (i : Nat) : (s.moEvent i).bring = s.bring := rfl
@[simp] theorem moEvent_gate (s : State) (i : Nat) : (s.moEvent i).gate = s.gate := rfl
@[simp] theorem moEvent_nv (s : State) (i : Nat) : (s.moEvent i).nv = s.nv := rfl
@[simp] theorem moEvent_cmd (s : State) (i : Nat) : (s.moEvent i).cmd = s.cmd := rfl
@[simp] theorem moEvent_host (s : State) (i : Nat) : (s.moEvent i).host = s.host := rfl
@[simp] theorem moEvent_gov (s : State) (i : Nat) : (s.moEvent i).gov = s.gov := rfl
@[simp] theorem moEvent_sec (s : State) (i : Nat) : (s.moEvent i).sec = s.sec := rfl
@[simp] theorem moEvent_sched (s : State) (i : Nat) : (s.moEvent i).sched = s.sched := rfl
@[simp] theorem moEvent_parts (s : State) (i : Nat) : (s.moEvent i).parts = s.parts := rfl
@[simp] theorem moEvent_ctxs (s : State) (i : Nat) : (s.moEvent i).ctxs = s.ctxs := rfl
@[simp] theorem moEvent_stns (s : State) (i : Nat) : (s.moEvent i).stns = s.stns := rfl
@[simp] theorem moEvent_stks (s : State) (i : Nat) : (s.moEvent i).stks = s.stks := rfl
@[simp] theorem moEvent_cst (s : State) (i : Nat) : (s.moEvent i).cst = s.cst := rfl
@[simp] theorem moEvent_fab (s : State) (i : Nat) : (s.moEvent i).fab = s.fab := rfl
@[simp] theorem moEvent_kvw (s : State) (i : Nat) : (s.moEvent i).kvw = s.kvw := rfl
@[simp] theorem moEvent_pfx (s : State) (i : Nat) : (s.moEvent i).pfx = s.pfx := rfl
@[simp] theorem moEvent_tally (s : State) (i : Nat) : (s.moEvent i).tally = s.tally := rfl
@[simp] theorem moEvent_images (s : State) (i : Nat) : (s.moEvent i).images = s.images := rfl
@[simp] theorem moEvent_pages (s : State) (i : Nat) : (s.moEvent i).pages = s.pages := rfl
@[simp] theorem moEvent_seals (s : State) (i : Nat) : (s.moEvent i).seals = s.seals := rfl
@[simp] theorem moEvent_faultSec (s : State) (i : Nat) : (s.moEvent i).faultSec = s.faultSec := rfl
@[simp] theorem moEvent_faultRate (s : State) (i : Nat) : (s.moEvent i).faultRate = s.faultRate := rfl
@[simp] theorem moEvent_faultSuppressed (s : State) (i : Nat) : (s.moEvent i).faultSuppressed = s.faultSuppressed := rfl
@[simp] theorem moEvent_out (s : State) (i : Nat) : (s.moEvent i).out = s.out := rfl
@[simp] theorem moEvent_free (s : State) (i : Nat) : (s.moEvent i).free = s.free := rfl
@[simp] theorem moEvent_part (s : State) (i : Nat) (j : Nat) : (s.moEvent i).part j = s.part j := rfl
@[simp] theorem moEvent_ctx (s : State) (i : Nat) (j : Nat) : (s.moEvent i).ctx j = s.ctx j := rfl
@[simp] theorem moEvent_stn (s : State) (i : Nat) (j : Nat) : (s.moEvent i).stn j = s.stn j := rfl
@[simp] theorem moEvent_stk (s : State) (i : Nat) (j : Nat) : (s.moEvent i).stk j = s.stk j := rfl
@[simp] theorem tlEvent_pending (s : State) (i : Nat) : (s.tlEvent i).pending = s.pending := rfl
@[simp] theorem tlEvent_now (s : State) (i : Nat) : (s.tlEvent i).now = s.now := rfl
@[simp] theorem tlEvent_bring (s : State) (i : Nat) : (s.tlEvent i).bring = s.bring := rfl
@[simp] theorem tlEvent_gate (s : State) (i : Nat) : (s.tlEvent i).gate = s.gate := rfl
@[simp] theorem tlEvent_nv (s : State) (i : Nat) : (s.tlEvent i).nv = s.nv := rfl
@[simp] theorem tlEvent_cmd (s : State) (i : Nat) : (s.tlEvent i).cmd = s.cmd := rfl
@[simp] theorem tlEvent_host (s : State) (i : Nat) : (s.tlEvent i).host = s.host := rfl
@[simp] theorem tlEvent_gov (s : State) (i : Nat) : (s.tlEvent i).gov = s.gov := rfl
@[simp] theorem tlEvent_sec (s : State) (i : Nat) : (s.tlEvent i).sec = s.sec := rfl
@[simp] theorem tlEvent_sched (s : State) (i : Nat) : (s.tlEvent i).sched = s.sched := rfl
@[simp] theorem tlEvent_parts (s : State) (i : Nat) : (s.tlEvent i).parts = s.parts := rfl
@[simp] theorem tlEvent_ctxs (s : State) (i : Nat) : (s.tlEvent i).ctxs = s.ctxs := rfl
@[simp] theorem tlEvent_stns (s : State) (i : Nat) : (s.tlEvent i).stns = s.stns := rfl
@[simp] theorem tlEvent_stks (s : State) (i : Nat) : (s.tlEvent i).stks = s.stks := rfl
@[simp] theorem tlEvent_cst (s : State) (i : Nat) : (s.tlEvent i).cst = s.cst := rfl
@[simp] theorem tlEvent_fab (s : State) (i : Nat) : (s.tlEvent i).fab = s.fab := rfl
@[simp] theorem tlEvent_kvw (s : State) (i : Nat) : (s.tlEvent i).kvw = s.kvw := rfl
@[simp] theorem tlEvent_pfx (s : State) (i : Nat) : (s.tlEvent i).pfx = s.pfx := rfl
@[simp] theorem tlEvent_moe (s : State) (i : Nat) : (s.tlEvent i).moe = s.moe := rfl
@[simp] theorem tlEvent_images (s : State) (i : Nat) : (s.tlEvent i).images = s.images := rfl
@[simp] theorem tlEvent_pages (s : State) (i : Nat) : (s.tlEvent i).pages = s.pages := rfl
@[simp] theorem tlEvent_seals (s : State) (i : Nat) : (s.tlEvent i).seals = s.seals := rfl
@[simp] theorem tlEvent_faultSec (s : State) (i : Nat) : (s.tlEvent i).faultSec = s.faultSec := rfl
@[simp] theorem tlEvent_faultRate (s : State) (i : Nat) : (s.tlEvent i).faultRate = s.faultRate := rfl
@[simp] theorem tlEvent_faultSuppressed (s : State) (i : Nat) : (s.tlEvent i).faultSuppressed = s.faultSuppressed := rfl
@[simp] theorem tlEvent_out (s : State) (i : Nat) : (s.tlEvent i).out = s.out := rfl
@[simp] theorem tlEvent_free (s : State) (i : Nat) : (s.tlEvent i).free = s.free := rfl
@[simp] theorem tlEvent_part (s : State) (i : Nat) (j : Nat) : (s.tlEvent i).part j = s.part j := rfl
@[simp] theorem tlEvent_ctx (s : State) (i : Nat) (j : Nat) : (s.tlEvent i).ctx j = s.ctx j := rfl
@[simp] theorem tlEvent_stn (s : State) (i : Nat) (j : Nat) : (s.tlEvent i).stn j = s.stn j := rfl
@[simp] theorem tlEvent_stk (s : State) (i : Nat) (j : Nat) : (s.tlEvent i).stk j = s.stk j := rfl
@[simp] theorem hbEvent_pending (s : State) (n i : Nat) : (s.hbEvent n i).pending = s.pending := rfl
@[simp] theorem hbEvent_now (s : State) (n i : Nat) : (s.hbEvent n i).now = s.now := rfl
@[simp] theorem hbEvent_bring (s : State) (n i : Nat) : (s.hbEvent n i).bring = s.bring := rfl
@[simp] theorem hbEvent_gate (s : State) (n i : Nat) : (s.hbEvent n i).gate = s.gate := rfl
@[simp] theorem hbEvent_nv (s : State) (n i : Nat) : (s.hbEvent n i).nv = s.nv := rfl
@[simp] theorem hbEvent_cmd (s : State) (n i : Nat) : (s.hbEvent n i).cmd = s.cmd := rfl
@[simp] theorem hbEvent_host (s : State) (n i : Nat) : (s.hbEvent n i).host = s.host := rfl
@[simp] theorem hbEvent_gov (s : State) (n i : Nat) : (s.hbEvent n i).gov = s.gov := rfl
@[simp] theorem hbEvent_sec (s : State) (n i : Nat) : (s.hbEvent n i).sec = s.sec := rfl
@[simp] theorem hbEvent_sched (s : State) (n i : Nat) : (s.hbEvent n i).sched = s.sched := rfl
@[simp] theorem hbEvent_parts (s : State) (n i : Nat) : (s.hbEvent n i).parts = s.parts := rfl
@[simp] theorem hbEvent_ctxs (s : State) (n i : Nat) : (s.hbEvent n i).ctxs = s.ctxs := rfl
@[simp] theorem hbEvent_stns (s : State) (n i : Nat) : (s.hbEvent n i).stns = s.stns := rfl
@[simp] theorem hbEvent_cst (s : State) (n i : Nat) : (s.hbEvent n i).cst = s.cst := rfl
@[simp] theorem hbEvent_fab (s : State) (n i : Nat) : (s.hbEvent n i).fab = s.fab := rfl
@[simp] theorem hbEvent_kvw (s : State) (n i : Nat) : (s.hbEvent n i).kvw = s.kvw := rfl
@[simp] theorem hbEvent_pfx (s : State) (n i : Nat) : (s.hbEvent n i).pfx = s.pfx := rfl
@[simp] theorem hbEvent_moe (s : State) (n i : Nat) : (s.hbEvent n i).moe = s.moe := rfl
@[simp] theorem hbEvent_tally (s : State) (n i : Nat) : (s.hbEvent n i).tally = s.tally := rfl
@[simp] theorem hbEvent_images (s : State) (n i : Nat) : (s.hbEvent n i).images = s.images := rfl
@[simp] theorem hbEvent_pages (s : State) (n i : Nat) : (s.hbEvent n i).pages = s.pages := rfl
@[simp] theorem hbEvent_seals (s : State) (n i : Nat) : (s.hbEvent n i).seals = s.seals := rfl
@[simp] theorem hbEvent_faultSec (s : State) (n i : Nat) : (s.hbEvent n i).faultSec = s.faultSec := rfl
@[simp] theorem hbEvent_faultRate (s : State) (n i : Nat) : (s.hbEvent n i).faultRate = s.faultRate := rfl
@[simp] theorem hbEvent_faultSuppressed (s : State) (n i : Nat) : (s.hbEvent n i).faultSuppressed = s.faultSuppressed := rfl
@[simp] theorem hbEvent_out (s : State) (n i : Nat) : (s.hbEvent n i).out = s.out := rfl
@[simp] theorem hbEvent_free (s : State) (n i : Nat) : (s.hbEvent n i).free = s.free := rfl
@[simp] theorem hbEvent_part (s : State) (n i : Nat) (j : Nat) : (s.hbEvent n i).part j = s.part j := rfl
@[simp] theorem hbEvent_ctx (s : State) (n i : Nat) (j : Nat) : (s.hbEvent n i).ctx j = s.ctx j := rfl
@[simp] theorem hbEvent_stn (s : State) (n i : Nat) (j : Nat) : (s.hbEvent n i).stn j = s.stn j := rfl

end Sys2Proof.Laws
end

