-- ==== Sys2Proof/Laws/Ops.lean ====
section
/-!
SUPPORT. One spec lemma for each shared operation of Machine/Ops.lean that sends, answers or logs: everything it can change. The
field lemmas after each follow from it.
-/

namespace Sys2Proof.Laws

open Sys2Proof Sys2Proof.Machine

/-- Sending an event writes the log and the port counter. -/
theorem sendEvent_spec (s : State) (k : Slot) (e : QueuedEvent) : ∃ x_host x_out, s.sendEvent k e = { s with host := x_host, out := x_out } := by
  exact ⟨_, _, rfl⟩

@[simp] theorem sendEvent_pending (s : State) (k : Slot) (e : QueuedEvent) : (s.sendEvent k e).pending = s.pending := by
  obtain ⟨_, _, h⟩ := sendEvent_spec s k e; rw [h]
@[simp] theorem sendEvent_now (s : State) (k : Slot) (e : QueuedEvent) : (s.sendEvent k e).now = s.now := by
  obtain ⟨_, _, h⟩ := sendEvent_spec s k e; rw [h]
@[simp] theorem sendEvent_bring (s : State) (k : Slot) (e : QueuedEvent) : (s.sendEvent k e).bring = s.bring := by
  obtain ⟨_, _, h⟩ := sendEvent_spec s k e; rw [h]
@[simp] theorem sendEvent_gate (s : State) (k : Slot) (e : QueuedEvent) : (s.sendEvent k e).gate = s.gate := by
  obtain ⟨_, _, h⟩ := sendEvent_spec s k e; rw [h]
@[simp] theorem sendEvent_nv (s : State) (k : Slot) (e : QueuedEvent) : (s.sendEvent k e).nv = s.nv := by
  obtain ⟨_, _, h⟩ := sendEvent_spec s k e; rw [h]
@[simp] theorem sendEvent_cmd (s : State) (k : Slot) (e : QueuedEvent) : (s.sendEvent k e).cmd = s.cmd := by
  obtain ⟨_, _, h⟩ := sendEvent_spec s k e; rw [h]
@[simp] theorem sendEvent_gov (s : State) (k : Slot) (e : QueuedEvent) : (s.sendEvent k e).gov = s.gov := by
  obtain ⟨_, _, h⟩ := sendEvent_spec s k e; rw [h]
@[simp] theorem sendEvent_sec (s : State) (k : Slot) (e : QueuedEvent) : (s.sendEvent k e).sec = s.sec := by
  obtain ⟨_, _, h⟩ := sendEvent_spec s k e; rw [h]
@[simp] theorem sendEvent_sched (s : State) (k : Slot) (e : QueuedEvent) : (s.sendEvent k e).sched = s.sched := by
  obtain ⟨_, _, h⟩ := sendEvent_spec s k e; rw [h]
@[simp] theorem sendEvent_parts (s : State) (k : Slot) (e : QueuedEvent) : (s.sendEvent k e).parts = s.parts := by
  obtain ⟨_, _, h⟩ := sendEvent_spec s k e; rw [h]
@[simp] theorem sendEvent_ctxs (s : State) (k : Slot) (e : QueuedEvent) : (s.sendEvent k e).ctxs = s.ctxs := by
  obtain ⟨_, _, h⟩ := sendEvent_spec s k e; rw [h]
@[simp] theorem sendEvent_stns (s : State) (k : Slot) (e : QueuedEvent) : (s.sendEvent k e).stns = s.stns := by
  obtain ⟨_, _, h⟩ := sendEvent_spec s k e; rw [h]
@[simp] theorem sendEvent_stks (s : State) (k : Slot) (e : QueuedEvent) : (s.sendEvent k e).stks = s.stks := by
  obtain ⟨_, _, h⟩ := sendEvent_spec s k e; rw [h]
@[simp] theorem sendEvent_cst (s : State) (k : Slot) (e : QueuedEvent) : (s.sendEvent k e).cst = s.cst := by
  obtain ⟨_, _, h⟩ := sendEvent_spec s k e; rw [h]
@[simp] theorem sendEvent_fab (s : State) (k : Slot) (e : QueuedEvent) : (s.sendEvent k e).fab = s.fab := by
  obtain ⟨_, _, h⟩ := sendEvent_spec s k e; rw [h]
@[simp] theorem sendEvent_kvw (s : State) (k : Slot) (e : QueuedEvent) : (s.sendEvent k e).kvw = s.kvw := by
  obtain ⟨_, _, h⟩ := sendEvent_spec s k e; rw [h]
@[simp] theorem sendEvent_pfx (s : State) (k : Slot) (e : QueuedEvent) : (s.sendEvent k e).pfx = s.pfx := by
  obtain ⟨_, _, h⟩ := sendEvent_spec s k e; rw [h]
@[simp] theorem sendEvent_moe (s : State) (k : Slot) (e : QueuedEvent) : (s.sendEvent k e).moe = s.moe := by
  obtain ⟨_, _, h⟩ := sendEvent_spec s k e; rw [h]
@[simp] theorem sendEvent_tally (s : State) (k : Slot) (e : QueuedEvent) : (s.sendEvent k e).tally = s.tally := by
  obtain ⟨_, _, h⟩ := sendEvent_spec s k e; rw [h]
@[simp] theorem sendEvent_images (s : State) (k : Slot) (e : QueuedEvent) : (s.sendEvent k e).images = s.images := by
  obtain ⟨_, _, h⟩ := sendEvent_spec s k e; rw [h]
@[simp] theorem sendEvent_pages (s : State) (k : Slot) (e : QueuedEvent) : (s.sendEvent k e).pages = s.pages := by
  obtain ⟨_, _, h⟩ := sendEvent_spec s k e; rw [h]
@[simp] theorem sendEvent_seals (s : State) (k : Slot) (e : QueuedEvent) : (s.sendEvent k e).seals = s.seals := by
  obtain ⟨_, _, h⟩ := sendEvent_spec s k e; rw [h]
@[simp] theorem sendEvent_faultSec (s : State) (k : Slot) (e : QueuedEvent) : (s.sendEvent k e).faultSec = s.faultSec := by
  obtain ⟨_, _, h⟩ := sendEvent_spec s k e; rw [h]
@[simp] theorem sendEvent_faultRate (s : State) (k : Slot) (e : QueuedEvent) : (s.sendEvent k e).faultRate = s.faultRate := by
  obtain ⟨_, _, h⟩ := sendEvent_spec s k e; rw [h]
@[simp] theorem sendEvent_faultSuppressed (s : State) (k : Slot) (e : QueuedEvent) : (s.sendEvent k e).faultSuppressed = s.faultSuppressed := by
  obtain ⟨_, _, h⟩ := sendEvent_spec s k e; rw [h]
@[simp] theorem sendEvent_free (s : State) (k : Slot) (e : QueuedEvent) : (s.sendEvent k e).free = s.free := by
  obtain ⟨_, _, h⟩ := sendEvent_spec s k e; rw [h]
@[simp] theorem sendEvent_part (s : State) (k : Slot) (e : QueuedEvent) (j : Nat) : (s.sendEvent k e).part j = s.part j := by
  simp [State.part]
@[simp] theorem sendEvent_ctx (s : State) (k : Slot) (e : QueuedEvent) (j : Nat) : (s.sendEvent k e).ctx j = s.ctx j := by
  simp [State.ctx]
@[simp] theorem sendEvent_stn (s : State) (k : Slot) (e : QueuedEvent) (j : Nat) : (s.sendEvent k e).stn j = s.stn j := by
  simp [State.stn]
@[simp] theorem sendEvent_stk (s : State) (k : Slot) (e : QueuedEvent) (j : Nat) : (s.sendEvent k e).stk j = s.stk j := by
  simp [State.stk]

/-- Queuing an event touches the sessions, a counter, the log and the port counter. -/
theorem queueEvent_spec (s : State) (k : Slot) (o x : BitVec 16) (b : Bytes) : ∃ x_cmd x_host x_tally x_out, s.queueEvent k o x b = { s with cmd := x_cmd, host := x_host, tally := x_tally, out := x_out } := by
  unfold State.queueEvent
  simp only []
  split
  · exact ⟨_, _, _, _, rfl⟩
  · cases k <;> split <;> exact ⟨_, _, _, _, rfl⟩

@[simp] theorem queueEvent_pending (s : State) (k : Slot) (o x : BitVec 16) (b : Bytes) : (s.queueEvent k o x b).pending = s.pending := by
  obtain ⟨_, _, _, _, h⟩ := queueEvent_spec s k o x b; rw [h]
@[simp] theorem queueEvent_now (s : State) (k : Slot) (o x : BitVec 16) (b : Bytes) : (s.queueEvent k o x b).now = s.now := by
  obtain ⟨_, _, _, _, h⟩ := queueEvent_spec s k o x b; rw [h]
@[simp] theorem queueEvent_bring (s : State) (k : Slot) (o x : BitVec 16) (b : Bytes) : (s.queueEvent k o x b).bring = s.bring := by
  obtain ⟨_, _, _, _, h⟩ := queueEvent_spec s k o x b; rw [h]
@[simp] theorem queueEvent_gate (s : State) (k : Slot) (o x : BitVec 16) (b : Bytes) : (s.queueEvent k o x b).gate = s.gate := by
  obtain ⟨_, _, _, _, h⟩ := queueEvent_spec s k o x b; rw [h]
@[simp] theorem queueEvent_nv (s : State) (k : Slot) (o x : BitVec 16) (b : Bytes) : (s.queueEvent k o x b).nv = s.nv := by
  obtain ⟨_, _, _, _, h⟩ := queueEvent_spec s k o x b; rw [h]
@[simp] theorem queueEvent_gov (s : State) (k : Slot) (o x : BitVec 16) (b : Bytes) : (s.queueEvent k o x b).gov = s.gov := by
  obtain ⟨_, _, _, _, h⟩ := queueEvent_spec s k o x b; rw [h]
@[simp] theorem queueEvent_sec (s : State) (k : Slot) (o x : BitVec 16) (b : Bytes) : (s.queueEvent k o x b).sec = s.sec := by
  obtain ⟨_, _, _, _, h⟩ := queueEvent_spec s k o x b; rw [h]
@[simp] theorem queueEvent_sched (s : State) (k : Slot) (o x : BitVec 16) (b : Bytes) : (s.queueEvent k o x b).sched = s.sched := by
  obtain ⟨_, _, _, _, h⟩ := queueEvent_spec s k o x b; rw [h]
@[simp] theorem queueEvent_parts (s : State) (k : Slot) (o x : BitVec 16) (b : Bytes) : (s.queueEvent k o x b).parts = s.parts := by
  obtain ⟨_, _, _, _, h⟩ := queueEvent_spec s k o x b; rw [h]
@[simp] theorem queueEvent_ctxs (s : State) (k : Slot) (o x : BitVec 16) (b : Bytes) : (s.queueEvent k o x b).ctxs = s.ctxs := by
  obtain ⟨_, _, _, _, h⟩ := queueEvent_spec s k o x b; rw [h]
@[simp] theorem queueEvent_stns (s : State) (k : Slot) (o x : BitVec 16) (b : Bytes) : (s.queueEvent k o x b).stns = s.stns := by
  obtain ⟨_, _, _, _, h⟩ := queueEvent_spec s k o x b; rw [h]
@[simp] theorem queueEvent_stks (s : State) (k : Slot) (o x : BitVec 16) (b : Bytes) : (s.queueEvent k o x b).stks = s.stks := by
  obtain ⟨_, _, _, _, h⟩ := queueEvent_spec s k o x b; rw [h]
@[simp] theorem queueEvent_cst (s : State) (k : Slot) (o x : BitVec 16) (b : Bytes) : (s.queueEvent k o x b).cst = s.cst := by
  obtain ⟨_, _, _, _, h⟩ := queueEvent_spec s k o x b; rw [h]
@[simp] theorem queueEvent_fab (s : State) (k : Slot) (o x : BitVec 16) (b : Bytes) : (s.queueEvent k o x b).fab = s.fab := by
  obtain ⟨_, _, _, _, h⟩ := queueEvent_spec s k o x b; rw [h]
@[simp] theorem queueEvent_kvw (s : State) (k : Slot) (o x : BitVec 16) (b : Bytes) : (s.queueEvent k o x b).kvw = s.kvw := by
  obtain ⟨_, _, _, _, h⟩ := queueEvent_spec s k o x b; rw [h]
@[simp] theorem queueEvent_pfx (s : State) (k : Slot) (o x : BitVec 16) (b : Bytes) : (s.queueEvent k o x b).pfx = s.pfx := by
  obtain ⟨_, _, _, _, h⟩ := queueEvent_spec s k o x b; rw [h]
@[simp] theorem queueEvent_moe (s : State) (k : Slot) (o x : BitVec 16) (b : Bytes) : (s.queueEvent k o x b).moe = s.moe := by
  obtain ⟨_, _, _, _, h⟩ := queueEvent_spec s k o x b; rw [h]
@[simp] theorem queueEvent_images (s : State) (k : Slot) (o x : BitVec 16) (b : Bytes) : (s.queueEvent k o x b).images = s.images := by
  obtain ⟨_, _, _, _, h⟩ := queueEvent_spec s k o x b; rw [h]
@[simp] theorem queueEvent_pages (s : State) (k : Slot) (o x : BitVec 16) (b : Bytes) : (s.queueEvent k o x b).pages = s.pages := by
  obtain ⟨_, _, _, _, h⟩ := queueEvent_spec s k o x b; rw [h]
@[simp] theorem queueEvent_seals (s : State) (k : Slot) (o x : BitVec 16) (b : Bytes) : (s.queueEvent k o x b).seals = s.seals := by
  obtain ⟨_, _, _, _, h⟩ := queueEvent_spec s k o x b; rw [h]
@[simp] theorem queueEvent_faultSec (s : State) (k : Slot) (o x : BitVec 16) (b : Bytes) : (s.queueEvent k o x b).faultSec = s.faultSec := by
  obtain ⟨_, _, _, _, h⟩ := queueEvent_spec s k o x b; rw [h]
@[simp] theorem queueEvent_faultRate (s : State) (k : Slot) (o x : BitVec 16) (b : Bytes) : (s.queueEvent k o x b).faultRate = s.faultRate := by
  obtain ⟨_, _, _, _, h⟩ := queueEvent_spec s k o x b; rw [h]
@[simp] theorem queueEvent_faultSuppressed (s : State) (k : Slot) (o x : BitVec 16) (b : Bytes) : (s.queueEvent k o x b).faultSuppressed = s.faultSuppressed := by
  obtain ⟨_, _, _, _, h⟩ := queueEvent_spec s k o x b; rw [h]
@[simp] theorem queueEvent_free (s : State) (k : Slot) (o x : BitVec 16) (b : Bytes) : (s.queueEvent k o x b).free = s.free := by
  obtain ⟨_, _, _, _, h⟩ := queueEvent_spec s k o x b; rw [h]
@[simp] theorem queueEvent_part (s : State) (k : Slot) (o x : BitVec 16) (b : Bytes) (j : Nat) : (s.queueEvent k o x b).part j = s.part j := by
  simp [State.part]
@[simp] theorem queueEvent_ctx (s : State) (k : Slot) (o x : BitVec 16) (b : Bytes) (j : Nat) : (s.queueEvent k o x b).ctx j = s.ctx j := by
  simp [State.ctx]
@[simp] theorem queueEvent_stn (s : State) (k : Slot) (o x : BitVec 16) (b : Bytes) (j : Nat) : (s.queueEvent k o x b).stn j = s.stn j := by
  simp [State.stn]
@[simp] theorem queueEvent_stk (s : State) (k : Slot) (o x : BitVec 16) (b : Bytes) (j : Nat) : (s.queueEvent k o x b).stk j = s.stk j := by
  simp [State.stk]

/-- Generating an event for both slots touches no more. -/
theorem postEvent_spec (s : State) (o x : BitVec 16) (b : Bytes) : ∃ x_cmd x_host x_tally x_out, s.postEvent o x b = { s with cmd := x_cmd, host := x_host, tally := x_tally, out := x_out } := by
  obtain ⟨_, _, _, _, h1⟩ := queueEvent_spec s .a o x b
  obtain ⟨_, _, _, _, h2⟩ := queueEvent_spec (s.queueEvent .a o x b) .b o x b
  exact ⟨_, _, _, _, by rw [State.postEvent, h2, h1]⟩

@[simp] theorem postEvent_pending (s : State) (o x : BitVec 16) (b : Bytes) : (s.postEvent o x b).pending = s.pending := by
  obtain ⟨_, _, _, _, h⟩ := postEvent_spec s o x b; rw [h]
@[simp] theorem postEvent_now (s : State) (o x : BitVec 16) (b : Bytes) : (s.postEvent o x b).now = s.now := by
  obtain ⟨_, _, _, _, h⟩ := postEvent_spec s o x b; rw [h]
@[simp] theorem postEvent_bring (s : State) (o x : BitVec 16) (b : Bytes) : (s.postEvent o x b).bring = s.bring := by
  obtain ⟨_, _, _, _, h⟩ := postEvent_spec s o x b; rw [h]
@[simp] theorem postEvent_gate (s : State) (o x : BitVec 16) (b : Bytes) : (s.postEvent o x b).gate = s.gate := by
  obtain ⟨_, _, _, _, h⟩ := postEvent_spec s o x b; rw [h]
@[simp] theorem postEvent_nv (s : State) (o x : BitVec 16) (b : Bytes) : (s.postEvent o x b).nv = s.nv := by
  obtain ⟨_, _, _, _, h⟩ := postEvent_spec s o x b; rw [h]
@[simp] theorem postEvent_gov (s : State) (o x : BitVec 16) (b : Bytes) : (s.postEvent o x b).gov = s.gov := by
  obtain ⟨_, _, _, _, h⟩ := postEvent_spec s o x b; rw [h]
@[simp] theorem postEvent_sec (s : State) (o x : BitVec 16) (b : Bytes) : (s.postEvent o x b).sec = s.sec := by
  obtain ⟨_, _, _, _, h⟩ := postEvent_spec s o x b; rw [h]
@[simp] theorem postEvent_sched (s : State) (o x : BitVec 16) (b : Bytes) : (s.postEvent o x b).sched = s.sched := by
  obtain ⟨_, _, _, _, h⟩ := postEvent_spec s o x b; rw [h]
@[simp] theorem postEvent_parts (s : State) (o x : BitVec 16) (b : Bytes) : (s.postEvent o x b).parts = s.parts := by
  obtain ⟨_, _, _, _, h⟩ := postEvent_spec s o x b; rw [h]
@[simp] theorem postEvent_ctxs (s : State) (o x : BitVec 16) (b : Bytes) : (s.postEvent o x b).ctxs = s.ctxs := by
  obtain ⟨_, _, _, _, h⟩ := postEvent_spec s o x b; rw [h]
@[simp] theorem postEvent_stns (s : State) (o x : BitVec 16) (b : Bytes) : (s.postEvent o x b).stns = s.stns := by
  obtain ⟨_, _, _, _, h⟩ := postEvent_spec s o x b; rw [h]
@[simp] theorem postEvent_stks (s : State) (o x : BitVec 16) (b : Bytes) : (s.postEvent o x b).stks = s.stks := by
  obtain ⟨_, _, _, _, h⟩ := postEvent_spec s o x b; rw [h]
@[simp] theorem postEvent_cst (s : State) (o x : BitVec 16) (b : Bytes) : (s.postEvent o x b).cst = s.cst := by
  obtain ⟨_, _, _, _, h⟩ := postEvent_spec s o x b; rw [h]
@[simp] theorem postEvent_fab (s : State) (o x : BitVec 16) (b : Bytes) : (s.postEvent o x b).fab = s.fab := by
  obtain ⟨_, _, _, _, h⟩ := postEvent_spec s o x b; rw [h]
@[simp] theorem postEvent_kvw (s : State) (o x : BitVec 16) (b : Bytes) : (s.postEvent o x b).kvw = s.kvw := by
  obtain ⟨_, _, _, _, h⟩ := postEvent_spec s o x b; rw [h]
@[simp] theorem postEvent_pfx (s : State) (o x : BitVec 16) (b : Bytes) : (s.postEvent o x b).pfx = s.pfx := by
  obtain ⟨_, _, _, _, h⟩ := postEvent_spec s o x b; rw [h]
@[simp] theorem postEvent_moe (s : State) (o x : BitVec 16) (b : Bytes) : (s.postEvent o x b).moe = s.moe := by
  obtain ⟨_, _, _, _, h⟩ := postEvent_spec s o x b; rw [h]
@[simp] theorem postEvent_images (s : State) (o x : BitVec 16) (b : Bytes) : (s.postEvent o x b).images = s.images := by
  obtain ⟨_, _, _, _, h⟩ := postEvent_spec s o x b; rw [h]
@[simp] theorem postEvent_pages (s : State) (o x : BitVec 16) (b : Bytes) : (s.postEvent o x b).pages = s.pages := by
  obtain ⟨_, _, _, _, h⟩ := postEvent_spec s o x b; rw [h]
@[simp] theorem postEvent_seals (s : State) (o x : BitVec 16) (b : Bytes) : (s.postEvent o x b).seals = s.seals := by
  obtain ⟨_, _, _, _, h⟩ := postEvent_spec s o x b; rw [h]
@[simp] theorem postEvent_faultSec (s : State) (o x : BitVec 16) (b : Bytes) : (s.postEvent o x b).faultSec = s.faultSec := by
  obtain ⟨_, _, _, _, h⟩ := postEvent_spec s o x b; rw [h]
@[simp] theorem postEvent_faultRate (s : State) (o x : BitVec 16) (b : Bytes) : (s.postEvent o x b).faultRate = s.faultRate := by
  obtain ⟨_, _, _, _, h⟩ := postEvent_spec s o x b; rw [h]
@[simp] theorem postEvent_faultSuppressed (s : State) (o x : BitVec 16) (b : Bytes) : (s.postEvent o x b).faultSuppressed = s.faultSuppressed := by
  obtain ⟨_, _, _, _, h⟩ := postEvent_spec s o x b; rw [h]
@[simp] theorem postEvent_free (s : State) (o x : BitVec 16) (b : Bytes) : (s.postEvent o x b).free = s.free := by
  obtain ⟨_, _, _, _, h⟩ := postEvent_spec s o x b; rw [h]
@[simp] theorem postEvent_part (s : State) (o x : BitVec 16) (b : Bytes) (j : Nat) : (s.postEvent o x b).part j = s.part j := by
  simp [State.part]
@[simp] theorem postEvent_ctx (s : State) (o x : BitVec 16) (b : Bytes) (j : Nat) : (s.postEvent o x b).ctx j = s.ctx j := by
  simp [State.ctx]
@[simp] theorem postEvent_stn (s : State) (o x : BitVec 16) (b : Bytes) (j : Nat) : (s.postEvent o x b).stn j = s.stn j := by
  simp [State.stn]
@[simp] theorem postEvent_stk (s : State) (o x : BitVec 16) (b : Bytes) (j : Nat) : (s.postEvent o x b).stk j = s.stk j := by
  simp [State.stk]

/-- A POWER event touches no more. -/
theorem powerEvent_spec (s : State) (kind cause part value count window : Nat) : ∃ x_cmd x_host x_tally x_out, s.powerEvent kind cause part value count window = { s with cmd := x_cmd, host := x_host, tally := x_tally, out := x_out } := by
  exact postEvent_spec _ _ _ _

@[simp] theorem powerEvent_pending (s : State) (kind cause part value count window : Nat) : (s.powerEvent kind cause part value count window).pending = s.pending := by
  obtain ⟨_, _, _, _, h⟩ := powerEvent_spec s kind cause part value count window; rw [h]
@[simp] theorem powerEvent_now (s : State) (kind cause part value count window : Nat) : (s.powerEvent kind cause part value count window).now = s.now := by
  obtain ⟨_, _, _, _, h⟩ := powerEvent_spec s kind cause part value count window; rw [h]
@[simp] theorem powerEvent_bring (s : State) (kind cause part value count window : Nat) : (s.powerEvent kind cause part value count window).bring = s.bring := by
  obtain ⟨_, _, _, _, h⟩ := powerEvent_spec s kind cause part value count window; rw [h]
@[simp] theorem powerEvent_gate (s : State) (kind cause part value count window : Nat) : (s.powerEvent kind cause part value count window).gate = s.gate := by
  obtain ⟨_, _, _, _, h⟩ := powerEvent_spec s kind cause part value count window; rw [h]
@[simp] theorem powerEvent_nv (s : State) (kind cause part value count window : Nat) : (s.powerEvent kind cause part value count window).nv = s.nv := by
  obtain ⟨_, _, _, _, h⟩ := powerEvent_spec s kind cause part value count window; rw [h]
@[simp] theorem powerEvent_gov (s : State) (kind cause part value count window : Nat) : (s.powerEvent kind cause part value count window).gov = s.gov := by
  obtain ⟨_, _, _, _, h⟩ := powerEvent_spec s kind cause part value count window; rw [h]
@[simp] theorem powerEvent_sec (s : State) (kind cause part value count window : Nat) : (s.powerEvent kind cause part value count window).sec = s.sec := by
  obtain ⟨_, _, _, _, h⟩ := powerEvent_spec s kind cause part value count window; rw [h]
@[simp] theorem powerEvent_sched (s : State) (kind cause part value count window : Nat) : (s.powerEvent kind cause part value count window).sched = s.sched := by
  obtain ⟨_, _, _, _, h⟩ := powerEvent_spec s kind cause part value count window; rw [h]
@[simp] theorem powerEvent_parts (s : State) (kind cause part value count window : Nat) : (s.powerEvent kind cause part value count window).parts = s.parts := by
  obtain ⟨_, _, _, _, h⟩ := powerEvent_spec s kind cause part value count window; rw [h]
@[simp] theorem powerEvent_ctxs (s : State) (kind cause part value count window : Nat) : (s.powerEvent kind cause part value count window).ctxs = s.ctxs := by
  obtain ⟨_, _, _, _, h⟩ := powerEvent_spec s kind cause part value count window; rw [h]
@[simp] theorem powerEvent_stns (s : State) (kind cause part value count window : Nat) : (s.powerEvent kind cause part value count window).stns = s.stns := by
  obtain ⟨_, _, _, _, h⟩ := powerEvent_spec s kind cause part value count window; rw [h]
@[simp] theorem powerEvent_stks (s : State) (kind cause part value count window : Nat) : (s.powerEvent kind cause part value count window).stks = s.stks := by
  obtain ⟨_, _, _, _, h⟩ := powerEvent_spec s kind cause part value count window; rw [h]
@[simp] theorem powerEvent_cst (s : State) (kind cause part value count window : Nat) : (s.powerEvent kind cause part value count window).cst = s.cst := by
  obtain ⟨_, _, _, _, h⟩ := powerEvent_spec s kind cause part value count window; rw [h]
@[simp] theorem powerEvent_fab (s : State) (kind cause part value count window : Nat) : (s.powerEvent kind cause part value count window).fab = s.fab := by
  obtain ⟨_, _, _, _, h⟩ := powerEvent_spec s kind cause part value count window; rw [h]
@[simp] theorem powerEvent_kvw (s : State) (kind cause part value count window : Nat) : (s.powerEvent kind cause part value count window).kvw = s.kvw := by
  obtain ⟨_, _, _, _, h⟩ := powerEvent_spec s kind cause part value count window; rw [h]
@[simp] theorem powerEvent_pfx (s : State) (kind cause part value count window : Nat) : (s.powerEvent kind cause part value count window).pfx = s.pfx := by
  obtain ⟨_, _, _, _, h⟩ := powerEvent_spec s kind cause part value count window; rw [h]
@[simp] theorem powerEvent_moe (s : State) (kind cause part value count window : Nat) : (s.powerEvent kind cause part value count window).moe = s.moe := by
  obtain ⟨_, _, _, _, h⟩ := powerEvent_spec s kind cause part value count window; rw [h]
@[simp] theorem powerEvent_images (s : State) (kind cause part value count window : Nat) : (s.powerEvent kind cause part value count window).images = s.images := by
  obtain ⟨_, _, _, _, h⟩ := powerEvent_spec s kind cause part value count window; rw [h]
@[simp] theorem powerEvent_pages (s : State) (kind cause part value count window : Nat) : (s.powerEvent kind cause part value count window).pages = s.pages := by
  obtain ⟨_, _, _, _, h⟩ := powerEvent_spec s kind cause part value count window; rw [h]
@[simp] theorem powerEvent_seals (s : State) (kind cause part value count window : Nat) : (s.powerEvent kind cause part value count window).seals = s.seals := by
  obtain ⟨_, _, _, _, h⟩ := powerEvent_spec s kind cause part value count window; rw [h]
@[simp] theorem powerEvent_faultSec (s : State) (kind cause part value count window : Nat) : (s.powerEvent kind cause part value count window).faultSec = s.faultSec := by
  obtain ⟨_, _, _, _, h⟩ := powerEvent_spec s kind cause part value count window; rw [h]
@[simp] theorem powerEvent_faultRate (s : State) (kind cause part value count window : Nat) : (s.powerEvent kind cause part value count window).faultRate = s.faultRate := by
  obtain ⟨_, _, _, _, h⟩ := powerEvent_spec s kind cause part value count window; rw [h]
@[simp] theorem powerEvent_faultSuppressed (s : State) (kind cause part value count window : Nat) : (s.powerEvent kind cause part value count window).faultSuppressed = s.faultSuppressed := by
  obtain ⟨_, _, _, _, h⟩ := powerEvent_spec s kind cause part value count window; rw [h]
@[simp] theorem powerEvent_free (s : State) (kind cause part value count window : Nat) : (s.powerEvent kind cause part value count window).free = s.free := by
  obtain ⟨_, _, _, _, h⟩ := powerEvent_spec s kind cause part value count window; rw [h]
@[simp] theorem powerEvent_part (s : State) (kind cause part value count window : Nat) (j : Nat) : (s.powerEvent kind cause part value count window).part j = s.part j := by
  simp [State.part]
@[simp] theorem powerEvent_ctx (s : State) (kind cause part value count window : Nat) (j : Nat) : (s.powerEvent kind cause part value count window).ctx j = s.ctx j := by
  simp [State.ctx]
@[simp] theorem powerEvent_stn (s : State) (kind cause part value count window : Nat) (j : Nat) : (s.powerEvent kind cause part value count window).stn j = s.stn j := by
  simp [State.stn]
@[simp] theorem powerEvent_stk (s : State) (kind cause part value count window : Nat) (j : Nat) : (s.powerEvent kind cause part value count window).stk j = s.stk j := by
  simp [State.stk]

/-- A reply packet writes the log and the port counter. -/
theorem emitReply_spec (s : State) (p : Pkt) (st : BitVec 16) (d : BitVec 32) (b : Bytes) : ∃ x_host x_out, s.emitReply p st d b = { s with host := x_host, out := x_out } := by
  exact ⟨_, _, rfl⟩

@[simp] theorem emitReply_pending (s : State) (p : Pkt) (st : BitVec 16) (d : BitVec 32) (b : Bytes) : (s.emitReply p st d b).pending = s.pending := by
  obtain ⟨_, _, h⟩ := emitReply_spec s p st d b; rw [h]
@[simp] theorem emitReply_now (s : State) (p : Pkt) (st : BitVec 16) (d : BitVec 32) (b : Bytes) : (s.emitReply p st d b).now = s.now := by
  obtain ⟨_, _, h⟩ := emitReply_spec s p st d b; rw [h]
@[simp] theorem emitReply_bring (s : State) (p : Pkt) (st : BitVec 16) (d : BitVec 32) (b : Bytes) : (s.emitReply p st d b).bring = s.bring := by
  obtain ⟨_, _, h⟩ := emitReply_spec s p st d b; rw [h]
@[simp] theorem emitReply_gate (s : State) (p : Pkt) (st : BitVec 16) (d : BitVec 32) (b : Bytes) : (s.emitReply p st d b).gate = s.gate := by
  obtain ⟨_, _, h⟩ := emitReply_spec s p st d b; rw [h]
@[simp] theorem emitReply_nv (s : State) (p : Pkt) (st : BitVec 16) (d : BitVec 32) (b : Bytes) : (s.emitReply p st d b).nv = s.nv := by
  obtain ⟨_, _, h⟩ := emitReply_spec s p st d b; rw [h]
@[simp] theorem emitReply_cmd (s : State) (p : Pkt) (st : BitVec 16) (d : BitVec 32) (b : Bytes) : (s.emitReply p st d b).cmd = s.cmd := by
  obtain ⟨_, _, h⟩ := emitReply_spec s p st d b; rw [h]
@[simp] theorem emitReply_gov (s : State) (p : Pkt) (st : BitVec 16) (d : BitVec 32) (b : Bytes) : (s.emitReply p st d b).gov = s.gov := by
  obtain ⟨_, _, h⟩ := emitReply_spec s p st d b; rw [h]
@[simp] theorem emitReply_sec (s : State) (p : Pkt) (st : BitVec 16) (d : BitVec 32) (b : Bytes) : (s.emitReply p st d b).sec = s.sec := by
  obtain ⟨_, _, h⟩ := emitReply_spec s p st d b; rw [h]
@[simp] theorem emitReply_sched (s : State) (p : Pkt) (st : BitVec 16) (d : BitVec 32) (b : Bytes) : (s.emitReply p st d b).sched = s.sched := by
  obtain ⟨_, _, h⟩ := emitReply_spec s p st d b; rw [h]
@[simp] theorem emitReply_parts (s : State) (p : Pkt) (st : BitVec 16) (d : BitVec 32) (b : Bytes) : (s.emitReply p st d b).parts = s.parts := by
  obtain ⟨_, _, h⟩ := emitReply_spec s p st d b; rw [h]
@[simp] theorem emitReply_ctxs (s : State) (p : Pkt) (st : BitVec 16) (d : BitVec 32) (b : Bytes) : (s.emitReply p st d b).ctxs = s.ctxs := by
  obtain ⟨_, _, h⟩ := emitReply_spec s p st d b; rw [h]
@[simp] theorem emitReply_stns (s : State) (p : Pkt) (st : BitVec 16) (d : BitVec 32) (b : Bytes) : (s.emitReply p st d b).stns = s.stns := by
  obtain ⟨_, _, h⟩ := emitReply_spec s p st d b; rw [h]
@[simp] theorem emitReply_stks (s : State) (p : Pkt) (st : BitVec 16) (d : BitVec 32) (b : Bytes) : (s.emitReply p st d b).stks = s.stks := by
  obtain ⟨_, _, h⟩ := emitReply_spec s p st d b; rw [h]
@[simp] theorem emitReply_cst (s : State) (p : Pkt) (st : BitVec 16) (d : BitVec 32) (b : Bytes) : (s.emitReply p st d b).cst = s.cst := by
  obtain ⟨_, _, h⟩ := emitReply_spec s p st d b; rw [h]
@[simp] theorem emitReply_fab (s : State) (p : Pkt) (st : BitVec 16) (d : BitVec 32) (b : Bytes) : (s.emitReply p st d b).fab = s.fab := by
  obtain ⟨_, _, h⟩ := emitReply_spec s p st d b; rw [h]
@[simp] theorem emitReply_kvw (s : State) (p : Pkt) (st : BitVec 16) (d : BitVec 32) (b : Bytes) : (s.emitReply p st d b).kvw = s.kvw := by
  obtain ⟨_, _, h⟩ := emitReply_spec s p st d b; rw [h]
@[simp] theorem emitReply_pfx (s : State) (p : Pkt) (st : BitVec 16) (d : BitVec 32) (b : Bytes) : (s.emitReply p st d b).pfx = s.pfx := by
  obtain ⟨_, _, h⟩ := emitReply_spec s p st d b; rw [h]
@[simp] theorem emitReply_moe (s : State) (p : Pkt) (st : BitVec 16) (d : BitVec 32) (b : Bytes) : (s.emitReply p st d b).moe = s.moe := by
  obtain ⟨_, _, h⟩ := emitReply_spec s p st d b; rw [h]
@[simp] theorem emitReply_tally (s : State) (p : Pkt) (st : BitVec 16) (d : BitVec 32) (b : Bytes) : (s.emitReply p st d b).tally = s.tally := by
  obtain ⟨_, _, h⟩ := emitReply_spec s p st d b; rw [h]
@[simp] theorem emitReply_images (s : State) (p : Pkt) (st : BitVec 16) (d : BitVec 32) (b : Bytes) : (s.emitReply p st d b).images = s.images := by
  obtain ⟨_, _, h⟩ := emitReply_spec s p st d b; rw [h]
@[simp] theorem emitReply_pages (s : State) (p : Pkt) (st : BitVec 16) (d : BitVec 32) (b : Bytes) : (s.emitReply p st d b).pages = s.pages := by
  obtain ⟨_, _, h⟩ := emitReply_spec s p st d b; rw [h]
@[simp] theorem emitReply_seals (s : State) (p : Pkt) (st : BitVec 16) (d : BitVec 32) (b : Bytes) : (s.emitReply p st d b).seals = s.seals := by
  obtain ⟨_, _, h⟩ := emitReply_spec s p st d b; rw [h]
@[simp] theorem emitReply_faultSec (s : State) (p : Pkt) (st : BitVec 16) (d : BitVec 32) (b : Bytes) : (s.emitReply p st d b).faultSec = s.faultSec := by
  obtain ⟨_, _, h⟩ := emitReply_spec s p st d b; rw [h]
@[simp] theorem emitReply_faultRate (s : State) (p : Pkt) (st : BitVec 16) (d : BitVec 32) (b : Bytes) : (s.emitReply p st d b).faultRate = s.faultRate := by
  obtain ⟨_, _, h⟩ := emitReply_spec s p st d b; rw [h]
@[simp] theorem emitReply_faultSuppressed (s : State) (p : Pkt) (st : BitVec 16) (d : BitVec 32) (b : Bytes) : (s.emitReply p st d b).faultSuppressed = s.faultSuppressed := by
  obtain ⟨_, _, h⟩ := emitReply_spec s p st d b; rw [h]
@[simp] theorem emitReply_free (s : State) (p : Pkt) (st : BitVec 16) (d : BitVec 32) (b : Bytes) : (s.emitReply p st d b).free = s.free := by
  obtain ⟨_, _, h⟩ := emitReply_spec s p st d b; rw [h]
@[simp] theorem emitReply_part (s : State) (p : Pkt) (st : BitVec 16) (d : BitVec 32) (b : Bytes) (j : Nat) : (s.emitReply p st d b).part j = s.part j := by
  simp [State.part]
@[simp] theorem emitReply_ctx (s : State) (p : Pkt) (st : BitVec 16) (d : BitVec 32) (b : Bytes) (j : Nat) : (s.emitReply p st d b).ctx j = s.ctx j := by
  simp [State.ctx]
@[simp] theorem emitReply_stn (s : State) (p : Pkt) (st : BitVec 16) (d : BitVec 32) (b : Bytes) (j : Nat) : (s.emitReply p st d b).stn j = s.stn j := by
  simp [State.stn]
@[simp] theorem emitReply_stk (s : State) (p : Pkt) (st : BitVec 16) (d : BitVec 32) (b : Bytes) (j : Nat) : (s.emitReply p st d b).stk j = s.stk j := by
  simp [State.stk]

/-- An authentication failure touches its counts. -/
theorem authFail_spec (s : State) : ∃ x_cmd x_sec, s.authFail  = { s with cmd := x_cmd, sec := x_sec } := by
  exact ⟨_, _, rfl⟩

@[simp] theorem authFail_pending (s : State) : (s.authFail ).pending = s.pending := by
  obtain ⟨_, _, h⟩ := authFail_spec s ; rw [h]
@[simp] theorem authFail_now (s : State) : (s.authFail ).now = s.now := by
  obtain ⟨_, _, h⟩ := authFail_spec s ; rw [h]
@[simp] theorem authFail_bring (s : State) : (s.authFail ).bring = s.bring := by
  obtain ⟨_, _, h⟩ := authFail_spec s ; rw [h]
@[simp] theorem authFail_gate (s : State) : (s.authFail ).gate = s.gate := by
  obtain ⟨_, _, h⟩ := authFail_spec s ; rw [h]
@[simp] theorem authFail_nv (s : State) : (s.authFail ).nv = s.nv := by
  obtain ⟨_, _, h⟩ := authFail_spec s ; rw [h]
@[simp] theorem authFail_host (s : State) : (s.authFail ).host = s.host := by
  obtain ⟨_, _, h⟩ := authFail_spec s ; rw [h]
@[simp] theorem authFail_gov (s : State) : (s.authFail ).gov = s.gov := by
  obtain ⟨_, _, h⟩ := authFail_spec s ; rw [h]
@[simp] theorem authFail_sched (s : State) : (s.authFail ).sched = s.sched := by
  obtain ⟨_, _, h⟩ := authFail_spec s ; rw [h]
@[simp] theorem authFail_parts (s : State) : (s.authFail ).parts = s.parts := by
  obtain ⟨_, _, h⟩ := authFail_spec s ; rw [h]
@[simp] theorem authFail_ctxs (s : State) : (s.authFail ).ctxs = s.ctxs := by
  obtain ⟨_, _, h⟩ := authFail_spec s ; rw [h]
@[simp] theorem authFail_stns (s : State) : (s.authFail ).stns = s.stns := by
  obtain ⟨_, _, h⟩ := authFail_spec s ; rw [h]
@[simp] theorem authFail_stks (s : State) : (s.authFail ).stks = s.stks := by
  obtain ⟨_, _, h⟩ := authFail_spec s ; rw [h]
@[simp] theorem authFail_cst (s : State) : (s.authFail ).cst = s.cst := by
  obtain ⟨_, _, h⟩ := authFail_spec s ; rw [h]
@[simp] theorem authFail_fab (s : State) : (s.authFail ).fab = s.fab := by
  obtain ⟨_, _, h⟩ := authFail_spec s ; rw [h]
@[simp] theorem authFail_kvw (s : State) : (s.authFail ).kvw = s.kvw := by
  obtain ⟨_, _, h⟩ := authFail_spec s ; rw [h]
@[simp] theorem authFail_pfx (s : State) : (s.authFail ).pfx = s.pfx := by
  obtain ⟨_, _, h⟩ := authFail_spec s ; rw [h]
@[simp] theorem authFail_moe (s : State) : (s.authFail ).moe = s.moe := by
  obtain ⟨_, _, h⟩ := authFail_spec s ; rw [h]
@[simp] theorem authFail_tally (s : State) : (s.authFail ).tally = s.tally := by
  obtain ⟨_, _, h⟩ := authFail_spec s ; rw [h]
@[simp] theorem authFail_images (s : State) : (s.authFail ).images = s.images := by
  obtain ⟨_, _, h⟩ := authFail_spec s ; rw [h]
@[simp] theorem authFail_pages (s : State) : (s.authFail ).pages = s.pages := by
  obtain ⟨_, _, h⟩ := authFail_spec s ; rw [h]
@[simp] theorem authFail_seals (s : State) : (s.authFail ).seals = s.seals := by
  obtain ⟨_, _, h⟩ := authFail_spec s ; rw [h]
@[simp] theorem authFail_faultSec (s : State) : (s.authFail ).faultSec = s.faultSec := by
  obtain ⟨_, _, h⟩ := authFail_spec s ; rw [h]
@[simp] theorem authFail_faultRate (s : State) : (s.authFail ).faultRate = s.faultRate := by
  obtain ⟨_, _, h⟩ := authFail_spec s ; rw [h]
@[simp] theorem authFail_faultSuppressed (s : State) : (s.authFail ).faultSuppressed = s.faultSuppressed := by
  obtain ⟨_, _, h⟩ := authFail_spec s ; rw [h]
@[simp] theorem authFail_out (s : State) : (s.authFail ).out = s.out := by
  obtain ⟨_, _, h⟩ := authFail_spec s ; rw [h]
@[simp] theorem authFail_free (s : State) : (s.authFail ).free = s.free := by
  obtain ⟨_, _, h⟩ := authFail_spec s ; rw [h]
@[simp] theorem authFail_part (s : State) (j : Nat) : (s.authFail ).part j = s.part j := by
  simp [State.part]
@[simp] theorem authFail_ctx (s : State) (j : Nat) : (s.authFail ).ctx j = s.ctx j := by
  simp [State.ctx]
@[simp] theorem authFail_stn (s : State) (j : Nat) : (s.authFail ).stn j = s.stn j := by
  simp [State.stn]
@[simp] theorem authFail_stk (s : State) (j : Nat) : (s.authFail ).stk j = s.stk j := by
  simp [State.stk]

/-- What an answer can change: counts, the reply cache, the log and the port counter. -/
def Answers (s t : State) : Prop :=
  ∃ x_cmd x_host x_sec x_tally x_out, t = { s with cmd := x_cmd, host := x_host, sec := x_sec, tally := x_tally, out := x_out }

theorem Answers.refl (s : State) : Answers s s := ⟨_, _, _, _, _, rfl⟩

theorem Answers.trans {s t u : State} (h : Answers s t) (k : Answers t u) : Answers s u := by
  obtain ⟨_, _, _, _, _, rfl⟩ := h
  obtain ⟨_, _, _, _, _, rfl⟩ := k
  exact ⟨_, _, _, _, _, rfl⟩

theorem answers_cmEvent (s : State) (i : Nat) : Answers s (s.cmEvent i) := ⟨_, _, _, _, _, rfl⟩
theorem answers_authFail (s : State) : Answers s s.authFail := ⟨_, _, _, _, _, rfl⟩
theorem answers_gateEvent (s : State) (c k : Nat) : Answers s (s.gateEvent c k) := ⟨_, _, _, _, _, rfl⟩
theorem answers_cmd (s : State) (c : Cmd) : Answers s { s with cmd := c } := ⟨_, _, _, _, _, rfl⟩
theorem answers_modSession (s : State) (k : Slot) (f : Session → Session) : Answers s (s.modSession k f) := by
  cases k <;> exact ⟨_, _, _, _, _, rfl⟩
theorem answers_emitReply (s : State) (p : Pkt) (st : BitVec 16) (d : BitVec 32) (b : Bytes) :
    Answers s (s.emitReply p st d b) := ⟨_, _, _, _, _, rfl⟩

theorem answers_emitRefusal (s : State) (p : Pkt) (st : BitVec 16) (d : BitVec 32) (b : Bytes) :
    Answers s (s.emitRefusal p st d b) := by
  unfold State.emitRefusal
  extract_lets sent
  split
  · exact answers_cmd s _
  · exact (answers_cmd s _).trans (answers_emitReply _ _ _ _ _)

theorem answers_sendReply (s : State) (p : Pkt) (st : BitVec 16) (d : BitVec 32) (b : Bytes) :
    Answers s (s.sendReply p st d b) := by
  unfold State.sendReply
  split
  · exact answers_emitRefusal _ _ _ _ _
  · exact answers_emitReply _ _ _ _ _

theorem answers_cacheReply (s : State) (p : Pkt) (st : BitVec 16) (d : BitVec 32) (b : Bytes) :
    Answers s (s.cacheReply p st d b) := by
  unfold State.cacheReply
  split
  · split
    · exact answers_modSession _ _ _
    · exact .refl _
  · exact .refl _

theorem answers_countReply (s : State) (st : BitVec 16) : Answers s (s.countReply st) := by
  unfold State.countReply
  split
  · exact (answers_cmEvent s 3).trans (answers_authFail _)
  · dsimp only
    have h1 (x : Cmd) (c : Nat) : Answers s ({ s with cmd := x }.gateEvent c 1) :=
      (answers_cmd s x).trans (answers_gateEvent _ c 1)
    split <;> split <;> exact h1 _ _

theorem answers_countRefusal (s : State) (st : BitVec 16) : Answers s (s.countRefusal st) := by
  unfold State.countRefusal
  split
  · exact (answers_cmd s _).trans (answers_gateEvent _ 2 1)
  · exact .refl _

theorem answers_foldl {α : Type} (f : State → α → State) (h : ∀ s x, Answers s (f s x)) (l : List α) (s : State) :
    Answers s (l.foldl f s) := by
  induction l generalizing s with
  | nil => exact .refl _
  | cons x l ih => exact (h s x).trans (ih _)

/-- An answer touches counts, the reply cache, the log and the port counter. -/
theorem reply_spec (s : State) (p : Pkt) (st : BitVec 16) (d : BitVec 32) (b : Bytes) : ∃ x_cmd x_host x_sec x_tally x_out, s.reply p st d b = { s with cmd := x_cmd, host := x_host, sec := x_sec, tally := x_tally, out := x_out } := by
  show Answers s (s.reply p st d b)
  unfold State.reply
  dsimp only
  refine Answers.trans (t := ((s.countReply st).countRefusal st).cacheReply p st d b) ?_ ?_
  · exact ((answers_countReply s st).trans (answers_countRefusal _ st)).trans (answers_cacheReply _ p st d b)
  · exact (answers_sendReply _ p st d b).trans (answers_foldl _ (fun u q => answers_sendReply u q st d b) _ _)

@[simp] theorem reply_pending (s : State) (p : Pkt) (st : BitVec 16) (d : BitVec 32) (b : Bytes) : (s.reply p st d b).pending = s.pending := by
  obtain ⟨_, _, _, _, _, h⟩ := reply_spec s p st d b; rw [h]
@[simp] theorem reply_now (s : State) (p : Pkt) (st : BitVec 16) (d : BitVec 32) (b : Bytes) : (s.reply p st d b).now = s.now := by
  obtain ⟨_, _, _, _, _, h⟩ := reply_spec s p st d b; rw [h]
@[simp] theorem reply_bring (s : State) (p : Pkt) (st : BitVec 16) (d : BitVec 32) (b : Bytes) : (s.reply p st d b).bring = s.bring := by
  obtain ⟨_, _, _, _, _, h⟩ := reply_spec s p st d b; rw [h]
@[simp] theorem reply_gate (s : State) (p : Pkt) (st : BitVec 16) (d : BitVec 32) (b : Bytes) : (s.reply p st d b).gate = s.gate := by
  obtain ⟨_, _, _, _, _, h⟩ := reply_spec s p st d b; rw [h]
@[simp] theorem reply_nv (s : State) (p : Pkt) (st : BitVec 16) (d : BitVec 32) (b : Bytes) : (s.reply p st d b).nv = s.nv := by
  obtain ⟨_, _, _, _, _, h⟩ := reply_spec s p st d b; rw [h]
@[simp] theorem reply_gov (s : State) (p : Pkt) (st : BitVec 16) (d : BitVec 32) (b : Bytes) : (s.reply p st d b).gov = s.gov := by
  obtain ⟨_, _, _, _, _, h⟩ := reply_spec s p st d b; rw [h]
@[simp] theorem reply_sched (s : State) (p : Pkt) (st : BitVec 16) (d : BitVec 32) (b : Bytes) : (s.reply p st d b).sched = s.sched := by
  obtain ⟨_, _, _, _, _, h⟩ := reply_spec s p st d b; rw [h]
@[simp] theorem reply_parts (s : State) (p : Pkt) (st : BitVec 16) (d : BitVec 32) (b : Bytes) : (s.reply p st d b).parts = s.parts := by
  obtain ⟨_, _, _, _, _, h⟩ := reply_spec s p st d b; rw [h]
@[simp] theorem reply_ctxs (s : State) (p : Pkt) (st : BitVec 16) (d : BitVec 32) (b : Bytes) : (s.reply p st d b).ctxs = s.ctxs := by
  obtain ⟨_, _, _, _, _, h⟩ := reply_spec s p st d b; rw [h]
@[simp] theorem reply_stns (s : State) (p : Pkt) (st : BitVec 16) (d : BitVec 32) (b : Bytes) : (s.reply p st d b).stns = s.stns := by
  obtain ⟨_, _, _, _, _, h⟩ := reply_spec s p st d b; rw [h]
@[simp] theorem reply_stks (s : State) (p : Pkt) (st : BitVec 16) (d : BitVec 32) (b : Bytes) : (s.reply p st d b).stks = s.stks := by
  obtain ⟨_, _, _, _, _, h⟩ := reply_spec s p st d b; rw [h]
@[simp] theorem reply_cst (s : State) (p : Pkt) (st : BitVec 16) (d : BitVec 32) (b : Bytes) : (s.reply p st d b).cst = s.cst := by
  obtain ⟨_, _, _, _, _, h⟩ := reply_spec s p st d b; rw [h]
@[simp] theorem reply_fab (s : State) (p : Pkt) (st : BitVec 16) (d : BitVec 32) (b : Bytes) : (s.reply p st d b).fab = s.fab := by
  obtain ⟨_, _, _, _, _, h⟩ := reply_spec s p st d b; rw [h]
@[simp] theorem reply_kvw (s : State) (p : Pkt) (st : BitVec 16) (d : BitVec 32) (b : Bytes) : (s.reply p st d b).kvw = s.kvw := by
  obtain ⟨_, _, _, _, _, h⟩ := reply_spec s p st d b; rw [h]
@[simp] theorem reply_pfx (s : State) (p : Pkt) (st : BitVec 16) (d : BitVec 32) (b : Bytes) : (s.reply p st d b).pfx = s.pfx := by
  obtain ⟨_, _, _, _, _, h⟩ := reply_spec s p st d b; rw [h]
@[simp] theorem reply_moe (s : State) (p : Pkt) (st : BitVec 16) (d : BitVec 32) (b : Bytes) : (s.reply p st d b).moe = s.moe := by
  obtain ⟨_, _, _, _, _, h⟩ := reply_spec s p st d b; rw [h]
@[simp] theorem reply_images (s : State) (p : Pkt) (st : BitVec 16) (d : BitVec 32) (b : Bytes) : (s.reply p st d b).images = s.images := by
  obtain ⟨_, _, _, _, _, h⟩ := reply_spec s p st d b; rw [h]
@[simp] theorem reply_pages (s : State) (p : Pkt) (st : BitVec 16) (d : BitVec 32) (b : Bytes) : (s.reply p st d b).pages = s.pages := by
  obtain ⟨_, _, _, _, _, h⟩ := reply_spec s p st d b; rw [h]
@[simp] theorem reply_seals (s : State) (p : Pkt) (st : BitVec 16) (d : BitVec 32) (b : Bytes) : (s.reply p st d b).seals = s.seals := by
  obtain ⟨_, _, _, _, _, h⟩ := reply_spec s p st d b; rw [h]
@[simp] theorem reply_faultSec (s : State) (p : Pkt) (st : BitVec 16) (d : BitVec 32) (b : Bytes) : (s.reply p st d b).faultSec = s.faultSec := by
  obtain ⟨_, _, _, _, _, h⟩ := reply_spec s p st d b; rw [h]
@[simp] theorem reply_faultRate (s : State) (p : Pkt) (st : BitVec 16) (d : BitVec 32) (b : Bytes) : (s.reply p st d b).faultRate = s.faultRate := by
  obtain ⟨_, _, _, _, _, h⟩ := reply_spec s p st d b; rw [h]
@[simp] theorem reply_faultSuppressed (s : State) (p : Pkt) (st : BitVec 16) (d : BitVec 32) (b : Bytes) : (s.reply p st d b).faultSuppressed = s.faultSuppressed := by
  obtain ⟨_, _, _, _, _, h⟩ := reply_spec s p st d b; rw [h]
@[simp] theorem reply_free (s : State) (p : Pkt) (st : BitVec 16) (d : BitVec 32) (b : Bytes) : (s.reply p st d b).free = s.free := by
  obtain ⟨_, _, _, _, _, h⟩ := reply_spec s p st d b; rw [h]
@[simp] theorem reply_part (s : State) (p : Pkt) (st : BitVec 16) (d : BitVec 32) (b : Bytes) (j : Nat) : (s.reply p st d b).part j = s.part j := by
  simp [State.part]
@[simp] theorem reply_ctx (s : State) (p : Pkt) (st : BitVec 16) (d : BitVec 32) (b : Bytes) (j : Nat) : (s.reply p st d b).ctx j = s.ctx j := by
  simp [State.ctx]
@[simp] theorem reply_stn (s : State) (p : Pkt) (st : BitVec 16) (d : BitVec 32) (b : Bytes) (j : Nat) : (s.reply p st d b).stn j = s.stn j := by
  simp [State.stn]
@[simp] theorem reply_stk (s : State) (p : Pkt) (st : BitVec 16) (d : BitVec 32) (b : Bytes) (j : Nat) : (s.reply p st d b).stk j = s.stk j := by
  simp [State.stk]

/-- A late answer touches no more. -/
theorem replyOwed_spec (s : State) (o : Owed) (st : BitVec 16) (d : BitVec 32) (b : Bytes) : ∃ x_cmd x_host x_sec x_tally x_out, s.replyOwed o st d b = { s with cmd := x_cmd, host := x_host, sec := x_sec, tally := x_tally, out := x_out } := by
  unfold State.replyOwed
  simp only []
  split
  · exact reply_spec _ _ _ _ _
  · exact ⟨_, _, _, _, _, rfl⟩

@[simp] theorem replyOwed_pending (s : State) (o : Owed) (st : BitVec 16) (d : BitVec 32) (b : Bytes) : (s.replyOwed o st d b).pending = s.pending := by
  obtain ⟨_, _, _, _, _, h⟩ := replyOwed_spec s o st d b; rw [h]
@[simp] theorem replyOwed_now (s : State) (o : Owed) (st : BitVec 16) (d : BitVec 32) (b : Bytes) : (s.replyOwed o st d b).now = s.now := by
  obtain ⟨_, _, _, _, _, h⟩ := replyOwed_spec s o st d b; rw [h]
@[simp] theorem replyOwed_bring (s : State) (o : Owed) (st : BitVec 16) (d : BitVec 32) (b : Bytes) : (s.replyOwed o st d b).bring = s.bring := by
  obtain ⟨_, _, _, _, _, h⟩ := replyOwed_spec s o st d b; rw [h]
@[simp] theorem replyOwed_gate (s : State) (o : Owed) (st : BitVec 16) (d : BitVec 32) (b : Bytes) : (s.replyOwed o st d b).gate = s.gate := by
  obtain ⟨_, _, _, _, _, h⟩ := replyOwed_spec s o st d b; rw [h]
@[simp] theorem replyOwed_nv (s : State) (o : Owed) (st : BitVec 16) (d : BitVec 32) (b : Bytes) : (s.replyOwed o st d b).nv = s.nv := by
  obtain ⟨_, _, _, _, _, h⟩ := replyOwed_spec s o st d b; rw [h]
@[simp] theorem replyOwed_gov (s : State) (o : Owed) (st : BitVec 16) (d : BitVec 32) (b : Bytes) : (s.replyOwed o st d b).gov = s.gov := by
  obtain ⟨_, _, _, _, _, h⟩ := replyOwed_spec s o st d b; rw [h]
@[simp] theorem replyOwed_sched (s : State) (o : Owed) (st : BitVec 16) (d : BitVec 32) (b : Bytes) : (s.replyOwed o st d b).sched = s.sched := by
  obtain ⟨_, _, _, _, _, h⟩ := replyOwed_spec s o st d b; rw [h]
@[simp] theorem replyOwed_parts (s : State) (o : Owed) (st : BitVec 16) (d : BitVec 32) (b : Bytes) : (s.replyOwed o st d b).parts = s.parts := by
  obtain ⟨_, _, _, _, _, h⟩ := replyOwed_spec s o st d b; rw [h]
@[simp] theorem replyOwed_ctxs (s : State) (o : Owed) (st : BitVec 16) (d : BitVec 32) (b : Bytes) : (s.replyOwed o st d b).ctxs = s.ctxs := by
  obtain ⟨_, _, _, _, _, h⟩ := replyOwed_spec s o st d b; rw [h]
@[simp] theorem replyOwed_stns (s : State) (o : Owed) (st : BitVec 16) (d : BitVec 32) (b : Bytes) : (s.replyOwed o st d b).stns = s.stns := by
  obtain ⟨_, _, _, _, _, h⟩ := replyOwed_spec s o st d b; rw [h]
@[simp] theorem replyOwed_stks (s : State) (o : Owed) (st : BitVec 16) (d : BitVec 32) (b : Bytes) : (s.replyOwed o st d b).stks = s.stks := by
  obtain ⟨_, _, _, _, _, h⟩ := replyOwed_spec s o st d b; rw [h]
@[simp] theorem replyOwed_cst (s : State) (o : Owed) (st : BitVec 16) (d : BitVec 32) (b : Bytes) : (s.replyOwed o st d b).cst = s.cst := by
  obtain ⟨_, _, _, _, _, h⟩ := replyOwed_spec s o st d b; rw [h]
@[simp] theorem replyOwed_fab (s : State) (o : Owed) (st : BitVec 16) (d : BitVec 32) (b : Bytes) : (s.replyOwed o st d b).fab = s.fab := by
  obtain ⟨_, _, _, _, _, h⟩ := replyOwed_spec s o st d b; rw [h]
@[simp] theorem replyOwed_kvw (s : State) (o : Owed) (st : BitVec 16) (d : BitVec 32) (b : Bytes) : (s.replyOwed o st d b).kvw = s.kvw := by
  obtain ⟨_, _, _, _, _, h⟩ := replyOwed_spec s o st d b; rw [h]
@[simp] theorem replyOwed_pfx (s : State) (o : Owed) (st : BitVec 16) (d : BitVec 32) (b : Bytes) : (s.replyOwed o st d b).pfx = s.pfx := by
  obtain ⟨_, _, _, _, _, h⟩ := replyOwed_spec s o st d b; rw [h]
@[simp] theorem replyOwed_moe (s : State) (o : Owed) (st : BitVec 16) (d : BitVec 32) (b : Bytes) : (s.replyOwed o st d b).moe = s.moe := by
  obtain ⟨_, _, _, _, _, h⟩ := replyOwed_spec s o st d b; rw [h]
@[simp] theorem replyOwed_images (s : State) (o : Owed) (st : BitVec 16) (d : BitVec 32) (b : Bytes) : (s.replyOwed o st d b).images = s.images := by
  obtain ⟨_, _, _, _, _, h⟩ := replyOwed_spec s o st d b; rw [h]
@[simp] theorem replyOwed_pages (s : State) (o : Owed) (st : BitVec 16) (d : BitVec 32) (b : Bytes) : (s.replyOwed o st d b).pages = s.pages := by
  obtain ⟨_, _, _, _, _, h⟩ := replyOwed_spec s o st d b; rw [h]
@[simp] theorem replyOwed_seals (s : State) (o : Owed) (st : BitVec 16) (d : BitVec 32) (b : Bytes) : (s.replyOwed o st d b).seals = s.seals := by
  obtain ⟨_, _, _, _, _, h⟩ := replyOwed_spec s o st d b; rw [h]
@[simp] theorem replyOwed_faultSec (s : State) (o : Owed) (st : BitVec 16) (d : BitVec 32) (b : Bytes) : (s.replyOwed o st d b).faultSec = s.faultSec := by
  obtain ⟨_, _, _, _, _, h⟩ := replyOwed_spec s o st d b; rw [h]
@[simp] theorem replyOwed_faultRate (s : State) (o : Owed) (st : BitVec 16) (d : BitVec 32) (b : Bytes) : (s.replyOwed o st d b).faultRate = s.faultRate := by
  obtain ⟨_, _, _, _, _, h⟩ := replyOwed_spec s o st d b; rw [h]
@[simp] theorem replyOwed_faultSuppressed (s : State) (o : Owed) (st : BitVec 16) (d : BitVec 32) (b : Bytes) : (s.replyOwed o st d b).faultSuppressed = s.faultSuppressed := by
  obtain ⟨_, _, _, _, _, h⟩ := replyOwed_spec s o st d b; rw [h]
@[simp] theorem replyOwed_free (s : State) (o : Owed) (st : BitVec 16) (d : BitVec 32) (b : Bytes) : (s.replyOwed o st d b).free = s.free := by
  obtain ⟨_, _, _, _, _, h⟩ := replyOwed_spec s o st d b; rw [h]
@[simp] theorem replyOwed_part (s : State) (o : Owed) (st : BitVec 16) (d : BitVec 32) (b : Bytes) (j : Nat) : (s.replyOwed o st d b).part j = s.part j := by
  simp [State.part]
@[simp] theorem replyOwed_ctx (s : State) (o : Owed) (st : BitVec 16) (d : BitVec 32) (b : Bytes) (j : Nat) : (s.replyOwed o st d b).ctx j = s.ctx j := by
  simp [State.ctx]
@[simp] theorem replyOwed_stn (s : State) (o : Owed) (st : BitVec 16) (d : BitVec 32) (b : Bytes) (j : Nat) : (s.replyOwed o st d b).stn j = s.stn j := by
  simp [State.stn]
@[simp] theorem replyOwed_stk (s : State) (o : Owed) (st : BitVec 16) (d : BitVec 32) (b : Bytes) (j : Nat) : (s.replyOwed o st d b).stk j = s.stk j := by
  simp [State.stk]

/-- A quiet fault-log entry is written to MRAM. -/
theorem logFaultQuiet_spec (s : State) (e : FaultEntry) : ∃ x_nv, s.logFaultQuiet e = { s with nv := x_nv } := by
  exact ⟨_, rfl⟩

@[simp] theorem logFaultQuiet_pending (s : State) (e : FaultEntry) : (s.logFaultQuiet e).pending = s.pending := by
  obtain ⟨_, h⟩ := logFaultQuiet_spec s e; rw [h]
@[simp] theorem logFaultQuiet_now (s : State) (e : FaultEntry) : (s.logFaultQuiet e).now = s.now := by
  obtain ⟨_, h⟩ := logFaultQuiet_spec s e; rw [h]
@[simp] theorem logFaultQuiet_bring (s : State) (e : FaultEntry) : (s.logFaultQuiet e).bring = s.bring := by
  obtain ⟨_, h⟩ := logFaultQuiet_spec s e; rw [h]
@[simp] theorem logFaultQuiet_gate (s : State) (e : FaultEntry) : (s.logFaultQuiet e).gate = s.gate := by
  obtain ⟨_, h⟩ := logFaultQuiet_spec s e; rw [h]
@[simp] theorem logFaultQuiet_cmd (s : State) (e : FaultEntry) : (s.logFaultQuiet e).cmd = s.cmd := by
  obtain ⟨_, h⟩ := logFaultQuiet_spec s e; rw [h]
@[simp] theorem logFaultQuiet_host (s : State) (e : FaultEntry) : (s.logFaultQuiet e).host = s.host := by
  obtain ⟨_, h⟩ := logFaultQuiet_spec s e; rw [h]
@[simp] theorem logFaultQuiet_gov (s : State) (e : FaultEntry) : (s.logFaultQuiet e).gov = s.gov := by
  obtain ⟨_, h⟩ := logFaultQuiet_spec s e; rw [h]
@[simp] theorem logFaultQuiet_sec (s : State) (e : FaultEntry) : (s.logFaultQuiet e).sec = s.sec := by
  obtain ⟨_, h⟩ := logFaultQuiet_spec s e; rw [h]
@[simp] theorem logFaultQuiet_sched (s : State) (e : FaultEntry) : (s.logFaultQuiet e).sched = s.sched := by
  obtain ⟨_, h⟩ := logFaultQuiet_spec s e; rw [h]
@[simp] theorem logFaultQuiet_parts (s : State) (e : FaultEntry) : (s.logFaultQuiet e).parts = s.parts := by
  obtain ⟨_, h⟩ := logFaultQuiet_spec s e; rw [h]
@[simp] theorem logFaultQuiet_ctxs (s : State) (e : FaultEntry) : (s.logFaultQuiet e).ctxs = s.ctxs := by
  obtain ⟨_, h⟩ := logFaultQuiet_spec s e; rw [h]
@[simp] theorem logFaultQuiet_stns (s : State) (e : FaultEntry) : (s.logFaultQuiet e).stns = s.stns := by
  obtain ⟨_, h⟩ := logFaultQuiet_spec s e; rw [h]
@[simp] theorem logFaultQuiet_stks (s : State) (e : FaultEntry) : (s.logFaultQuiet e).stks = s.stks := by
  obtain ⟨_, h⟩ := logFaultQuiet_spec s e; rw [h]
@[simp] theorem logFaultQuiet_cst (s : State) (e : FaultEntry) : (s.logFaultQuiet e).cst = s.cst := by
  obtain ⟨_, h⟩ := logFaultQuiet_spec s e; rw [h]
@[simp] theorem logFaultQuiet_fab (s : State) (e : FaultEntry) : (s.logFaultQuiet e).fab = s.fab := by
  obtain ⟨_, h⟩ := logFaultQuiet_spec s e; rw [h]
@[simp] theorem logFaultQuiet_kvw (s : State) (e : FaultEntry) : (s.logFaultQuiet e).kvw = s.kvw := by
  obtain ⟨_, h⟩ := logFaultQuiet_spec s e; rw [h]
@[simp] theorem logFaultQuiet_pfx (s : State) (e : FaultEntry) : (s.logFaultQuiet e).pfx = s.pfx := by
  obtain ⟨_, h⟩ := logFaultQuiet_spec s e; rw [h]
@[simp] theorem logFaultQuiet_moe (s : State) (e : FaultEntry) : (s.logFaultQuiet e).moe = s.moe := by
  obtain ⟨_, h⟩ := logFaultQuiet_spec s e; rw [h]
@[simp] theorem logFaultQuiet_tally (s : State) (e : FaultEntry) : (s.logFaultQuiet e).tally = s.tally := by
  obtain ⟨_, h⟩ := logFaultQuiet_spec s e; rw [h]
@[simp] theorem logFaultQuiet_images (s : State) (e : FaultEntry) : (s.logFaultQuiet e).images = s.images := by
  obtain ⟨_, h⟩ := logFaultQuiet_spec s e; rw [h]
@[simp] theorem logFaultQuiet_pages (s : State) (e : FaultEntry) : (s.logFaultQuiet e).pages = s.pages := by
  obtain ⟨_, h⟩ := logFaultQuiet_spec s e; rw [h]
@[simp] theorem logFaultQuiet_seals (s : State) (e : FaultEntry) : (s.logFaultQuiet e).seals = s.seals := by
  obtain ⟨_, h⟩ := logFaultQuiet_spec s e; rw [h]
@[simp] theorem logFaultQuiet_faultSec (s : State) (e : FaultEntry) : (s.logFaultQuiet e).faultSec = s.faultSec := by
  obtain ⟨_, h⟩ := logFaultQuiet_spec s e; rw [h]
@[simp] theorem logFaultQuiet_faultRate (s : State) (e : FaultEntry) : (s.logFaultQuiet e).faultRate = s.faultRate := by
  obtain ⟨_, h⟩ := logFaultQuiet_spec s e; rw [h]
@[simp] theorem logFaultQuiet_faultSuppressed (s : State) (e : FaultEntry) : (s.logFaultQuiet e).faultSuppressed = s.faultSuppressed := by
  obtain ⟨_, h⟩ := logFaultQuiet_spec s e; rw [h]
@[simp] theorem logFaultQuiet_out (s : State) (e : FaultEntry) : (s.logFaultQuiet e).out = s.out := by
  obtain ⟨_, h⟩ := logFaultQuiet_spec s e; rw [h]
@[simp] theorem logFaultQuiet_free (s : State) (e : FaultEntry) : (s.logFaultQuiet e).free = s.free := by
  obtain ⟨_, h⟩ := logFaultQuiet_spec s e; rw [h]
@[simp] theorem logFaultQuiet_part (s : State) (e : FaultEntry) (j : Nat) : (s.logFaultQuiet e).part j = s.part j := by
  simp [State.part]
@[simp] theorem logFaultQuiet_ctx (s : State) (e : FaultEntry) (j : Nat) : (s.logFaultQuiet e).ctx j = s.ctx j := by
  simp [State.ctx]
@[simp] theorem logFaultQuiet_stn (s : State) (e : FaultEntry) (j : Nat) : (s.logFaultQuiet e).stn j = s.stn j := by
  simp [State.stn]
@[simp] theorem logFaultQuiet_stk (s : State) (e : FaultEntry) (j : Nat) : (s.logFaultQuiet e).stk j = s.stk j := by
  simp [State.stk]

/-- A fault-log entry touches MRAM, its counts and what its event touches. -/
theorem logFault_spec (s : State) (e : FaultEntry) : ∃ x_nv x_cmd x_host x_tally x_faultSec x_faultRate x_faultSuppressed x_out, s.logFault e = { s with nv := x_nv, cmd := x_cmd, host := x_host, tally := x_tally, faultSec := x_faultSec, faultRate := x_faultRate, faultSuppressed := x_faultSuppressed, out := x_out } := by
  unfold State.logFault
  extract_lets n
  split
  · exact ⟨_, _, _, _, _, _, _, _, rfl⟩
  · have h (t : State) (x : BitVec 16) (b : Bytes) (ht : ∃ y m f, t = { s with nv := y, faultSec := m, faultRate := f }) :
        ∃ x_nv x_cmd x_host x_tally x_m x_f x_p x_out, t.postEvent 0x8030 x b = { s with
          nv := x_nv, cmd := x_cmd, host := x_host, tally := x_tally, faultSec := x_m, faultRate := x_f
          faultSuppressed := x_p, out := x_out } := by
      obtain ⟨_, _, _, rfl⟩ := ht
      obtain ⟨_, _, _, _, h⟩ := postEvent_spec _ 0x8030 x b
      exact ⟨_, _, _, _, _, _, _, _, h⟩
    obtain ⟨a, b, c, d, e, f, g, o, h⟩ := h _ _ _ ⟨_, _, _, rfl⟩
    exact ⟨a, b, c, d, e, f, g, o, h⟩

@[simp] theorem logFault_pending (s : State) (e : FaultEntry) : (s.logFault e).pending = s.pending := by
  obtain ⟨_, _, _, _, _, _, _, _, h⟩ := logFault_spec s e; rw [h]
@[simp] theorem logFault_now (s : State) (e : FaultEntry) : (s.logFault e).now = s.now := by
  obtain ⟨_, _, _, _, _, _, _, _, h⟩ := logFault_spec s e; rw [h]
@[simp] theorem logFault_bring (s : State) (e : FaultEntry) : (s.logFault e).bring = s.bring := by
  obtain ⟨_, _, _, _, _, _, _, _, h⟩ := logFault_spec s e; rw [h]
@[simp] theorem logFault_gate (s : State) (e : FaultEntry) : (s.logFault e).gate = s.gate := by
  obtain ⟨_, _, _, _, _, _, _, _, h⟩ := logFault_spec s e; rw [h]
@[simp] theorem logFault_gov (s : State) (e : FaultEntry) : (s.logFault e).gov = s.gov := by
  obtain ⟨_, _, _, _, _, _, _, _, h⟩ := logFault_spec s e; rw [h]
@[simp] theorem logFault_sec (s : State) (e : FaultEntry) : (s.logFault e).sec = s.sec := by
  obtain ⟨_, _, _, _, _, _, _, _, h⟩ := logFault_spec s e; rw [h]
@[simp] theorem logFault_sched (s : State) (e : FaultEntry) : (s.logFault e).sched = s.sched := by
  obtain ⟨_, _, _, _, _, _, _, _, h⟩ := logFault_spec s e; rw [h]
@[simp] theorem logFault_parts (s : State) (e : FaultEntry) : (s.logFault e).parts = s.parts := by
  obtain ⟨_, _, _, _, _, _, _, _, h⟩ := logFault_spec s e; rw [h]
@[simp] theorem logFault_ctxs (s : State) (e : FaultEntry) : (s.logFault e).ctxs = s.ctxs := by
  obtain ⟨_, _, _, _, _, _, _, _, h⟩ := logFault_spec s e; rw [h]
@[simp] theorem logFault_stns (s : State) (e : FaultEntry) : (s.logFault e).stns = s.stns := by
  obtain ⟨_, _, _, _, _, _, _, _, h⟩ := logFault_spec s e; rw [h]
@[simp] theorem logFault_stks (s : State) (e : FaultEntry) : (s.logFault e).stks = s.stks := by
  obtain ⟨_, _, _, _, _, _, _, _, h⟩ := logFault_spec s e; rw [h]
@[simp] theorem logFault_cst (s : State) (e : FaultEntry) : (s.logFault e).cst = s.cst := by
  obtain ⟨_, _, _, _, _, _, _, _, h⟩ := logFault_spec s e; rw [h]
@[simp] theorem logFault_fab (s : State) (e : FaultEntry) : (s.logFault e).fab = s.fab := by
  obtain ⟨_, _, _, _, _, _, _, _, h⟩ := logFault_spec s e; rw [h]
@[simp] theorem logFault_kvw (s : State) (e : FaultEntry) : (s.logFault e).kvw = s.kvw := by
  obtain ⟨_, _, _, _, _, _, _, _, h⟩ := logFault_spec s e; rw [h]
@[simp] theorem logFault_pfx (s : State) (e : FaultEntry) : (s.logFault e).pfx = s.pfx := by
  obtain ⟨_, _, _, _, _, _, _, _, h⟩ := logFault_spec s e; rw [h]
@[simp] theorem logFault_moe (s : State) (e : FaultEntry) : (s.logFault e).moe = s.moe := by
  obtain ⟨_, _, _, _, _, _, _, _, h⟩ := logFault_spec s e; rw [h]
@[simp] theorem logFault_images (s : State) (e : FaultEntry) : (s.logFault e).images = s.images := by
  obtain ⟨_, _, _, _, _, _, _, _, h⟩ := logFault_spec s e; rw [h]
@[simp] theorem logFault_pages (s : State) (e : FaultEntry) : (s.logFault e).pages = s.pages := by
  obtain ⟨_, _, _, _, _, _, _, _, h⟩ := logFault_spec s e; rw [h]
@[simp] theorem logFault_seals (s : State) (e : FaultEntry) : (s.logFault e).seals = s.seals := by
  obtain ⟨_, _, _, _, _, _, _, _, h⟩ := logFault_spec s e; rw [h]
@[simp] theorem logFault_free (s : State) (e : FaultEntry) : (s.logFault e).free = s.free := by
  obtain ⟨_, _, _, _, _, _, _, _, h⟩ := logFault_spec s e; rw [h]
@[simp] theorem logFault_part (s : State) (e : FaultEntry) (j : Nat) : (s.logFault e).part j = s.part j := by
  simp [State.part]
@[simp] theorem logFault_ctx (s : State) (e : FaultEntry) (j : Nat) : (s.logFault e).ctx j = s.ctx j := by
  simp [State.ctx]
@[simp] theorem logFault_stn (s : State) (e : FaultEntry) (j : Nat) : (s.logFault e).stn j = s.stn j := by
  simp [State.stn]
@[simp] theorem logFault_stk (s : State) (e : FaultEntry) (j : Nat) : (s.logFault e).stk j = s.stk j := by
  simp [State.stk]

/-- A loop over numbers keeps what each turn keeps. -/
theorem foldNat_keeps {P : State → Prop} (s : State) (l : List Nat) (f : State → Nat → State) (hs : P s)
    (hf : ∀ s n, n ∈ l → P s → P (f s n)) : P (s.foldNat l f) := by
  unfold State.foldNat
  induction l generalizing s with
  | nil => exact hs
  | cons n l ih => exact ih (f s n) (hf s n List.mem_cons_self hs) fun s m hm => hf s m (List.mem_cons_of_mem _ hm)

@[simp] theorem foldNat_nil (s : State) (f : State → Nat → State) : s.foldNat [] f = s := rfl

@[simp] theorem foldNat_cons (s : State) (n : Nat) (l : List Nat) (f : State → Nat → State) :
    s.foldNat (n :: l) f = (f s n).foldNat l f := rfl

end Sys2Proof.Laws
end

