-- ==== Sys2Proof/Laws/Issue.lean ====
section
/-!
SUPPORT. What the issue of a bundle does, once for all station operations: a ready bundle issues, and a bundle whose effect stays
in its station leaves everything else alone.
-/

namespace Sys2Proof.Laws

open Sys2Proof Sys2Proof.Machine

/-- The parts of readiness. -/
theorem ready_spec {s : State} {st c : Nat} {b : Bundle} (h : s.issuable st c b = true) :
    s.issuing st = some c ∧ (s.seenSite st c).a.nextBundle = some b ∧ (s.seenSite st c).a.unmet b = none ∧
      (s.seenSite st c).accepts s b = true ∧ (s.seenSite st c).faults (s.seen c st) b = [[], [], [], []] := by
  simp only [State.issuable, Bool.and_eq_true, beq_iff_eq] at h
  exact ⟨h.1.1.1.1, h.1.1.1.2, h.1.1.2, h.1.2, h.2⟩

/-- A read that races only draws free values (R46). -/
theorem seen_spec (s : State) (c st : Nat) : ∃ n, s.seen c st = { s with free := n } := by
  unfold State.seen
  split
  · exact ⟨s.free, rfl⟩
  · exact ⟨_, rfl⟩

@[simp] theorem seen_stn (s : State) (c st j : Nat) : (s.seen c st).stn j = s.stn j := by
  obtain ⟨n, h⟩ := seen_spec s c st; rw [h]; rfl

/-- A frame over the drawing of a read is a frame. -/
theorem onlyStation_seen {st i c : Nat} {s t : State} (h : OnlyStation st (s.seen c i) t) : OnlyStation st s t := by
  obtain ⟨n, e⟩ := seen_spec s c i
  rw [e] at h
  obtain ⟨h1, h2, h3, h4⟩ := h
  refine ⟨?_, h2, h3, h4⟩
  have := congrArg (fun u : State => { u with free := s.free }) h1
  exact this

/-- A ready bundle issues. -/
theorem issue_ready {s : State} {st c : Nat} {b : Bundle} (h : s.issuable st c b = true) :
    s.issue st b = (s.seen c st).issueAt (s.seenSite st c) b := by
  obtain ⟨h1, h2, h3, h4, h5⟩ := ready_spec h
  simp [State.issue, h1, h2, h3, h4, h5, firstFault]

/-- A station that issues: its context runs, the station is its own and within the package. -/
theorem issuing_spec {s : State} {st c : Nat} (h : s.issuing st = some c) :
    (s.stn st).ctx = some c ∧ (s.stn st).state = 1 ∧ (s.ctx c).state = .running ∧ (s.stn st).arch.run = .issuing ∧
      st < 1024 ∧ c < 128 := by
  unfold State.issuing at h
  simp only [] at h
  split at h
  · cases h
  · rename_i d hd
    split at h
    · cases h
      rename_i hc
      simp only [Bool.and_eq_true, beq_iff_eq, decide_eq_true_eq] at hc
      exact ⟨hd, hc.1.1.1.1, hc.1.1.1.2, hc.1.1.2, hc.1.2, hc.2⟩
    · cases h

/-- The context-relative index of a station leads back to it. -/
theorem stnOfCtx_relStn {s : State} {c st : Nat} (h : s.relStn c st < s.stnCount c) : s.stnOfCtx c (s.relStn c st) = st := by
  unfold State.relStn at h ⊢
  have hl : (s.stnsOfCtx c).findIdx (· == st) < (s.stnsOfCtx c).length := by
    simpa [State.stnsOfCtx, State.stnCount] using h
  have hg := List.findIdx_getElem (w := hl)
  simp only [beq_iff_eq] at hg
  have h' : (s.stnsOfCtx c).findIdx (· == st) < (s.ctx c).itin.streams.length := by
    simpa [State.stnsOfCtx] using hl
  unfold State.stnOfCtx
  rw [List.getElem?_eq_getElem h']
  simpa [State.stnsOfCtx] using hg

/-- The energy account of an event. -/
theorem charge_spec (s : State) (p : Nat) (c : Option Nat) (pj f : Nat) :
    ∃ x y, s.charge p c pj f = { s with parts := x, ctxs := y } := by
  unfold State.charge
  cases c <;> exact ⟨_, _, rfl⟩

@[simp] theorem charge_stns (s : State) (p : Nat) (c : Option Nat) (pj f : Nat) : (s.charge p c pj f).stns = s.stns := by
  obtain ⟨_, _, h⟩ := charge_spec s p c pj f; rw [h]

@[simp] theorem charge_stn (s : State) (p : Nat) (c : Option Nat) (pj f j : Nat) :
    (s.charge p c pj f).stn j = s.stn j := by simp [State.stn]

/-- Reading a context after a charge: only its energy account may have changed. -/
theorem charge_ctx (s : State) (p : Nat) (c : Option Nat) (pj f j : Nat) :
    { (s.charge p c pj f).ctx j with energy := (s.ctx j).energy } = s.ctx j := by
  unfold State.charge
  cases c with
  | none => rfl
  | some c => by_cases h : j = c <;> simp [modCtx_ctx, h]

/-- Reading a partition after a charge: only its governor's accounts may have changed. -/
theorem charge_part (s : State) (p : Nat) (c : Option Nat) (pj f j : Nat) :
    { (s.charge p c pj f).part j with gov := (s.part j).gov } = s.part j := by
  unfold State.charge
  cases c <;> by_cases h : j = p <;> simp [modPart_part, h]

/-! ### A bundle whose effect stays in its station -/

/-- The station counts and takes a bundle before its slots write. -/
def stnIssued (x : Site) (now : Nat) (b : Bundle) (t : Stn) : Stn :=
  { (t.countPart b.v now).countIssue b (x.taken b.s) with arch := t.arch.take b (x.next b.s) }

/-- The state in which the slots of an issued bundle write. -/
def atSlots (s : State) (x : Site) (b : Bundle) : State :=
  let u := s.modStn x.st (stnIssued x s.now b)
  (u.charge (partOfCtx x.c) (some x.c) (issueEnergy b) (u.stn x.st).island.target).modCtx x.c fun k =>
    { k with blockSince := none, blocked := none }

theorem issueAt_eq (s : State) (x : Site) (b : Bundle) :
    s.issueAt x b =
      let u := atSlots s x b
      let v := x.vEffect b.v (x.mEffect b.m u)
      let w := x.xEffect b.x (v.modArch x.st (x.sWrites v b.s))
      (x.xAfter b.x (x.sAfter b.s w)).streamEnd x.c x.rel := rfl

theorem atSlots_onlyStation (s : State) (x : Site) (b : Bundle) : OnlyStation x.st s (atSlots s x b) := by
  have hc := charge_spec (s.modStn x.st (stnIssued x s.now b)) (partOfCtx x.c) (some x.c) (issueEnergy b)
    ((s.modStn x.st (stnIssued x s.now b)).stn x.st).island.target
  refine ⟨?_, fun j hj => ?_, fun p => ?_, fun c => ?_⟩
  · obtain ⟨_, _, h⟩ := hc
    simp only [atSlots, h]; rfl
  · simp [atSlots, modStn_stn_ne _ _ hj]
  · simpa [atSlots] using charge_part (s.modStn x.st (stnIssued x s.now b)) (partOfCtx x.c) (some x.c) (issueEnergy b)
      ((s.modStn x.st (stnIssued x s.now b)).stn x.st).island.target p
  · have h := charge_ctx (s.modStn x.st (stnIssued x s.now b)) (partOfCtx x.c) (some x.c) (issueEnergy b)
      ((s.modStn x.st (stnIssued x s.now b)).stn x.st).island.target c
    simp only [atSlots]
    by_cases e : c = x.c
    · subst e
      simp only [modCtx_ctx_same]
      simp only [modStn_ctx] at h
      generalize ((s.modStn x.st (stnIssued x s.now b)).charge _ _ _ _).ctx x.c = k at h ⊢
      rw [← h]
    · rw [modCtx_ctx_ne _ _ e]
      simp only [modStn_ctx] at h
      generalize ((s.modStn x.st (stnIssued x s.now b)).charge _ _ _ _).ctx c = k at h ⊢
      rw [← h]

@[simp] theorem atSlots_stn_same (s : State) (x : Site) (b : Bundle) :
    (atSlots s x b).stn x.st = stnIssued x s.now b (s.stn x.st) := by
  simp [atSlots]

/-- A change of what the station holds stays in the station. -/
theorem onlyStation_modArch {st : Nat} {s t : State} (h : OnlyStation st s t) (f : Arch → Arch) :
    OnlyStation st s (t.modArch st f) := by
  obtain ⟨h1, h2, h3, h4⟩ := h
  exact ⟨h1, fun j hj => by rw [modArch_stn_ne _ _ hj]; exact h2 j hj, h3, h4⟩

theorem setS_next (a : Arch) (d : Reg) (v : Word) : (a.setS d v).next = a.next := by
  unfold Arch.setS Arch.putS Arch.mark
  split <;> rfl

theorem sWrites_next (x : Site) (s : State) (op : SOp) (a : Arch) : (x.sWrites s op a).next = a.next := by
  cases op with
  | mem f d r imm =>
    show (if smLoads f then _ else _ : Arch).next = _
    split
    · exact setS_next _ _ _
    · rfl
  | ldshp d t k =>
    unfold Site.sWrites
    dsimp only
    split
    · rfl
    · split <;> rfl
  | sr | si | tread | rdspec => exact setS_next _ _ _
  | _ => rfl

/-- What a frame says of where a context's stations lie. -/
theorem onlyStation_ctx {st : Nat} {s t : State} (h : OnlyStation st s t) (c : Nat) :
    (t.ctx c).itin = (s.ctx c).itin ∧ (t.ctx c).state = (s.ctx c).state ∧ (t.ctx c).store = (s.ctx c).store := by
  have h4 := h.2.2.2 c
  have e1 := congrArg Ctx.itin h4
  have e2 := congrArg Ctx.state h4
  have e3 := congrArg Ctx.store h4
  exact ⟨e1, e2, e3⟩

theorem onlyStation_sched {st : Nat} {s t : State} (h : OnlyStation st s t) : t.sched = s.sched := by
  have h1 := h.1
  have e := congrArg State.sched h1
  exact e

theorem onlyStation_stnOfCtx {st : Nat} {s t : State} (h : OnlyStation st s t) (c i : Nat) :
    t.stnOfCtx c i = s.stnOfCtx c i := by
  simp [State.stnOfCtx, (onlyStation_ctx h c).1, State.stnBase, State.eighths, onlyStation_sched h]

/-- A station whose next bundle lies within its stream goes on. -/
theorem streamEnd_inside {s t : State} {st c rel : Nat} (h : OnlyStation st s t) (hst : s.stnOfCtx c rel = st)
    (hn : (t.stn st).arch.next < (match (s.ctx c).itin.streams[rel]? with | some d => d.words.length | none => 0)) :
    t.streamEnd c rel = t := by
  unfold State.streamEnd
  rw [onlyStation_stnOfCtx h, hst, (onlyStation_ctx h c).1]
  simp only []
  rw [if_neg]
  simp only [Bool.and_eq_true, decide_eq_true_eq, not_and, Nat.not_le]
  intro _
  exact hn

/-- A bundle within a stream names the station it issues at. -/
theorem inside_spec {s : State} {st c : Nat} {b : Bundle} (h : s.inside st c b = true) :
    s.stnOfCtx c (s.relStn c st) = st ∧
      (s.seenSite st c).next b.s < (match (s.ctx c).itin.streams[s.relStn c st]? with | some d => d.words.length | none => 0) := by
  have h : (s.site st c).next b.s < (match (s.ctx c).itin.streams[s.relStn c st]? with
      | some d => d.words.length | none => 0) := of_decide_eq_true h
  refine ⟨stnOfCtx_relStn ?_, h⟩
  by_contra hc
  unfold State.stnCount at hc
  rw [List.getElem?_eq_none (by omega)] at h
  exact absurd h (Nat.not_lt_zero _)

theorem stnIssued_arch (x : Site) (now : Nat) (b : Bundle) (t : Stn) : (stnIssued x now b t).arch = t.arch.take b (x.next b.s) := rfl

theorem take_next (a : Arch) (b : Bundle) (n : Nat) : (a.take b n).next = n := rfl

/-- An issued bundle whose effect on the station is `f` and that does nothing beyond it. -/
theorem streamEnd_issued {s : State} {st c : Nat} {b : Bundle} (hi : s.inside st c b = true) (f : Arch → Arch)
    (hf : ∀ a, (f a).next = a.next) :
    ((atSlots (s.seen c st) (s.seenSite st c) b).modArch st f).streamEnd c (s.relStn c st) =
      (atSlots (s.seen c st) (s.seenSite st c) b).modArch st f := by
  obtain ⟨hst, hn⟩ := inside_spec hi
  have ho : OnlyStation st s (atSlots (s.seen c st) (s.seenSite st c) b) :=
    onlyStation_seen (atSlots_onlyStation (s.seen c st) (s.seenSite st c) b)
  have hu : (atSlots (s.seen c st) (s.seenSite st c) b).stn st = stnIssued (s.seenSite st c) (s.seen c st).now b (s.stn st) := by
    rw [← seen_stn s c st st]
    exact atSlots_stn_same (s.seen c st) (s.seenSite st c) b
  refine streamEnd_inside (onlyStation_modArch ho f) hst ?_
  rw [modArch_stn_same]
  dsimp only
  rw [hf, hu, stnIssued_arch, take_next]
  exact hn

/-- A bundle with only an S slot that does nothing beyond its station: every slot's effect. -/
theorem issue_onlyS {s : State} {st c : Nat} {b : Bundle} (h : s.issuable st c b = true) (hs : b.onlyS = true)
    (hi : s.inside st c b = true) (hq : ∀ u, (s.seenSite st c).sAfter b.s u = u) :
    ∃ u, OnlyStation st s u ∧ u.stn st = stnIssued (s.seenSite st c) (s.seen c st).now b (s.stn st) ∧
      s.issue st b = u.modArch st ((s.seenSite st c).sWrites u b.s) := by
  simp only [Bundle.onlyS, Bool.and_eq_true, beq_iff_eq] at hs
  refine ⟨atSlots (s.seen c st) (s.seenSite st c) b,
    onlyStation_seen (atSlots_onlyStation (s.seen c st) (s.seenSite st c) b), ?_, ?_⟩
  · rw [← seen_stn s c st st]
    exact atSlots_stn_same (s.seen c st) (s.seenSite st c) b
  have e := streamEnd_issued hi ((s.seenSite st c).sWrites (atSlots (s.seen c st) (s.seenSite st c) b) b.s)
    fun a => sWrites_next _ _ _ a
  rw [issue_ready h, issueAt_eq, hs.1.1, hs.1.2, hs.2]
  dsimp only [Site.mEffect, Site.vEffect, Site.xEffect, Site.xAfter]
  rw [hq]
  exact e

/-! ### Waits (R95) -/

theorem twait_none (a : Arch) {b : Bundle} (hs : ∀ r t, b.s ≠ .twait r t) : a.twait b = none := by
  unfold Arch.twait
  split
  · rename_i r t h; exact absurd h (hs r t)
  · rfl

/-- A bundle without TWAIT takes its header's count from its header's counter. -/
theorem token_subtract {a : Arch} {b : Bundle} (h : a.unmet b = none) (hs : ∀ r t, b.s ≠ .twait r t) (k : Nat) :
    (a.subtract b).token k = a.afterWait b k := by
  have hn : a.needs b = if b.waitN == 0 then [] else [(b.waitT.toNat, b.waitN.toNat)] := by
    simp [Arch.needs, twait_none a hs]
  unfold Arch.afterWait
  by_cases hz : b.waitN = 0
  · simp [Arch.subtract, hn, hz, Arch.token]
  · have hz' : (b.waitN == 0) = false := by simpa using hz
    simp only [Arch.unmet, hn, hz', Bool.false_eq_true, if_false, List.find?_cons, List.find?_nil] at h
    have hle : b.waitN.toNat ≤ a.token b.waitT.toNat := by
      by_contra hc
      simp [Nat.not_le.1 hc] at h
    simp only [Arch.subtract, hn, hz', Bool.false_eq_true, if_false, List.foldl_cons, List.foldl_nil, Arch.token,
      mget_mmod] at hle ⊢
    split
    · rename_i e
      subst e
      rw [BitVec.toNat_sub_of_le]
      · simp only [BitVec.toNat_ofNat]
        have := b.waitN.isLt
        omega
      · simp only [BitVec.le_def, BitVec.toNat_ofNat]
        have := b.waitN.isLt
        omega
    · simp

end Sys2Proof.Laws
end

