-- ==== Sys2Proof/Laws/Racing.lean ====
section
/-!
SUPPORT. What the shared operations of races, of write-one-to-clear registers and of noted waits can do, said once.
-/

namespace Sys2Proof.Laws

open Sys2Proof Sys2Proof.Machine

/-! ### Write one to clear (R11) -/

@[simp] theorem fresh_add_now (f : Fresh) (now b : Nat) : (f.add now b).now now = f.now now ||| b := by
  simp [Fresh.add, Fresh.now]

theorem fresh_other (f : Fresh) (now : Nat) (h : f.at_ ≠ now) : f.now now = 0 := by simp [Fresh.now, h]

/-- A bit stands after the write unless it was written as 1 and hardware has not set it at this time. -/
theorem w1c_bit {w : Nat} (old : BitVec w) (f : Fresh) (now v i : Nat) (h : i < w) :
    (w1c old f now v).getLsbD i = (old.getLsbD i && (!v.testBit i || (f.now now).testBit i)) := by
  rw [w1c, BitVec.getLsbD_and, BitVec.getLsbD_not, BitVec.getLsbD_and, BitVec.getLsbD_not, BitVec.getLsbD_ofNat, BitVec.getLsbD_ofNat]
  simp [h]

/-- At a time at which hardware has set no bit, exactly the bits written as 1 clear. -/
theorem w1c_calm {w : Nat} (old : BitVec w) (f : Fresh) (now v : Nat) (h : f.at_ ≠ now) :
    w1c old f now v = old &&& ~~~ BitVec.ofNat w v := by
  apply BitVec.eq_of_getLsbD_eq
  intro i hi
  simp [w1c, fresh_other f now h, hi]

/-! ### Reads of a context's store (R46) -/

theorem racedMem_calm (d : Nat) (m : Mem) : racedMem d m [] = m := rfl

/-- Where nothing is on its way, a read sees the store as it stands and uses no free value. -/
theorem storeSeen_calm (s : State) (c : Nat) (h : s.incomingStore c = []) : s.storeSeen c = (s.ctx c).store := by
  rw [State.storeSeen, h, racedMem_calm]

theorem seenCtx_calm (s : State) (c : Nat) (h : s.incomingStore c = []) : s.seenCtx c = s.ctx c := by
  rw [State.seenCtx, storeSeen_calm s c h]

theorem seenStore_calm (s : State) (c : Nat) (h : s.incomingStore c = []) : s.seenStore c = s := by
  simp [State.seenStore, h]

/-- Such a read changes the count of free values alone. -/
theorem seenStore_spec (s : State) (c : Nat) : ∃ n, s.seenStore c = { s with free := n } := by
  unfold State.seenStore
  split
  · exact ⟨s.free, rfl⟩
  · exact ⟨_, rfl⟩

theorem sourced_spec (s : State) (a : Arch) : ∃ n, s.sourced a = { s with free := n } := by
  unfold State.sourced
  split
  · exact ⟨s.free, rfl⟩
  · exact ⟨_, rfl⟩

/-! ### Noted waits and time (R450, R343) -/

/-- Noting a wait changes the stations' windows alone. -/
theorem noteCause_spec (s : State) (st : Nat) : ∃ x, s.noteCause st = { s with stns := x } := by
  unfold State.noteCause
  split
  · exact ⟨_, rfl⟩
  · exact ⟨s.stns, rfl⟩

theorem beat_spec (s : State) : ∃ x, s.beat = { s with cmd := x } := by
  unfold State.beat
  split
  · exact ⟨_, rfl⟩
  · exact ⟨s.cmd, rfl⟩

/-- A command that waits behind a FW_UPDATE changes the queue of those alone. -/
theorem waitBaton_spec (s : State) (p : Pkt) (k : Slot) :
    s.waitBaton p k = { s with cmd := { s.cmd with serial := s.cmd.serial ++ [(k, p)] } } := rfl

end Sys2Proof.Laws
end

