-- ==== Sys2Proof/Laws/Wire.lean ====
section
/-!
SUPPORT. Byte strings and what Brisor carries: numbers read back from their bytes, flits whose CRC is good, messages that pass their
end-to-end check.
-/

namespace Sys2Proof

open Machine

namespace Machine

@[simp] theorem slice_length (bs : Bytes) (o n : Nat) : (slice bs o n).length = n := by
  simp [slice]

theorem leNat_toLe (n v : Nat) : leNat (toLe n v) = v % 256 ^ n := by
  induction n generalizing v with
  | zero => simp [toLe, leNat, Nat.mod_one]
  | succ n ih =>
    have h : leNat (toLe (n + 1) v) = leNat (toLe n (v / 256)) * 256 + v % 256 := by
      simp [toLe, leNat]
    rw [h, ih, Nat.pow_succ', Nat.mod_mul]
    ring

/-- A big-endian number reads back (R6). -/
theorem beNat_toBe (n v : Nat) : beNat (toBe n v) = v % 256 ^ n := by
  rw [← leNat_toLe]
  simp [beNat, toBe, leNat, List.foldl_reverse]

/-- The bytes that stand after a prefix. -/
theorem slice_append (a b : Bytes) (n : Nat) (h : b.length = n) : slice (a ++ b) a.length n = b := by
  simp [slice, ← h]

/-- The first bytes of a string. -/
theorem slice_zero (a b : Bytes) (n : Nat) (h : a.length = n) : slice (a ++ b) 0 n = a := by
  simp [slice, ← h]

end Machine

/-- A flit that carries its own CRC is good when FEC left nothing uncorrected (R289). -/
theorem Flit.good_flitOf (head body : Bytes) (n : Nat) (h : head.length = 8) : (Flit.mk (flitOf head body) n 0).good = true := by
  have l : (head ++ slice body 0 244).length = 252 := by simp [h]
  have t : (flitOf head body).take 252 = head ++ slice body 0 244 := by
    rw [← l]; exact List.take_left' rfl
  have c : beAt (flitOf head body) 252 4 = (crc32c (head ++ slice body 0 244)).toNat := by
    have : slice (flitOf head body) 252 4 = toBe 4 (crc32c (head ++ slice body 0 244)).toNat := by
      rw [← l]; exact slice_append _ _ _ (by simp)
    rw [beAt, this, beNat_toBe]
    exact Nat.mod_eq_of_lt (crc32c _).isLt
  have s : (flitOf head body).length = 256 := by simp [flitOf, h]
  simp [Flit.good, s, c, t]

/-- E2E_CRC does not depend on the CRC that a message carries: the message with its own CRC passes (R293). -/
theorem Msg.intact_own (t : BitVec 8) (m : Msg) (h : m.fits t = true) : ({ m with e2e := m.crc t } : Msg).intact t = true := by
  have f : ({ m with e2e := m.crc t } : Msg).fits t = m.fits t := rfl
  have c : ({ m with e2e := m.crc t } : Msg).crc t = m.crc t := rfl
  simp [Msg.intact, f, h, c]

end Sys2Proof
end

