-- ==== Sys2Proof/Tests/Fixture.lean ====
section
/-!
SUPPORT. Small states that the tests share: one context of one station, with one bundle in its instruction store.
-/

namespace Sys2Proof.Tests

open Sys2Proof Sys2Proof.Machine

/-- A bundle with the operations named and no wait. -/
def bun (s : SOp := .nop) (v : VOp := .nop) (x : XOp := .nop) (m : MOp := .nop) : Bundle := ⟨0, 0, m, v, s, x⟩

/-- A step plan of one layer, two experts in one group, on the scratch region. -/
def planDecl : StepPlan :=
  { experts := 2, moeLayers := 1, topK := 1, lanes := 1, routeMax := 16, serveRows := 16, actBytes := 64, resultBytes := 64
    shipMax := 4, threshold := 4, hysteresis := 1, deadlineNs := 50000, caravanBase := 8, arrivalBase := 0x10000, histBase := 0x11000
    histSlots := 1, histSlotBytes := 64, planBase := 0x12000, planBytes := 256, homes := [⟨0, 0, 0⟩, ⟨1, 0, 1⟩]
    groups := [⟨0, 2, 8, 9, 10, 0x13000, 0x14000, 0x15000, 0⟩], initPlan := [] }

/-- KV pages of one layer and two sequences of at most 1,024 tokens. -/
def kvDecl : KvConf :=
  { tokenBytes := 64, layers := 1, seqMax := 2, tokensMax := 1024, ledger := false, btBase := 0x16000, frameBase := 0x40000
    frameGroups := 2, stageFrames := 1, stageBase := 0x30000, listBase := 0x18000, listItems := 8, poolPages := 4, modelTag := 7
    tokenBase := 0x19000 }

/-- What the fixture's context declares: its stream, a scratch region, KV frames, shapes, a barrier, two peers. -/
def itinOf (b : Bundle) : Itin :=
  { streams := [⟨0, 0, 0, [encodeBundle b, 0]⟩]
    regions := [⟨0, 0x10000, 1, 0x8000⟩, ⟨0x10000, 0x10000, 3, 0x8000⟩, ⟨0x30000, 0x10000, 6, 0x8000⟩, ⟨0x40000, 0x20000, 4, 0x8000⟩]
    bounds := [1000], shapes := [⟨5, 100, 0x1F000⟩, ⟨6, 100, 0x1F008⟩], barriers := [⟨1, [0]⟩]
    stepPlan := some planDecl, kv := some kvDecl, peers := some ⟨0, [0, 1]⟩ }

/-- A context on station 0 whose stream is the bundle and an empty one. -/
def ctxOf (b : Bundle) : Ctx :=
  { state := .running, handle := 0, itin := itinOf b, resident := true, everResident := true, everHeld := true, heldSince := some 0 }

/-- Station 0 with the bundle next, and what it holds changed by `f`. -/
def stnOf (b : Bundle) (f : Arch → Arch) : Stn :=
  { ctx := some 0, state := 1, arch := f { istore := [⟨0, [encodeBundle b, 0], 0⟩] } }

/-- A package of 8 partitions whose context 0 runs the bundle on station 0. -/
def running (b : Bundle) (f : Arch → Arch := id) (g : Ctx → Ctx := id) : State :=
  { State.reset with
    sched := { count := 8 }, parts := [(0, { holder := some 0 })], ctxs := [(0, g (ctxOf b))], stns := [(0, stnOf b f)] }

/-- The bundle may issue at station 0 for context 0, and the one after it lies in the stream. -/
def readyAt (b : Bundle) (f : Arch → Arch := id) (g : Ctx → Ctx := id) : Bool :=
  (running b f g).issuable 0 0 b && (running b f g).inside 0 0 b

/-- Station 0 with scalar registers set. -/
def regs (l : List (Nat × Word)) (a : Arch) : Arch := { a with sregs := l }

/-- Station 0 with bytes in its saddlebag. -/
def bag (addr : Nat) (bs : Bytes) (a : Arch) : Arch := { a with saddle := wrBytes a.saddle addr bs }

end Sys2Proof.Tests
end

