-- ==== Sys2Proof/Tests/Stations.lean ====
section
/-!
SUPPORT. Witnesses for the statements about issue: a state and operands that meet each statement's hypotheses, at a boundary of
their range where they have one.
-/

set_option Elab.async false

namespace Sys2Proof.Tests

open Sys2Proof Sys2Proof.Machine

/-- StepRunsTheFrontCommand. -/
theorem test_front_command : { State.reset with pending := [.finish 0 (bun .finish)] }.pending = .finish 0 (bun .finish) :: [] := rfl

/-- ScalarResults: every operation of the statement, alone, in the largest and the smallest register. -/
theorem test_scalar_ready :
    (((srOps.map fun f => SOp.sr f 31 0 1) ++ (siOps.map fun f => SOp.si f 0 (if f = SiOp.li then 0 else 31) 5) ++
        [SOp.mem .ld 3 0 262136, .mem .ldw 3 0 262140, .tread 3 63, .rdspec 3 5, .rdspec 3 7]).all
      fun o => (bun o).onlyS && readyAt (bun o)) = true := by decide +kernel

/-- SaddlebagStores: the last word, half word and vector of the saddlebag. -/
theorem test_stores_ready :
    ([bun (.mem .st 3 0 262136), bun (.mem .stw 3 0 262140), bun (x := .vst 1 0 4088)].all fun b => readyAt b) = true := by
  decide +kernel

/-- PositionAndTokens: branches, jumps, call and return. -/
theorem test_branches_ready :
    ((sbOps.all fun f => readyAt (bun (.br f 1 2 1))) && readyAt (bun (.jmp 1)) && readyAt (bun (.call 1)) &&
      readyAt (bun .ret) fun a => { a with retStack := [1] }) = true := by decide +kernel

/-- PositionAndTokens: CHK of 0 and 1, TINC up to a full counter, TWAIT of a count that is there, an empty bundle. -/
theorem test_tokens_ready :
    (readyAt (bun (.chk 1 2)) (regs [(2, 1)]) && readyAt (bun (.tinc 63 65535)) && (running (bun (.tinc 63 65535))).holds 0 &&
      ((running (bun (.tinc 63 65535))).arch 0).afterWait (bun (.tinc 63 65535)) 63 == 0 &&
      readyAt (bun (.twait 1 4)) (fun a => { regs [(1, 2)] a with tokens := [(4, 2)] }) && readyAt bun) = true := by decide +kernel

/-- ShapeBarrierStepFinish: LDSHP of a declared slot and BAR of a group of the station. -/
theorem test_shape_barrier_ready :
    (readyAt (bun (.ldshp 3 4 5)) && readyAt (bun (.bar 4 1))) = true ∧
      (itinOf bun).shapes.find? (fun e => e.slot == 5) = some ⟨5, 100, 0x1F000⟩ := by decide +kernel

/-- Context 0 on stations 0 and 1, both issuing. -/
def twoStations (b : Bundle) (f : Arch → Arch := id) : State :=
  let s := running b f fun k => { k with itin := { k.itin with streams := k.itin.streams ++ [⟨1, 0, 0x8000, [0]⟩] } }
  s.modStn 1 fun _ => { ctx := some 0, state := 1, arch := { istore := [⟨0, [0], 0⟩] } }

/-- ShapeBarrierStepFinish: STEP and FINISH of station 0 while station 1 goes on. -/
theorem test_step_finish_ready :
    ([bun (.step 0), bun .finish].all fun b => (twoStations b).issuable 0 0 b && ((twoStations b).arch 1).run == .issuing &&
      ((twoStations b).stnsOfCtx 0).contains 1) = true := by decide +kernel

/-- VectorResults: every VR operation, FP32 (FP16 for one lane-wise and for the broadcast of its last lane). -/
theorem test_vector_ready :
    (([VrOp.vadd, .vsub, .vmul, .vmax, .vmin].all fun f => readyAt (bun (v := .vr f (vr2 63 1 2 15)))) &&
      ([VrOp.vfma, .vsel].all fun f => readyAt (bun (v := .vr f (vr3 63 1 2 3 12)))) &&
      ([VrOp.vabs, .vneg, .vexp, .vlog, .vrsqrt, .vtanh, .vrcp, .vrsum, .vrmax, .vrmaxi].all fun f =>
        readyAt (bun (v := .vr f (vr1 63 1 15)))) &&
      readyAt (bun (v := .vr .vbcast { d := 63, a := 1, ty := 12, lane := 255 })) &&
      readyAt (bun (v := .vr .viota { d := 63, ty := 11 })) &&
      readyAt (bun (v := .vr .vcvt { d := 63, a := 1, ty := 15, sty := 12, part := 1 })) &&
      readyAt (bun (v := .vr .vcvt { d := 63, a := 1, ty := 12, sty := 15, part := 1 }))) = true ∧
    laneFmt 15 = some .f32 ∧ laneFmt 12 = some .f16 ∧ laneFmt 11 = some .bf16 := by decide +kernel

/-- AccumulatorsAndLanes: the last segment and lane. -/
theorem test_lanes_ready :
    ([bun (v := .vrdacc 1 3 63 0), bun (v := .vwracc 1 3 63 0), bun (x := .vld 1 0 4088), bun (x := .xvs 1 2 63),
      bun (x := .xsv 1 2 63)].all fun b => readyAt b) = true := by decide +kernel

/-- QuantiseAndWeave: VQ that opens, adds to and closes a block, VDQ, and a WV of one chunk with every operand in the saddlebag. -/
theorem test_quantise_ready :
    (readyAt (bun (v := .vq ⟨1, 1, 2, 3, 4, 4, false, 1, false, false⟩)) (regs [(2, 1024)]) &&
      readyAt (bun (v := .vq ⟨1, 1, 2, 3, 4, 4, true, 2, false, false⟩))
        (fun a => { regs [(2, 1024)] a with openBlocks := [⟨1024, 128, false⟩] }) &&
      readyAt (bun (v := .vdq 1 1 4 true))) = true := by decide +kernel
theorem test_weave_ready :
    readyAt (bun (m := .wv ⟨0, 0, true, false, false, false, 9, 9, 1, 5, 1, 0, false, 0⟩))
      (regs [(2, 512), (6, 512), (5, 65536)]) = true := by decide +kernel

/-- TransfersBegin. -/
theorem test_transfers_ready :
    (readyAt (bun (x := .xld ⟨1, 2, 3, 63, 0, 0⟩)) (regs [(2, 0x10000), (3, 8)]) &&
      readyAt (bun (x := .xst ⟨1, 2, 3, 63, 0, 0⟩)) (regs [(2, 0x1FFF8), (3, 0x8000000000000008)]) &&
      (twoStations (bun (x := .xsend 1 1 2 3 0 63)) (regs [(3, 262144)])).issuable 0 0 (bun (x := .xsend 1 1 2 3 0 63)) &&
      readyAt (bun (x := .desc .halo 0 8191)) && readyAt (bun (x := .xnote 0 63 65535))) = true := by decide +kernel

/-- An XFAB descriptor: READ of 8 bytes from peer 1 into the scratch region. -/
def fabBytes : Bytes := toLe 1 1 ++ toLe 1 0 ++ toLe 2 1 ++ toLe 1 63 ++ toLe 1 0 ++ toLe 2 0 ++ toLe 8 0x10000 ++ toLe 8 0x10000 ++
  toLe 2 1 ++ toLe 2 0 ++ toLe 4 0
/-- An XWALK descriptor: OP 5 of layer 0, done at counter 63. -/
def walkBytes : Bytes := toLe 1 5 ++ toLe 1 0 ++ toLe 2 0 ++ toLe 1 5 ++ toLe 1 0 ++ toLe 2 0 ++ toLe 2 0 ++ toLe 1 0 ++ toLe 1 0 ++
  toLe 1 63 ++ toLe 1 0 ++ toLe 2 0 ++ toLe 8 0x1A000 ++ toLe 4 0 ++ toLe 4 0
/-- An XDISP descriptor: OP 3 of group 0. -/
def dispBytes : Bytes := toLe 1 3 ++ toLe 1 0 ++ toLe 2 0 ++ toLe 1 5 ++ toLe 1 0 ++ toLe 1 0 ++ toLe 1 63 ++ toLe 8 0x1A000 ++
  toLe 1 0 ++ toLe 15 0

/-- DescriptorsReachTheirEngines. -/
theorem test_descriptors_ready :
    ((readyAt (bun (x := .desc .fab 0 0)) (bag 0 fabBytes) &&
      ((ctxOf (bun (x := .desc .fab 0 0))).fabFault (fabOf 0 0 0 0 fabBytes) (zeroAt fabBytes 28 4)).isNone) &&
    (readyAt (bun (x := .desc .walk 0 0)) (bag 0 walkBytes) &&
      !(ctxOf (bun (x := .desc .walk 0 0))).walkBad (walkOf 0 0 walkBytes) (zeroAt walkBytes 13 1 && zeroAt walkBytes 28 4)) &&
    (readyAt (bun (x := .desc .disp 0 0)) (bag 0 dispBytes) &&
      !(ctxOf (bun (x := .desc .disp 0 0))).dispBad (dispOf 0 0 0 4 1 dispBytes) (zeroAt dispBytes 17 15))) = true := by
  decide +kernel

/-- SlotsReadBeforeAnyWrites. -/
theorem test_slots_ready :
    readyAt (bun (.sr .add 1 1 2) (.vr .vadd (vr2 5 5 6 15)) (.xvs 5 31 63)) = true := by decide +kernel

/-- FaultAtIssueTearsDown: a load off its alignment in the X slot of a bundle that the ADD row carries, in a context with KV pages. -/
theorem test_fault_of_another_slot :
    let b := bun (.sr .add 1 2 3) (x := .vld 1 4 0)
    let s := running b (regs [(4, 1)])
    rowBundle (.add 0 b 1 2 3) = some (0, b) ∧ s.issuing 0 = some 0 ∧ (s.arch 0).nextBundle = some b ∧ (s.arch 0).unmet b = none ∧
      (s.seenSite 0 0).accepts s b = true ∧ firstFault ((s.seenSite 0 0).faults (s.seen 0 0) b) = some 0x13 ∧ s.holds 0 = true ∧
      0 ∈ s.stnsOfCtx 0 ∧ (s.ctx 0).itin.kv = some kvDecl := by decide +kernel

/-- FaultAtIssueTearsDown: CHK of equal registers; the context holds no KV pages. -/
theorem test_fault_at_issue :
    let b := bun (.chk 1 2)
    let s := running b (g := fun k => { k with itin := { k.itin with kv := none } })
    s.issuing 0 = some 0 ∧ (s.arch 0).nextBundle = some b ∧ (s.arch 0).unmet b = none ∧ (s.seenSite 0 0).accepts s b = true ∧
      firstFault ((s.seenSite 0 0).faults (s.seen 0 0) b) = some 0x23 ∧ s.holds 0 = true ∧ 0 ∈ s.stnsOfCtx 0 ∧ (s.ctx 0).itin.kv = none := by
  decide +kernel

/-- FaultAtIssueTearsDown: the same bundle at station 0, whose context station 5 has begun to tear down at this gate time. -/
theorem test_fault_at_one_time :
    let b := bun (.chk 1 2)
    let u : Teardown := ⟨1, 0x23, 5, 0, 0⟩
    let s := (running b (g := fun k => { k with
      state := .tearingDown, teardown := some u, fallen := [(0, (stnOf b id).arch)] })).modStn 0 fun _ => {}
    s.issuing 0 = none ∧ (s.fallenSite 0).any (fun y => y.c == 0 && y.a.nextBundle == some b && (y.a.unmet b).isNone && y.accepts s b &&
        firstFault (y.faults s b) == some 0x23) = true ∧
      (s.ctx 0).state = .tearingDown ∧ (s.ctx 0).teardown = some u ∧ 0 < u.station.toNat := by decide +kernel

end Sys2Proof.Tests
end

