-- ==== Sys2Proof/Tests/Engines.lean ====
section
/-!
SUPPORT. Witnesses for the statements about completions, the weave, steps and barriers.
-/

set_option Elab.async false

namespace Sys2Proof.Tests

open Sys2Proof Sys2Proof.Machine

/-- MarksShapesAndLines: a mark, a shape word at its maximum with a counter one below full, a line that is missing. -/
theorem test_marks_shapes_lines :
    (let s := running bun fun a => { a with marks := [.s 31] }
     s.engineRuns 0 0 = true ∧ (s.arch 0).fixedMark (.s 31) = true) ∧
    (let s := running bun fun a => { a with shapes := [⟨3, 63, 5, 100, 0⟩], tokens := [(63, 65534)] }
     s.engineRuns 0 0 = true ∧ (100 : Word).toNat < 2 ^ 32 ∧ (100 : Word).toNat ≤ (s.ctx 0).shapeMax 5 ∧ (s.arch 0).token 63 < 65535) ∧
    (let s := running bun fun a => { a with istore := [] }
     s.engineRuns 0 0 = true ∧ (s.ctx 0).state = .running ∧ (s.arch 0).run ≠ .finished ∧ (s.arch 0).run ≠ .stopped ∧
      0 ∈ (s.ctx 0).lineWindow (s.relStn 0 0) (s.arch 0).next) := by decide +kernel

/-- TransfersComplete: XLD and XST of the last 8 bytes of the scratch region. -/
theorem test_transfers_done :
    (let x : Xfer := ⟨0, .xld 0x1FFF8 262136 (toLe 8 7) 63, 0, 0⟩
     let s := running bun fun a => { a with inflight := [x], tokens := [(63, 65534)] }
     s.engineRuns 0 0 = true ∧ (s.arch 0).inflight[0]? = some x ∧ (s.arch 0).rangeWaits x = false ∧ (s.arch 0).token 63 < 65535) ∧
    (let x : Xfer := ⟨0, .xst 0 0x1FFF8 (toLe 8 7) 63 (some (0, 63)), 0, 0⟩
     let s := running bun fun a => { a with inflight := [x], tokens := [(63, 65534)] }
     s.engineRuns 0 0 = true ∧ (s.arch 0).inflight[0]? = some x ∧ (s.arch 0).rangeWaits x = false ∧
      (s.ctx 0).stationFault true 0x1FFF8 8 = none ∧ (s.arch 0).token 63 < 65535) := by decide +kernel

/-- TransfersComplete: a notice, and an XNOTE that fills its counter, with no write before it. -/
theorem test_notes_delivered :
    (let s := running bun fun a => { a with notices := [⟨0, 63, 0⟩] }
     s.engineRuns 0 0 = true ∧ (s.arch 0).notices[0]? = some ⟨0, 63, 0⟩ ∧ 0 < s.stnCount 0 ∧ s.token 0 0 63 < 65535) ∧
    (let s := running bun fun a => { a with inflight := [⟨0, .note 0 63 65535, 0, 0⟩] }
     s.engineRuns 0 0 = true ∧ s.writesOpen 0 0 = false ∧ 0 < s.stnCount 0 ∧ s.token 0 0 63 + 65535 ≤ 65535) := by decide +kernel

/-- SendsComplete: a send east, before and after its source is read. -/
theorem test_sends :
    (let x (r : Bool) : Xfer := ⟨0, .send 1 0 262136 (toLe 8 7) 0 63 r, 0, 0⟩
     let s (r : Bool) := twoStations bun fun a => { a with inflight := [x r] }
     (s false).engineRuns 0 0 = true ∧ ((s false).arch 0).linkWaits (x false) 1 true = false ∧ ((s false).arch 0).token 0 < 65535 ∧
      (s true).engineRuns 0 0 = true ∧ (s true).linkPeer 0 0 1 = some 1 ∧ ((s true).arch 0).linkWaits (x true) 1 false = false ∧
      (s true).token 0 1 63 < 65535) := by decide +kernel

/-- A halo descriptor: two rows of 8 bytes east, row by row. -/
def haloBytes : Bytes := toLe 4 0 ++ toLe 4 64 ++ toLe 4 8 ++ toLe 4 8 ++ toLe 2 8 ++ toLe 2 2 ++ toLe 1 1 ++ toLe 1 0 ++ toLe 1 63 ++
  toLe 1 1 ++ toLe 8 0

/-- SendsComplete: a halo send before its copy, before its read, read, and a row delivered before the read. -/
theorem test_halo_sends :
    (let h := haloOf haloBytes
     let rows := [toLe 8 0, toLe 8 0]
     let x (g : Option Halo) (l : List Bytes) (r : Bool) (n : Nat) : Xfer := ⟨0, .halo haloBytes g l r n, 0, 0⟩
     let s (y : Xfer) := twoStations bun fun a => { a with inflight := [y] }
     let s0 := s (x none [] false 0)
     let s1 := s (x (some h) rows false 0)
     let s2 := s (x (some h) rows true 1)
     (s0.engineRuns 0 0 = true ∧ haloFault haloBytes (s0.linkPeer 0 0 h.link).isSome = none) ∧
     (s1.engineRuns 0 0 = true ∧ (s1.arch 0).linkWaits (x (some h) rows false 0) h.link true = false ∧ (∀ r ∈ rows, r.length = h.width) ∧
       (s1.arch 0).token h.localTok < 65535) ∧
     (s2.linkPeer 0 0 h.link = some 1 ∧ (s2.arch 0).linkWaits (x (some h) rows true 1) h.link false = false ∧ s2.token 0 1 h.remoteTok < 65535) ∧
     ((s1.arch 0).linkWaits (x (some h) rows false 0) h.link false = false ∧ h.perRow = true ∧ 0 + 1 ≠ h.count ∧
       rdBytes (s1.arch 0).saddle (h.src + 0 * h.srcStride) h.width = rows.getD 0 [])) := by decide +kernel

/-- A WV of one chunk, as the weave holds it. -/
def jobOf (started : Bool) (need : List Nat) : WvJob :=
  { op := ⟨0, 0, true, true, false, false, 9, 7, 1, 5, 1, 0, true, 63⟩, chunks := 1, aRegs := [0, 0, 0, 0], wRegs := [0, 0, 0], tags := []
    saddle := [], store := [], bundle := 0, topupNeed := need, topups := [], started := started }

/-- WeaveAtWork: one that fills, one that waits behind a started one, one that lacks a top-up of this package, one that lacks those of
another, not asked for and come, one that is complete. -/
theorem test_weave_at_work :
    (let s := running bun fun a => { a with weaveRun := [jobOf false []] }
     s.engineRuns 0 0 = true ∧ (s.ctx 0).state = .running ∧ (jobOf false []).started = false) ∧
    (let s := running bun fun a => { a with weaveRun := [jobOf true []], weaveWait := some (jobOf false []) }
     s.engineRuns 0 0 = true ∧ ∀ r ∈ (s.arch 0).weaveRun, r.started = true ∧ r.topped = true) ∧
    (let s := running bun fun a => { a with weaveRun := [jobOf true [0]] }
     s.engineRuns 0 0 = true ∧ (s.arch 0).topupRoom s.now (jobOf true [0]) = true ∧ (jobOf true [0]).topped = false ∧
      s.chunkRecords 0 0 (jobOf true [0]) 0 = [] ∧ (s.arch 0).weaveWait ≠ some (jobOf true [0])) ∧
    (let x : LentLane := ⟨0, 0, 0, 1, 1⟩
     let s (got : List (Nat × Nat × Bytes)) (asked : List Nat) :=
       running bun (fun a => { a with weaveRun := [jobOf true [0]] }) fun k => { k with
         moe := { k.moe with lent := [x] }, caravan := { k.caravan with topGot := got, topAsked := asked } }
     ((s [] []).arch 0).topupRoom (s [] []).now (jobOf true [0]) = true ∧ ((s [] []).ctx 0).lentTo 0 (jobOf true [0]) = some x ∧
      ((s [] []).chunkRecords 0 0 (jobOf true [0]) 0).any (·.2.isSome) = true ∧
      0 ∉ ((s [] []).ctx 0).caravan.topAsked) ∧
    (let s := running bun fun a => { a with weaveRun := [jobOf true []], tokens := [(63, 65534)] }
     s.engineRuns 0 0 = true ∧ (jobOf true []).started = true ∧ (jobOf true []).topped = true ∧ (s.arch 0).token 63 < 65535) := by
  decide +kernel

/-- WeaveAtWork: one record of another package makes a read. -/
theorem test_away (l : List (Nat × Option Nat)) (h : l.any (·.2.isSome) = true) : awayReads l ≠ [] := by
  obtain ⟨⟨o, d⟩, m, k⟩ := List.any_eq_true.1 h
  obtain ⟨d, rfl⟩ := Option.isSome_iff_exists.1 k
  exact List.ne_nil_of_mem (a := (o / 256 * 256, d)) (List.mem_dedup.2 (List.mem_filterMap.2 ⟨_, m, rfl⟩))

/-- WeaveAtWork: the records of other packages have come, whichever they are. -/
theorem test_tops_here (k : Ctx) (l : List (Nat × Nat)) :
    ({ k with caravan := { k.caravan with topAsked := [0], topGot := l.map fun x => (0, x.1, []) } } : Ctx).topsHere 0 l = true := by
  simp only [Ctx.topsHere, List.contains_cons, BEq.rfl, Bool.true_or, Bool.true_and, List.all_eq_true, List.any_eq_true]
  exact fun x hx => ⟨(0, x.1, []), List.mem_map.2 ⟨x, hx, rfl⟩, by simp⟩

/-- WeaveAtWork: a WV of one chunk whose 64 tags detour, at the accept channel for its first top-ups. -/
theorem test_weave_accept :
    let o : WvOp := ⟨0, 0, true, true, false, false, 4, 7, 1, 5, 1, 0, false, 0⟩
    let b := bun (m := .wv o)
    let tags : Bytes := (List.replicate 64 (toLe 8 (2 ^ 31 + 2 ^ 28))).flatten
    let s := running b (fun a => { bag 0x20000 tags a with sregs := [(3, 0x60000), (4, 0x1000), (5, 0x8000)] })
      fun k => { k with itin := { k.itin with tensors := [⟨0, 7, true, false, 0, 4096, 0⟩] } }
    s.engineRuns 0 0 = true ∧ (s.arch 0).weaveRun = [] ∧ (s.arch 0).weaveWait = none ∧
      (s.atAccept 0).any (fun j => j.topupNeed == [0] && (s.arch 0).topupRoom s.now j && (awayReads (s.chunkRecords 0 0 j 0)).isEmpty) = true ∧
      (s.imageOf 0) = none := by decide +kernel

/-- StepsBarriersAndTheEnd: a step arrived at by one station while the other has finished; a barrier of one member; the last
FINISH. -/
theorem test_step_release :
    let s := twoStations bun fun a => { a with run := .atStep 0, next := 1 }
    let s := s.modArch 1 fun a => { a with run := .finished, next := 0 }
    (s.ctx 0).state = .running ∧ (s.stnsOfCtx 0).Nodup ∧ s.stepArrived 0 = true ∧ (∀ x ∈ s.stepBounds 0, x = 0) ∧
      (s.ctx 0).parkPending = false ∧ (s.arch 0).next < 2 ∧ (s.arch 1).next < 1 := by decide +kernel
theorem test_barrier_release :
    let s := running bun (g := fun k => { k with barPend := [(1024, [(63, 0)])], barTok := [(1024, 64)] })
    let d : BarrierDecl := ⟨1, [0]⟩
    (s.ctx 0).itin.barriers.find? (fun d => d.group == (1 : BitVec 4).toNat) = some d ∧ d.members.Nodup ∧
      (∀ i ∈ d.members, i < s.stnCount 0 ∧ s.token 0 i ((s.ctx 0).barToken d i) < 65535) ∧ s.stnCount 0 ≤ 1024 ∧
      s.holds 0 = true ∧ s.barReady 0 d = true := by decide +kernel
theorem test_last_finish :
    let s := running (bun .finish)
    (bun .finish).onlyS = true ∧ s.issuable 0 0 (bun .finish) = true ∧ s.holds 0 = true ∧
      ∀ j ∈ s.stnsOfCtx 0, j = 0 ∨ (s.arch j).run = .finished := by decide +kernel

end Sys2Proof.Tests
end

