-- ==== Sys2Proof/Tests/Platform.lean ====
section
/-!
SUPPORT. Witnesses for the statements about islands, the governor, failures, memory errors and caravan groups.
-/

set_option Elab.async false

namespace Sys2Proof.Tests

open Sys2Proof Sys2Proof.Machine

/-- The fixture's package with its dies powered. -/
def powered (f : Ctx → Ctx := id) : State :=
  let s := running bun (g := f)
  { s with bring := { s.bring with romDone := true, diesOn := true, trained := true, selfTested := true }, gate := { s.gate with mode := 2 } }

/-- IslandsAndWindows: the last station, an oscillator off its target, a window as short as what it issued, a report due. -/
theorem test_islands :
    (let s := powered.modStn 1023 fun t => { t with island := { t.island with freq := 1800 } }
     s.bring.diesOn = true ∧ (s.stn 1023).island.freq ≠ (s.stn 1023).island.target ∧ (s.stn 1023).island.issuedWin ≤ 0) ∧
    (let s := { powered with now := 100000000 }.modPart 0 fun p => { p with gov := { p.gov with breachAt := some 0, breachPending := 1 } }
     s.hasPart 0 = true ∧ (s.part 0).gov.breachAt = some 0 ∧ (s.part 0).gov.breachPending ≠ 0 ∧ 0 + 100000000 ≤ s.now) := by
  decide +kernel

/-- GovernorSetsTargets: exactly 10 us after the last period. -/
theorem test_governor :
    let s := { powered with now := 10000 }
    s.bring.powered = true ∧ s.bring.romDone = true ∧ s.bring.diesOn = true ∧ s.gov.lastTick + 10000 ≤ s.now ∧ s.sched.count ∈ [1, 2, 4, 8] := by
  decide +kernel

/-- GovernorSetsTargets: station 0 with a stack's sensor at its control point, every sensor 5 degrees below, one between. -/
theorem test_governor_caps :
    let s (t : Int) := { powered with gov := { powered.gov with sensors := [(1024, { temp := t })] } }
    (95 ≤ ((s 95).sens 1024).temp) ∧ ((s 90).sens 1024).temp ≤ 95 - 5 ∧ ((s 90).sens 0).temp ≤ 95 - 5 ∧
      95 - 5 < ((s 91).sens 1024).temp ∧ ((s 91).sens 1024).temp < 95 ∧ (1024, (95 : Int)) ∈ (List.range 4).map fun j => (1024 + j, (95 : Int)) := by decide +kernel

/-- An image of one region of 4 KiB. -/
def imageOf_ : Image := { part := 0, id := 9, size := 4096, regions := [⟨0, 4096, 0, 1⟩], open_ := false }
/-- A caravan of that image: one group of one entry. -/
def caravanOf : Caravan :=
  { imageId := 9, cyclic := true, storeSeeds := [], regions := [⟨0, 4096, 0, 1⟩], groups := [⟨1, 0, 0, 0xFF, 1, 63⟩]
    entries := [⟨0, false, 0, 0, 0x10000, 4096⟩] }
/-- The fixture with the image, its caravan and a tensor. -/
def caravanState (f : CaravanRun → CaravanRun) : State :=
  { powered fun k => { k with
      caravan := f k.caravan
      itin := { k.itin with caravan := some caravanOf, stackMask := 1, tensors := [⟨0, 9, false, false, 0, 4096, 0⟩] } } with
    images := [imageOf_] }

/-- UnitFailures: a station of a context with an image in transit, one that has failed, an oscillator off its target, a link. -/
theorem test_failures :
    (let s := powered
     s.bring.diesOn = true ∧ (s.stn 0).failed = false ∧ ((0x21 : BitVec 7) &&& 0x3F) ≠ 0 ∧ 0 ∈ s.holdersOf 0) ∧
    (let s := caravanState id
     let s := { s with cst := { s.cst with transit := [(0, [.image 0 9 0 [1] 5])] } }
     (s.stn 5).failed = false ∧ 0 ∉ s.holdersOf 5 ∧ .image 0 9 0 [1] 5 ∈ mget [] s.cst.transit (5 / 128) ∧ 0 ∈ s.imageUsers 0 9 ∧
      (s.image 0 9).isSome = true ∧ (s.ctx 0).state ≠ .tearingDown) ∧
    (let s := powered.modStn 1023 fun t => { t with failed := true }
     s.bring.diesOn = true ∧ (s.stn 1023).failed = true ∧ ((0x20 : BitVec 7) &&& 0x3F) ≠ 0) ∧
    (let s := powered.modStn 1023 fun t => { t with island := { t.island with freq := 1800 } }
     s.bring.diesOn = true ∧ (s.stn 1023).failed = false ∧ (s.stn 1023).island.freq ≠ (s.stn 1023).island.target) ∧
    (let s := { twoStations bun with bring := powered.bring }
     linkFar 0 1 = some 1 ∧ (s.stn 0).linkFailed.getLsbD 1 = false ∧ s.bring.diesOn = true ∧ 0 ∈ s.holdersOf 0 ∧ 1 ∈ s.stnsOfCtx 0) := by
  decide +kernel

/-- MemoryErrorsScrubAndTransit: an image in use, a page, both scrubs at their last word, both kinds of transit. -/
theorem test_memory_errors :
    (let s := caravanState id
     s.bring.diesOn = true ∧ s.image 0 9 = some imageOf_ ∧ imageOf_.open_ = false ∧ 0 ∈ s.imageUsers 0 9) ∧
    (let g : Page := { part := 0, spn := 5, data := [], crcs := [] }
     let s := { powered with pages := [g] }
     s.page 0 5 = some g) ∧
    (let s := powered
     let s := { s with cst := { s.cst with scrubOn := true, scrubPos := 1024 * 131072 - 1 } }
     s.cst.scrubOn = true ∧ scrubDue s.cst.scrubPos s.cst.scrubFrom (ms (1000 * s.cst.scrubS)) s.now = true ∧
      s.cst.scrubPos < 1024 * 131072 ∧ ¬ s.cst.scrubPos + 1 < 1024 * 131072 ∧ (s.stn (s.cst.scrubPos / 131072)).failed = false) ∧
    (let s := { powered with now := ms 1000 }
     let s := { s with cst := { s.cst with scrubOn := true, scrubS := 1, scrubFrom := some 0 } }
     scrubDue s.cst.scrubPos s.cst.scrubFrom (ms (1000 * s.cst.scrubS)) s.now = true ∧ s.cst.scrubPos + 1 < 1024 * 131072) ∧
    (let s := powered.modStk 31 fun k => { k with state := 2, scrubPos := 48 * 2 ^ 24 - 1 }
     (s.stk 31).scrubOn = true ∧ (s.stk 31).state = 2 ∧ ¬ (s.stk 31).scrubPos + 1 < 48 * 2 ^ 24 ∧
      scrubDue (s.stk 31).scrubPos (s.stk 31).scrubFrom (ms (3600000 * (s.stk 31).scrubH)) s.now = true ∧
      (s.stn 1023).failed = false) ∧
    (let s := { caravanState id with images := [{ imageOf_ with open_ := true }] }
     s.image 0 9 = some { imageOf_ with open_ := true }) ∧
    (let s := powered fun k => { k with state := .running }
     (s.ctx 0).state ≠ .free ∧ (s.ctx 0).state ≠ .tearingDown ∧ partOfCtx 0 = 0) ∧
    (let s := caravanState id
     let s := { s with cst := { s.cst with transit := [(7, [.image 0 9 0 [1] 0])] } }
     mget [] s.cst.transit 7 = [.image 0 9 0 [1] 0] ∧ s.image 0 9 = some imageOf_) ∧
    (let s := powered
     let s := { s with cst := { s.cst with transit := [(0, [.split 0 [1] 0])] } }
     mget [] s.cst.transit 0 = [.split 0 [1] 0]) := by decide +kernel

/-- CaravanGroups: the only group of a cyclic schedule begins; a live group completes at station 0. -/
theorem test_caravan_groups :
    (let s := caravanState id
     let k := s.ctx 0
     let d : GroupDecl := ⟨1, 0, 0, 0xFF, 1, 63⟩
     k.itin.caravan = some caravanOf ∧ k.caravanRuns = true ∧ caravanOf.groups[k.caravan.next]? = some d ∧ k.groupMayBegin d = true ∧
      k.resolve (caravanOf.entriesOf k.caravan.next) = .ok [1] ∧ k.itin.fills caravanOf k.caravan.next [1] ≠ [] ∧
      s.groupAway 0 caravanOf { group := 0, pass := 0, vs := [1] } = []) ∧
    (let d : GroupDecl := ⟨0, 0, 0, 0xFF, 1, 63⟩
     let v := { caravanOf with groups := [d, d], cyclic := false }
     let s := (caravanState id).modCtx 0 fun k => { k with itin := { k.itin with caravan := some v } }
     let k := s.ctx 0
     v.groups[k.caravan.next]? = some d ∧ k.groupMayBegin d = true ∧ k.resolve (v.entriesOf k.caravan.next) = .ok [] ∧
      k.itin.fills v k.caravan.next [] = [] ∧ s.counting 0 = true ∧ (s.stnsOfCtx 0).Nodup ∧ (k.itin.notified d).Nodup ∧
      ∀ j ∈ k.itin.notified d, j < s.stnCount 0 ∧ s.token 0 j 63 < 65535) ∧
    (let r : GroupRun := { group := 0, pass := 0, vs := [1] }
     let s := caravanState fun x => { x with live := [r] }
     let k := s.ctx 0
     k.caravan.live[0]? = some r ∧ r.done = false ∧ r.notified = false ∧ s.groupWaits 0 caravanOf (k.caravan.live.take 0) r = false ∧
      s.groupHere 0 caravanOf r = true ∧
      k.itin.fills caravanOf 0 [1] = [(0, 0x10000, 4096, false)] ∧ s.imageOf 0 = some imageOf_ ∧ imageOf_.poisoned 0 4096 = false ∧
      granules 0 4096 = [0] ∧ k.holdsHome 1 (s.imagePlace 0 imageOf_.regions 0).1 = true ∧ s.counting 0 = true ∧
      (s.stnsOfCtx 0).Nodup ∧ (k.itin.notified ⟨1, 0, 0, 0xFF, 1, 63⟩).Nodup ∧
      ∀ j ∈ k.itin.notified ⟨1, 0, 0, 0xFF, 1, 63⟩, j < s.stnCount 0 ∧ s.token 0 j 63 < 65535) := by decide +kernel

end Sys2Proof.Tests
end

