-- ==== Sys2Proof/Tests/Experts.lean ====
section
/-!
SUPPORT. Witnesses for the statements about the dispatch engine, its messages and the relay.
-/

set_option Elab.async false

namespace Sys2Proof.Tests

open Sys2Proof Sys2Proof.Machine

/-- A step plan whose one group is station 0. -/
def plan1 : StepPlan := { planDecl with groups := [⟨0, 1, 8, 9, 10, 0x13000, 0x14000, 0x15000, 0⟩] }
/-- Its group. -/
def group1 : ExpertGroup := ⟨0, 1, 8, 9, 10, 0x13000, 0x14000, 0x15000, 0⟩

/-- Rail 0 is up, with credits of every class. -/
def withRail (s : State) : State :=
  { s with fab := { s.fab with
    ports := [(0, { state := 5, step := 6, lanes := 0xFF, width := 8, credits := [1000, 1000, 1000, 1000] })] } }

/-- The fixture on rail 0 as job 77 with `plan1`, its engine's state set. -/
def routing (m : MoeRun) (f : Ctx → Ctx := id) : State :=
  withRail (powered fun k => f { k with moe := m, itin := { k.itin with job := 77, stepPlan := some plan1 } })

/-- A dispatch request of group 0, layer 0, its table at 0x1A000. -/
def reqDisp (op : Nat) : DispReq :=
  { station := 0, bundle := 0, op := op, group := 0, layer := 0, countSlot := 5, listToken := 1, laneToken := 2, doneToken := 63
    table := 0x1A000, lane := 0, step := 0, threshold := 1400, hysteresis := 200 }

/-- DispatchTakesRequests: ROUTE of one entry of one expert, SERVE, each of them a second time, a borrow request, a plan that is
late. -/
theorem test_dispatch_takes :
    (let s := routing { queue := [reqDisp 1] } fun k => { k with
       store := wrBytes (wrBytes k.store 0x1F000 (toLe 8 1)) 0x1A000 (toLe 4 0 ++ toLe 1 1) }
     let k := s.ctx 0
     k.state = .running ∧ k.itin.stepPlan = some plan1 ∧ plan1.groups[0]? = some group1 ∧
      k.moe.queue.find? (fun r => r.op == 1 && r.group == 0) = some (reqDisp 1) ∧
      (∀ q ∈ (k.moe.route 0 0).reqs, q.group ≠ 0) ∧ (s.seenCtx 0).shape 5 = .ok 1 ∧ 1 ≤ plan1.routeMax ∧ k.inWorking 0x1A000 32 = true ∧
      k.routeFault plan1 group1 ((s.seenCtx 0).routeEntry 0x1A000 0) = none) ∧
    (let s := routing { queue := [reqDisp 2] }
     (s.ctx 0).moe.queue.find? (fun r => r.op == 2) = some (reqDisp 2) ∧
      ((reqDisp 2).step, (reqDisp 2).layer) ∉ (s.ctx 0).moe.served) ∧
    (let run : RouteRun := { layer := 0, step := 0, reqs := [reqDisp 1] }
     let s := routing { queue := [reqDisp 1, reqDisp 2], routes := [run], served := [(0, 0)] }
     let m := (s.ctx 0).moe
     m.queue.find? (fun r => r.op == 1 && r.group == 0) = some (reqDisp 1) ∧
      (∃ q ∈ (m.route 0 0).reqs, q.group = (reqDisp 1).group) ∧ (reqDisp 1).station < s.stnCount 0 ∧ s.stnOfCtx 0 0 < 1024 ∧
      m.queue.find? (fun r => r.op == 2) = some (reqDisp 2) ∧
      ((reqDisp 2).step, (reqDisp 2).layer) ∈ m.served) ∧
    (let b : BorrowRun := { step := 0, layer := 0, expert := 1, lanes := [(0, 0, 2)] }
     let s := routing { borrows := [b] }
     let k := s.ctx 0
     k.moe.borrows.find? (fun b => b.layer == 0 && b.expert == 1 && !b.sent) = some b ∧ plan1.home 0 1 = some ⟨1, 0, 1⟩ ∧
      (∀ x ∈ b.lanes, plan1.laneGroup 0 x.1 0 x.2.1 ∉ k.caravan.laneReady) ∧ s.hasDeparted (k.peerId 1) = false ∧
      (s.chooseRail (k.peerId 1) 0).isSome = true) ∧
    (let s := { routing {} fun k => { k with step := 1, itin := { k.itin with stepPlanMode := true } } with now := 50000 }
     let k := s.ctx 0
     k.itin.stepPlanMode = true ∧ k.step ≠ 0 ∧ k.moe.planTaken = false ∧ k.moe.planStore = [] ∧ k.stepStart + plan1.deadlineNs ≤ s.now) := by
  decide +kernel

/-- DispatchTakesRequests: a layer whose one pair is at home. -/
theorem test_route_proceeds :
    let run : RouteRun := { layer := 0, step := 0, reqs := [reqDisp 1], pairs := [⟨0, 0, 0, 0⟩] }
    let s := routing { routes := [run] } fun k => { k with itin := { k.itin with peers := none } }
    let k := s.ctx 0
    k.state = .running ∧ s.holds 0 = true ∧ k.itin.stepPlan = some plan1 ∧ plan1.groups = [group1] ∧ k.itin.stepPlanMode = false ∧
      k.others = [] ∧ (s.stnsOfCtx 0).Nodup ∧
      k.moe.routes.find? (fun r => !r.listed && r.reqs.length == plan1.groups.length) = some run ∧ run.reqs = [reqDisp 1] ∧
      (∀ q ∈ k.moe.routes, q = run ∨ ¬ (q.layer = run.layer ∧ q.step = run.step)) ∧ run.ships = [] ∧
      (∀ x ∈ run.pairs, x.group = 0 ∧ ((plan1.home run.layer x.expert).map (·.home)).getD 0 = k.selfPeer) ∧
      (run.pairs.map (·.expert)).dedup.length ≤ plan1.lanes ∧ k.moe.mayShip run = true ∧
      group1.first + group1.count ≤ s.stnCount 0 ∧ (reqDisp 1).station < s.stnCount 0 ∧ s.stnCount 0 = 1 ∧
      (s.arch 0).tokens = [] := by decide +kernel

/-- An arrival record of pair 0 of peer 1 for expert 0. -/
def rowOf : ArrivalRec := ⟨1, 0, 0, 0, 0, 0, 0, 0, 0x10200, 0⟩

/-- ServesReturnsAndTrees: a serve of one row, its return, and a tree of one requester. -/
theorem test_serves :
    (let s := routing { serving := [{ reqDisp 2 with layer := 5 }, reqDisp 2], notes := [⟨0, 0, 1, 1⟩], arrivals := [rowOf] }
     let k := s.ctx 0
     k.moe.serving.find? (fun r => k.noticed r.step r.layer) = some (reqDisp 2) ∧ k.moe.served? k.peerCount 0 0 = [rowOf] ∧ 1 ≤ plan1.serveRows ∧
      1 ≤ plan1.lanes ∧ rowOf.expert < plan1.experts ∧ plan1.home 0 0 = some ⟨0, 0, 0⟩ ∧ s.holds 0 = true ∧ (s.stnsOfCtx 0).Nodup ∧
      group1.first + group1.count ≤ s.stnCount 0 ∧ s.stnCount 0 = 1 ∧ (s.arch 0).tokens = []) ∧
    (let l : ServeLane := ⟨0, 0, 0, [rowOf], false⟩
     let s := routing { queue := [reqDisp 3], lanes := [l] }
     let k := s.ctx 0
     plan1.groups[rowOf.group]? = some group1 ∧ k.moe.queue.find? (fun r => r.op == 3) = some (reqDisp 3) ∧
      k.moe.lanes.find? (fun l => l.layer == 0 && l.group == 0 && l.lane == 0 && !l.returned) = some l ∧
      k.inWorking 0x1A000 plan1.resultBytes = true ∧ k.moe.epochOf 1 = rowOf.epoch ∧ s.token 0 0 63 < 65535 ∧
      s.portUp rowOf.rail = true ∧ s.holds 0 = true) ∧
    (let q : BorrowReq := ⟨0, 0, 0, 1, 1, 0, 0⟩
     let s0 := caravanState id
     let s := { withRail (s0.modCtx 0 fun k => { k with
       moe := { reqs := [q] }, itin := { k.itin with job := 77, stepPlan := some plan1 } }) with now := 2000 }
     let k := s.ctx 0
     k.state = .running ∧ k.moe.reqs.find? (fun q => q.layer == 0 && q.expert == 0) = some q ∧ plan1.home 0 0 = some ⟨0, 0, 0⟩ ∧
      s.imageOf 0 = some imageOf_ ∧ k.itin.tensor 0 = some ⟨0, 9, false, false, 0, 4096, 0⟩ ∧ s.portsRun = true ∧ k.under ≠ some .held ∧
      q.at_ + s.moe.mergeNs.toNat ≤ s.now ∧ imageOf_.poisoned 0 4096 = false ∧ s.chooseRail 1 0 = some 0) := by decide +kernel

/-- A message that carries the E2E_CRC of its bytes as MTYPE `t`. -/
def whole (t : BitVec 8) (m : Msg) : Msg := { m with e2e := m.crc t }

/-- A message of this job from package 1 on rail 0. -/
def msgOf (t : BitVec 8) (job : BitVec 32) (remote : Nat) (data : Bytes) (aux : BitVec 32 := 0) : Msg :=
  whole t ⟨0, 1, 0, job, 0, 0, remote, aux, data, 0, 0⟩

/-- Such a message is heard on a port that is up, if its data has the length its type fixes. -/
theorem hears_whole (s : State) (t : BitVec 8) (m : Msg) (h : (s.portUp m.port && s.arrives m && m.fits t) = true) :
    s.hears t (whole t m) = true := by
  rw [Bool.and_eq_true, Bool.and_eq_true] at h
  have u : s.portUp (whole t m).port = true := h.1.1
  have a : s.arrives (whole t m) = true := h.1.2
  have i : (whole t m).intact t = true := Msg.intact_own t m h.2
  simp [State.hears, u, a, i]

/-- The fixture of job 77 with a remote window. -/
def windowed (f : Ctx → Ctx := id) : State :=
  routing {} fun k => f { k with itin := { k.itin with regions := k.itin.regions ++ [⟨0x60000, 0x10000, 7, 0x8000⟩] } }

/-- PeersReadAndWrite: reads of every size at their last place, one that is refused, writes and atomics at the window's end, outside
it, of a context that is away with room in the inbound queue and without. -/
theorem test_peers :
    (let s := windowed
     let k := s.ctx 0
     s.jobCtx 77 = some 0 ∧ k.resident = true ∧ s.hears 0x01 (msgOf 1 77 0x1FFC0 []) = true ∧ k.remoteReads 0x1FFC0 64 = true ∧
      s.hears 0x03 (msgOf 3 77 0x1F000 []) = true ∧ k.remoteReads 0x1F000 4096 = true ∧ s.reqBehind (msgOf 3 77 0x1F000 []) = false ∧
      s.remoteRead 0 (2 ^ 45) 64 = .no .access ∧ k.remoteWrites 0x6FF00 256 = true ∧ k.remoteWrites 0x6F000 4096 = true ∧
      k.remoteWrites 0x6FFF8 8 = true ∧ k.remoteWrites 0x70000 8 = false ∧ s.jobCtx 78 = none) ∧
    (let s := windowed fun k => { k with resident := false }
     let k := s.ctx 0
     s.jobCtx 77 = some 0 ∧ k.resident = false ∧ k.remoteWrites 0x6FFF8 8 = true ∧ s.remoteRead 0 0x1FFC0 64 = .wait ∧
      s.reqBehind (msgOf 5 77 0x6FFF8 (List.replicate 16 3)) = false) := by decide +kernel

/-- PeersReadAndWrite: the writes and the atomics are heard. -/
theorem test_peers_heard (s : State) (h : (s.portUp 0 && s.arrives ⟨0, 1, 0, 77, 0, 0, 0x6FF00, 0, [], 0, 0⟩) = true) :
    s.hears 0x02 (msgOf 2 77 0x6FF00 (List.replicate 256 3)) = true ∧ s.hears 0x04 (msgOf 4 77 0x6F000 (List.replicate 4096 3)) = true ∧
      s.hears 0x05 (msgOf 5 77 0x6FFF8 (List.replicate 16 3)) = true := by
  refine ⟨hears_whole _ _ _ ?_, hears_whole _ _ _ ?_, hears_whole _ _ _ ?_⟩ <;>
    (rw [Bool.and_eq_true]; exact ⟨h, by show (List.length (List.replicate _ _) == _) = true; rw [List.length_replicate]; decide⟩)
theorem test_windowed_hears : ((windowed).portUp 0 && (windowed).arrives ⟨0, 1, 0, 77, 0, 0, 0x6FF00, 0, [], 0, 0⟩) = true := by decide +kernel

/-- An inbound queue with nothing in it has room. -/
theorem room_of_empty (s : State) (p : Nat) (e : 0 < s.eighths) (h : s.fab.inbound = []) : s.inboundFull p = false := by
  have : 0 < s.eighths * (Config.inboundShare + 1) := Nat.mul_pos e (Nat.succ_pos _)
  simp [State.inboundFull, State.inboundRoom, h]
  omega

/-- PeersReadAndWrite, DispatchMessages: an inbound queue with room, and one that holds all that its shares allow. -/
theorem test_inbound (m : Msg) :
    (windowed).inboundFull 0 = false ∧ (routing {}).inboundFull 0 = false ∧
    (let s := { windowed with fab := { (windowed).fab with
       inbound := List.replicate ((windowed).eighths * (Config.inboundShare + 1)) (0, 1, m) } }
     s.inboundRoom ≤ (s.fab.inbound.filter fun x => x.1 == 0).length) := by
  refine ⟨room_of_empty _ _ (by decide +kernel) (by decide +kernel), room_of_empty _ _ (by decide +kernel) (by decide +kernel), ?_⟩
  show (windowed).eighths * _ ≤ _
  simp

/-- PeersReadAndWrite: a counter filled by a notice, a station that is not there, the four atomics, a job that is absent. -/
theorem test_peers_notify :
    (let s := windowed
     s.hears 0x06 (msgOf 6 77 0 [] 0xFFFF) = true ∧ s.counting 0 = true ∧ 0 < s.stnCount 0 ∧ s.token 0 0 63 + 1023 * 64 ≤ 65535 ∧
      (msgOf 6 77 0 [] 0xFFFF).aux.toNat / 65536 = 0 ∧ (msgOf 6 77 0 [] 0xFFFF).aux.toNat / 1024 % 64 = 63 ∧
      s.stnCount 0 ≤ (msgOf 6 77 0 [] 0x10000).aux.toNat / 65536) ∧
    (∀ f < 4, let m : Msg := ⟨BitVec.ofNat 8 f, 1, 0, 78, 0, 0, 0, 0, List.replicate 16 3, 0, 0⟩
      let s := windowed
      s.hears 0x05 { m with e2e := m.crc 5 } = true ∧ m.flags.toNat % 4 = f ∧ s.jobCtx m.job = none) := by decide +kernel

/-- The 64-byte header of a dispatch record. -/
def hdr64 (epoch layer expert pair group st step : Nat) : Bytes :=
  toLe 2 1 ++ toLe 2 epoch ++ toLe 2 layer ++ toLe 2 expert ++ toLe 4 pair ++ toLe 1 group ++ toLe 1 st ++ toLe 2 0 ++ toLe 8 step ++
    toLe 40 0

/-- DispatchMessages: an arrival in the first slot of peer 1, a borrow of an expert at home, a newer epoch, a result, a stale one. -/
theorem test_dispatch_messages :
    (let bs := hdr64 0 0 0 0 0 0 0 ++ toLe 64 5
     let s := routing {}
     let m := msgOf 0x20 77 0x10200 bs
     let k := s.ctx 0
     s.arrives m = true ∧ m.fits 0x20 = true ∧ s.jobCtx 77 = some 0 ∧ k.resident = true ∧ k.state ≠ .saving ∧ k.peerOf 1 = some 1 ∧
      arrivalSlot plan1 k.peerCount 1 m.remote = some (0, 0) ∧ m.data.length = 64 + plan1.actBytes ∧ leAt m.data 4 2 % 2 = 0 ∧
      plan1.home 0 0 = some ⟨0, 0, 0⟩ ∧ (0 : Nat) = k.selfPeer ∧ newer 32767 (k.moe.epochOf 1) = true ∧
      (∀ t ∈ [(0x21 : BitVec 8), 0x22, 0x23, 0x24], s.hears t (msgOf t 77 0 []) = true)) ∧
    (let w : AwaitPair := { step := 0, layer := 0, group := 0, index := 0, expert := 0, home := 1 }
     let s := routing { await := [w] }
     let k := s.ctx 0
     let bs := hdr64 0 0 0 0 0 0 0 ++ toLe 64 5
     leAt bs 2 2 = k.moe.epoch.toNat ∧ plan1.groups[w.group]? = some group1 ∧
      k.moe.await.find? (fun a => a.step == leAt bs 16 8 && a.layer == leAt bs 4 2 && a.group == leAt bs 12 1 &&
        a.index == leAt bs 8 4) = some w ∧ leAt bs 13 1 % 2 = 0 ∧ bs.length = 64 + plan1.resultBytes ∧ s.counting 0 = true ∧
      (s.stnsOfCtx 0).Nodup ∧ group1.first + group1.count ≤ s.stnCount 0 ∧ s.stnCount 0 = 1 ∧ s.token 0 0 9 < 65535 ∧
      leAt (hdr64 1 0 0 0 0 0 0) 2 2 ≠ k.moe.epoch.toNat) := by decide +kernel

/-- RelayAndDeparture: a block to pass on, one of a barred job, one for a leaf of an old epoch, one for an expert that waits for two, a
departure. -/
theorem test_relay :
    (let s := routing { borrows := [{ step := 0, layer := 0, expert := 1, lanes := [(0, 0, 2)], sent := true }] } fun k => { k with
       itin := { k.itin with caravan := some caravanOf, tensors := [⟨0, 9, false, false, 0, 65537, 0⟩] } }
     let k := s.ctx 0
     let m := msgOf 0x28 77 0 []
     let up : RelayHdr := ⟨0, 0, [(0, 0), (1, 0)], 0, 0, 1⟩
     let leaf (e : Nat) : RelayHdr := ⟨0, 0, [(0, e)], 0, 0, 1⟩
     s.hears 0x28 m = true ∧ s.jobBarred m.job = false ∧ up.members[2 * up.position + 1]? = some (1, 0) ∧ s.chooseRail 1 (up.block * 65536) = some 0 ∧
      s.jobCtx 77 = some 0 ∧ k.resident = true ∧ k.state ≠ .saving ∧ (leaf 1).members[0]? = some (0, 1) ∧
      (leaf 1).members.length ≤ 2 * (leaf 1).position + 1 ∧ 1 ≠ k.moe.epoch.toNat ∧ (0 : Nat) = k.moe.epoch.toNat ∧
      k.itin.stepPlan = some plan1 ∧ k.itin.caravan = some caravanOf ∧ plan1.groups.head? = some group1 ∧
      k.itin.tensor 0 = some ⟨0, 9, false, false, 0, 65537, 0⟩ ∧ (0 : Nat) + 1 < ceilDiv 65537 65536 ∧
      (k.moe.borrows.find? (fun b => b.layer == 0 && b.expert == 1 && b.sent)).isSome = true ∧
      k.itin.peers = some ⟨0, [0, 1]⟩ ∧ (m.srcPkg.toNat ∈ [0, 1]) ∧ k.state ≠ .free ∧ k.state ≠ .tearingDown ∧ k.isHeld = false ∧
      s.hears 0x30 (msgOf 0x30 0 0 (List.replicate 16 0)) = true ∧ (1 : Nat) ∉ [0] ∧
      (let s := { s with fab := { s.fab with quarantine := [(77, 5)] } }
       s.hears 0x28 m = true ∧ s.jobBarred m.job = true)) := by decide +kernel

end Sys2Proof.Tests
end

