-- ==== Sys2Proof/Tests/Packets.lean ====
section
/-!
SUPPORT. Plouth packets that the package takes, in each of the three forms, whatever their parameters.
-/

set_option Elab.async false

namespace Sys2Proof.Tests

open Sys2Proof Sys2Proof.Machine

/-- A command of slot A without its trailer. -/
def barePkt (op flags : BitVec 16) (ctx : BitVec 16) (params : Bytes) : Pkt :=
  { srcAddr := 7, srcPort := 9, version := 1, slot := 1, flags := flags, opcode := op, context := ctx, sequence := 1
    length := BitVec.ofNat 32 params.length, session := 1, rsv := 0, params := params, trailer := [] }

/-- A session-form command of slot A. -/
def cmdPkt (op : BitVec 16) (params : Bytes) (ctx : BitVec 16 := 0xFFFF) : Pkt :=
  let p := barePkt op 0 ctx params
  { p with trailer := plouthTag [] (pktBytes p) }

/-- A signed command of slot A that presents challenge 5. -/
def signedPkt (op : BitVec 16) (params : Bytes) : Pkt :=
  { barePkt op 8 0xFFFF (params ++ toBe 8 5) with session := 0, trailer := 1 :: List.replicate 63 0 }

/-- STATUS_MIN in the open form. -/
def openPkt : Pkt := { barePkt 1 4 0xFFFF [] with session := 0, slot := 0 }

/-- Slot A is enrolled under the neutral key, its session is open, challenge 5 is out, the port takes packets without a tag at its
shipped number, nothing waits for the firmware or behind a firmware update; who holds the baton and until when. -/
def hosted (s : State) (b : Option Slot := some .a) (e : Nat := s.now + 1000) : State :=
  { s with
    nv := { s.nv with
      slotA := { enrolled := true, addr := 7, key := BitVec.ofNat 256 (2 ^ 248) }
      net := { s.nv.net with vlanEn := false, port := 48190 } }
    sec := { s.sec with fwRead := none, fwWrite := none }
    cmd := { s.cmd with
      serial := []
      a := { open_ := true, number := 1 }, waiting := [], responsive := true, baton := b, batonEnd := e
      challenges := [⟨5, s.now, false⟩] } }

theorem split_cmd (op : BitVec 16) (params : Bytes) (ctx : BitVec 16) (h : params.length < 2 ^ 32) :
    splitAtLength (cmdPkt op params ctx) = cmdPkt op params ctx := by
  have e : (BitVec.ofNat 32 params.length).toNat = params.length := by simp; omega
  simp [splitAtLength, cmdPkt, barePkt, e]

/-- A session-form command that needs no baton, or comes from the holder, is taken, whatever its parameters. -/
theorem cmd_taken' (s : State) (b : Option Slot) (e : Nat) (op : BitVec 16) (params : Bytes) (ctx : BitVec 16) (hp : s.bring.powered = true)
    (hm : s.gate.mode = 1 ∨ s.gate.mode = 2 ∨ s.gate.mode = 3) (ho : opcodes.contains op.toNat = true) (h0 : op.toNat ≠ 0x10)
    (hb : batonOp op.toNat = false ∨ (b = some .a ∧ s.now < e)) (hn : params.length < 2 ^ 32) :
    (hosted s b e).takes (cmdPkt op params ctx) (cmdPkt op params ctx) .a = true := by
  have len : (BitVec.ofNat 32 params.length).toNat = params.length := by simp; omega
  simp only [State.takes, split_cmd op params ctx hn]
  have hmode : (hosted s b e).modeRefuses (cmdPkt op params ctx) = false := by
    rcases hm with h | h | h <;> simp [State.modeRefuses, State.mode, hosted, h]
  have hl : batonOp op.toNat = false ∨ ((hosted s b e).hasLease .a = true ∧ (hosted s b e).batonBusy = false) := by
    rcases hb with h | ⟨h, h'⟩
    · exact .inl h
    · right; simp [State.hasLease, State.batonBusy, hosted, h, h']
  have ho' : (cmdPkt op params ctx).opcode = op := rfl
  simp only [hmode, ho']
  simp [cmdPkt, barePkt, hosted, State.alive, hp, pktOpen, pktSigned, lengthOk, trailerLen, reservedHeader, formOk,
    slotOf, State.fromSlot, State.binding, State.session, h0, pktBytes, Session.outstanding, State.outstanding,
    State.reaches, State.admits, State.ownAddr]
  exact ⟨⟨by simpa using hn, by simpa using ho⟩, hl⟩

theorem cmd_taken (s : State) (op : BitVec 16) (params : Bytes) (ctx : BitVec 16) (hp : s.bring.powered = true)
    (hm : s.gate.mode = 1 ∨ s.gate.mode = 2 ∨ s.gate.mode = 3) (ho : opcodes.contains op.toNat = true) (h0 : op.toNat ≠ 0x10)
    (hn : params.length < 2 ^ 32) : (hosted s).takes (cmdPkt op params ctx) (cmdPkt op params ctx) .a = true :=
  cmd_taken' s _ _ op params ctx hp hm ho h0 (.inr ⟨rfl, Nat.lt_add_of_pos_right (by decide)⟩) hn

/-- The neutral key and a signature under it of every message. -/
def neutralKey : Bytes := 1 :: List.replicate 31 0
def neutralSig : Bytes := 1 :: List.replicate 63 0

theorem neutral_verifies (m : Bytes) : edVerify neutralKey m neutralSig = true := by
  have d : edDecode neutralKey = some (0, 1, 1, 0) := by decide +kernel
  have e : neutralSig.take 32 = neutralKey := by decide
  have z : leNat (neutralSig.drop 32) = 0 := by decide
  have m0 (q : EdPoint) (n : Nat) : ∃ v, edMul q n 0 = (0, v, v, 0) := by
    induction n with
    | zero => exact ⟨1, rfl⟩
    | succ n ih =>
      obtain ⟨v, hv⟩ := ih
      obtain ⟨w, hw⟩ := edAdd_neutral v v
      exact ⟨w, by simp [edMul, hv, hw]⟩
  unfold edVerify
  rw [if_neg (by decide)]
  simp only [z, e, d]
  rw [if_neg (by decide)]
  obtain ⟨u, hu⟩ := m0 edBase 260
  obtain ⟨v, hv⟩ := edMul_neutral 1 8 8
  obtain ⟨w, hw⟩ := edMul_neutral 1 260 (8 * (leNat (sha512 (neutralKey ++ neutralKey ++ m)) % edL))
  obtain ⟨x, hx⟩ := edAdd_neutral v w
  simp only [Nat.mul_zero, hu, hv, hw, hx, edEq_neutral]

theorem key_bytes : toBe 32 (BitVec.ofNat 256 (2 ^ 248)).toNat = neutralKey := by decide +kernel

theorem split_signed (op : BitVec 16) (params : Bytes) (h : params.length + 8 < 2 ^ 32) :
    splitAtLength (signedPkt op params) = signedPkt op params := by
  have e : (BitVec.ofNat 32 (params.length + 8)).toNat = params.length + 8 := by simp; omega
  have n : (params ++ toBe 8 5).length = params.length + 8 := by simp
  have t := List.take_left' (l₂ := neutralSig) n
  have d := List.drop_left' (l₂ := neutralSig) n
  simp only [splitAtLength, signedPkt, barePkt, n, e]
  exact congrArg₂ (fun a b => ({ barePkt op 8 0xFFFF [] with
    session := 0, length := BitVec.ofNat 32 (params.length + 8), params := a, trailer := b } : Pkt)) t d

/-- A signed guaranteed command is taken. -/
theorem signed_taken (s : State) (op : BitVec 16) (params : Bytes) (hp : s.bring.powered = true)
    (hm : s.gate.mode = 0 ∨ s.gate.mode = 1 ∨ s.gate.mode = 2 ∨ s.gate.mode = 3) (ho : guaranteed op.toNat = true)
    (hn : params.length + 8 < 2 ^ 32) :
    (hosted s).takes (signedPkt op params) { signedPkt op params with params := params } .a = true := by
  have e : (BitVec.ofNat 32 (params.length + 8)).toNat = params.length + 8 := by simp; omega
  simp only [State.takes, split_signed op params hn]
  have hmode : (hosted s).modeRefuses (signedPkt op params) = false := by
    rcases hm with h | h | h | h <;> simp [State.modeRefuses, State.mode, hosted, h]
  have hb : beAt (params ++ toBe 8 5) params.length 8 = 5 := by
    have : slice (params ++ toBe 8 5) params.length 8 = toBe 8 5 := by simp [slice, toBe, toLe]
    simp only [beAt, this]; decide
  have hv := neutral_verifies (pktBytes (signedPkt op params))
  have hk : toBe 32 ((hosted s).binding .a).key.toNat = neutralKey := key_bytes
  have ht : (signedPkt op params).trailer = neutralSig := rfl
  have hc : (hosted s).challengeOk 5 = true := by simp [State.challengeOk, hosted]
  simp only [hmode, hk, ht, hv]
  have hpar : (signedPkt op params).params = params ++ toBe 8 5 := rfl
  have hlen : (params ++ toBe 8 5).length = params.length + 8 := by simp
  simp only [hpar, hlen, Nat.add_sub_cancel, hb, hc]
  simp [signedPkt, barePkt, hosted, State.alive, hp, pktOpen, pktSigned, lengthOk, trailerLen, reservedHeader, formOk,
    slotOf, State.fromSlot, State.binding, State.session, ho, Session.outstanding, State.outstanding,
    State.reaches, State.admits, State.ownAddr]
  omega

/-- STATUS_MIN in the open form is taken. -/
theorem open_taken : (hosted powered).takes openPkt openPkt .a = true := by decide +kernel

/-- SESSION_OPEN and ENROL of slot A under the neutral key, with the ephemeral key 9. -/
def openParams (enrol : Bool) : Bytes :=
  toBe 4 (if enrol then 1 else 0) ++ toBe 4 0 ++ x25519Base ++
    (if enrol then neutralKey ++ toBe 16 7 ++ neutralSig else List.replicate 112 0)

/-- A package whose attestation key has been derived. -/
def attested : State := { hosted powered with sec := { (hosted powered).sec with atPriv := some [] } }

theorem opens_ (enrol : Bool) :
    attested.opens (signedPkt 0x10 (openParams enrol)) (signedPkt 0x10 (openParams enrol)) .a
      (openReq (signedPkt 0x10 (openParams enrol))) = true ∧ (openReq (signedPkt 0x10 (openParams enrol))).enrol = enrol := by
  have v := neutral_verifies
  have k : toBe 32 (attested.binding .a).key.toNat = neutralKey := key_bytes
  have t : (signedPkt 0x10 (openParams enrol)).trailer = neutralSig := rfl
  have sp : splitAtLength (signedPkt 0x10 (openParams enrol)) = signedPkt 0x10 (openParams enrol) :=
    split_signed _ _ (by cases enrol <;> decide +kernel)
  have e : attested.endorseOk (signedPkt 0x10 (openParams enrol)) (openReq (signedPkt 0x10 (openParams enrol))) = true ∨ enrol = false := by
    cases enrol
    · exact .inr rfl
    · left
      have r : (openReq (signedPkt 0x10 (openParams true))).endorse = neutralSig := by decide +kernel
      have k' : toBe 32 attested.nv.slotA.key.toNat = neutralKey := key_bytes
      simp only [State.endorseOk, r, k', v]
      decide +kernel
  have w (m : Bytes) : edVerify (if (openReq (signedPkt 0x10 (openParams enrol))).enrol
      then (openReq (signedPkt 0x10 (openParams enrol))).newKey else neutralKey) m neutralSig = true := by
    have : (if (openReq (signedPkt 0x10 (openParams enrol))).enrol
      then (openReq (signedPkt 0x10 (openParams enrol))).newKey else neutralKey) = neutralKey := by
      cases enrol <;> decide +kernel
    rw [this]; exact v m
  unfold State.opens
  rw [k, t, w, sp]
  rcases e with e | e
  · rw [e]; cases enrol <;> decide +kernel
  · subst e; decide +kernel

/-- The same for a fixture whose mode and power are plain to see. -/
theorem cmd_ok (s : State) (op : BitVec 16) (params : Bytes) (ctx : BitVec 16)
    (h : (s.bring.powered && (s.gate.mode == 1 || s.gate.mode == 2 || s.gate.mode == 3) && opcodes.contains op.toNat &&
      op.toNat != 0x10 && decide (params.length < 2 ^ 32)) = true) :
    (hosted s).takes (cmdPkt op params ctx) (cmdPkt op params ctx) .a = true := by
  simp only [Bool.and_eq_true, Bool.or_eq_true, beq_iff_eq, bne_iff_ne, decide_eq_true_eq, or_assoc] at h
  exact cmd_taken s op params ctx h.1.1.1.1 h.1.1.1.2 h.1.1.2 h.1.2 h.2

/-- The parameters of a write of `v` to offset `o`. -/
def writeParams (o v : Nat) : Bytes := toBe 2 1 ++ toBe 6 0 ++ toBe 8 o ++ toBe 8 v

/-- A REG_WRITE that writes `v` to offset `o`. -/
def writePkt (o v : Nat) : Pkt := cmdPkt 0x21 (writeParams o v)

/-- Such a write is taken, whoever holds the baton. -/
theorem write_ok (s : State) (b : Option Slot) (e o v : Nat)
    (h : (s.bring.powered && (s.gate.mode == 1 || s.gate.mode == 2 || s.gate.mode == 3) && (writeParams o v).length == 24 &&
      beAt (writeParams o v) 0 2 == 1 && zeroAt (writeParams o v) 2 6 && beAt (writeParams o v) 8 8 == o &&
      beAt (writeParams o v) 16 8 == v) = true) : (hosted s b e).writes (writePkt o v) .a o v = true := by
  simp only [Bool.and_eq_true, Bool.or_eq_true, beq_iff_eq, or_assoc] at h
  obtain ⟨⟨⟨⟨⟨⟨h0, h1⟩, h2⟩, h3⟩, h4⟩, h5⟩, h6⟩ := h
  have t := cmd_taken' s b e 0x21 (writeParams o v) 0xFFFF h0 h1 (by decide) (by decide) (.inl (by decide)) (by omega)
  have f : (hosted s b e).batonBusy = false := rfl
  simp only [State.writes, writePkt, t]
  simp [cmdPkt, barePkt, f, h2, h3, h4, h5, h6]

end Sys2Proof.Tests
end

