-- ==== Sys2Proof/Tests/Hosts.lean ====
section
/-!
SUPPORT. Witnesses for the statements about the host link, queue pairs and the commands of contexts.
-/

set_option Elab.async false

namespace Sys2Proof.Tests

open Sys2Proof Sys2Proof.Machine

/-- An untagged frame of the greatest length, and the package with both addresses configured. -/
def frame : Frame := ⟨9216, true, none⟩
def addressed : State := { powered with nv := { powered.nv with net := { powered.nv.net with v4en := true, v6en := true, addr4 := 3, addr6 := linkLocal ^^^ 1 } } }

/-- TheHostLink: frames that the port admits and does not, an ARP request, solicitations of both addresses, both echoes, short and
misaddressed datagrams. -/
theorem test_host_link :
    addressed.alive = true ∧ addressed.admits frame = true ∧ addressed.admits ⟨9217, true, none⟩ = false ∧
    addressed.admits ⟨64, true, some 1⟩ = false ∧ (⟨true, 1, 2, 3⟩ : ArpMsg).targetIp = addressed.nv.net.addr4 ∧
    addressed.nv.net.v4en = true ∧ addressed.host.dadFailed = false ∧ v4Mapped (0xFFFF * 2 ^ 32 + 3) = true ∧
    addressed.own4 ((0xFFFF * 2 ^ 32 + 3 : BitVec 128).setWidth 32) = true ∧ addressed.host.link ≠ 2 ∧
    ({ addressed with host := { addressed.host with link := 2 } } : State).host.link = 2 ∧
    beAt (List.replicate 32 (0 : Byte)) 0 4 ≠ 0x504C5448 ∧ beAt (toBe 4 0x504C5448 ++ toBe 2 0 ++ toBe 2 3 ++ toBe 24 0) 6 2 % 4 ≠ 0 := by
  decide +kernel

/-- TheHostLink: the two IPv6 addresses. -/
theorem test_own_addresses :
    addressed.own6 linkLocal = true ∧ addressed.own6 addressed.nv.net.addr6 = true ∧ addressed.nv.net.addr6 ≠ linkLocal := by
  refine ⟨by simp [State.own6], ?_, ?_⟩
  · show (_ || (true && !false && _)) = true
    simp
  · show linkLocal ^^^ 1 ≠ linkLocal
    intro h
    have := congrArg (linkLocal ^^^ ·) h
    simp at this

/-- A queue pair of this kind with a Send ring of two slots of 64 bytes at 0x10000. -/
def qpOf (kind : Nat) : Qp :=
  { qpn := 2, kind := kind, slot := .a, remoteQpn := 4, remotePsn := 16777215, remoteGid := 6, localPsn := 0, rkey := 8
    recvBase := 0x10000, recvSlots := 2, slotBytes := 64, recvStation := 0, recvToken := 63, sends := 3 }

/-- A request on it that carries this PSN, for this address. -/
def rdma (psn addr : Nat) : RdmaReq :=
  { qpn := 2, rkey := 8, srcGid := 6, srcQpn := 4, psn := psn, addr := addr, inSubset := true, ce := false }

/-- The fixture with its image and that queue pair. -/
def paired (q : Qp) (f : Ctx → Ctx := id) : State :=
  { (caravanState id).modCtx 0 f with host := { powered.host with qps := [q] } }

/-- HostReadsAndWrites: the store, the image while it is open and after, physical addresses that are and are not there. -/
theorem test_host_access :
    (let s := paired (qpOf 1)
     let k := s.ctx 0
     s.accepted (rdma 16777215 0x1FFF8) (qpOf 1) 8 = true ∧ k.resident = true ∧ k.hostStore true 0x1FFF8 8 = true ∧
      k.hostStore true 0x2FFF8 8 = false ∧ k.hostStore false 0x1FFF8 8 = true ∧ k.hostStore false 0x2FFF8 8 = false ∧
      s.accepted (rdma 16777215 imageWindow) (qpOf 1) 4096 = true ∧ s.imageOf 0 = some imageOf_ ∧
      s.holdsImage 0 imageOf_ 0 4096 = true ∧ s.holdsImage 0 imageOf_ 0 4097 = false ∧
      imageWindow / 4096 = (imageWindow + 4096 - 1) / 4096) ∧
    (imageOf_.poisoned 0 4096 = false ∧ { imageOf_ with poison := [0] }.poisoned 0 4096 = true) ∧
    (let s := { paired (qpOf 1) with images := [{ imageOf_ with open_ := true }] }
     s.imageOf 0 = some { imageOf_ with open_ := true }) ∧
    (let s := paired (qpOf 1) fun k => { k with resident := false }
     (s.ctx 0).resident = false) ∧
    (let s := paired (qpOf 0)
     s.accepted (rdma 16777215 0) (qpOf 0) 4096 = true ∧ s.splitAccess (1023 * 2 ^ 23 + 0x7EFFF8) 8 = true ∧
      s.splitAccess (2 ^ 33 - 8) 8 = false) := by
  decide +kernel

/-- HostReadsAndWrites: a Send into slot 1 of the ring, one that is too long, one for a context that is away, a repeat, an errored
queue pair. -/
theorem test_host_send :
    (let s := paired (qpOf 1)
     let k := s.ctx 0
     s.accepted { rdma 16777215 0 with rkey := (qpOf 1).rkey } (qpOf 1) 64 = true ∧
      (s.host.qps.find? fun x => x.qpn == 2) = some (qpOf 1) ∧ (qpOf 1).recvSlots ≠ 0 ∧ (qpOf 1).slotBytes < 65 ∧
      (k.region (0x10000 + 3 % 2 * 64) 64).any (fun r => r.kind == 3) = true ∧ s.counting 0 = true ∧ 0 < s.stnCount 0 ∧
      s.token 0 0 63 < 65535 ∧ s.repeats (rdma 16777214 0) (qpOf 1) = true) ∧
    (let q := { qpOf 1 with error := true }
     let s := paired q
     s.alive = true ∧ s.hearsRoce (rdma 0 0) = true ∧ (rdma 0 0).service = .rc ∧
      (s.host.qps.find? fun x => x.qpn == 2 && x.remoteGid == 6 && x.remoteQpn == 4) = some q ∧ q.error = true) ∧
    (∀ q ∈ [{ qpOf 1 with recvSlots := 0 }, qpOf 0],
      (paired q).accepted { rdma 16777215 0 with rkey := q.rkey } q 64 = true) := by decide +kernel

/-- The parameters of QP_CREATE. -/
def qpParams (kind slots : Nat) : Bytes :=
  toBe 1 kind ++ toBe 1 0 ++ toBe 2 0 ++ toBe 4 4 ++ toBe 4 5 ++ toBe 16 6 ++
    (if kind = 1 then toBe 8 0x10000 ++ toBe 4 slots ++ toBe 4 64 ++ toBe 2 0 ++ toBe 1 63 ++ toBe 1 0 else toBe 20 0)

/-- QueuePairsAndRequester: QP_CREATE of each kind, kind 1 without a ring and with the longest at its place; QP_DESTROY. -/
theorem test_qp_create :
    (let s := hosted { powered with gate := { powered.gate with mode := 1 } }
     ∀ x ∈ [(0, 0), (2, 0)], let p := cmdPkt 0x30 (qpParams x.1 x.2)
      s.takes p p .a = true ∧ (qpParams x.1 x.2).length = 48 ∧ beAt (qpParams x.1 x.2) 0 1 = x.1 ∧
      beAt (qpParams x.1 x.2) 1 1 = b2n (v4Mapped (BitVec.ofNat 128 (beAt (qpParams x.1 x.2) 12 16))) ∧
      (∀ z ∈ [(2, 2), (4, 1), (8, 1), (47, 1), (28, 8), (36, 4), (40, 4), (44, 2), (46, 1)], zeroAt (qpParams x.1 x.2) z.1 z.2 = true) ∧
      s.mode = 1 ∧ s.bring.zeroPending = false ∧ s.poolFull x.1 0 = false) ∧
    (let s := hosted powered
     ∀ x ∈ [(1, 0), (1, 1024)], let p := cmdPkt 0x30 (qpParams x.1 x.2) 0
      s.takes p p .a = true ∧ (qpParams x.1 x.2).length = 48 ∧ beAt (qpParams x.1 x.2) 0 1 = 1 ∧
      (∀ z ∈ [(2, 2), (4, 1), (8, 1), (47, 1)], zeroAt (qpParams x.1 x.2) z.1 z.2 = true) ∧
      s.ctxOfHandle 0 = some 0 ∧ (s.ctx 0).state ≠ .tearingDown ∧ beAt (qpParams x.1 x.2) 46 1 ≤ 63 ∧
      (beAt (qpParams x.1 x.2) 36 4 = 0 ∨ (beAt (qpParams x.1 x.2) 44 2 < s.stnCount 0 ∧
        (s.ctx 0).ringOk ((s.ctx 0).itin.regions.length + 1) (beAt (qpParams x.1 x.2) 28 8) (beAt (qpParams x.1 x.2) 36 4)
          (beAt (qpParams x.1 x.2) 40 4) = true))) ∧
    (let s := hosted (paired (qpOf 2))
     let p := cmdPkt 0x31 (toBe 4 2 ++ toBe 4 0)
     s.takes p p .a = true ∧ ∃ x ∈ s.host.qps, x.qpn = beAt (toBe 4 2 ++ toBe 4 0) 0 4) ∧
    ({ powered with host := { powered.host with qps := List.replicate 32 (qpOf 2) } } : State).poolFull 2 0 = true := by
  refine ⟨?_, ?_, ⟨cmd_ok _ _ _ _ (by decide +kernel), by decide +kernel⟩, by decide +kernel⟩
  · intro s x h
    simp only [List.mem_cons, List.not_mem_nil, or_false] at h
    rcases h with rfl | rfl <;> exact ⟨cmd_ok _ _ _ _ (by decide +kernel), by decide +kernel⟩
  · intro s x h
    simp only [List.mem_cons, List.not_mem_nil, or_false] at h
    rcases h with rfl | rfl <;> exact ⟨cmd_ok _ _ _ _ (by decide +kernel), by decide +kernel⟩

/-- QueuePairsAndRequester: a CNP 50 us after the last halving, a recovery 55 us on, a fetch whose answer comes or does not, a page of
a stream taken up. -/
theorem test_requester :
    (let q := { qpOf 2 with halvedAt := some 0, rate := 1500000000, retries := 7 }
     let o : Owed := ⟨.a, barePkt 0x40 0 0xFFFF []⟩
     let s := { powered with host := { powered.host with qps := [q], fetches := [(2, o, 0, 3)] }, now := 67108864 }
     q ∈ s.host.qps ∧ s.alive = true ∧ q.raisedAt + 55000 ≤ s.now ∧ q.rate < 1600000000 ∧ (2, o, 0, [0, 0, (0 : Byte)].length) ∈ s.host.fetches ∧
      (∀ f ∈ s.host.fetches, f.1 = 2 → f = (2, o, 0, 3)) ∧
      (s.host.qps.find? fun x => x.qpn == 2) = some q ∧ (∀ h, q.cnpSentAt = some h → h + 50000 ≤ s.now) ∧
      (s.host.qps.find? fun x => x.qpn == 2 && x.kind == 2) = some q ∧ q.error = false ∧ q.reqSentAt + 67108864 ≤ s.now ∧ 7 ≤ q.retries) ∧
    (let q := { qpOf 2 with retries := 6, rnrs := 7, cnpSentAt := some 0 }
     let o : Owed := ⟨.a, barePkt 0x40 1 0xFFFF []⟩
     let s := hosted powered
     let s := { s with host := { s.host with qps := [q], fetches := [(2, o, 0, 3)] }, now := 50000 }
     (s.host.qps.find? fun x => x.qpn == 2 && x.kind == 2) = some q ∧ q.retries < 7 ∧ 7 ≤ q.rnrs ∧ q.error = false ∧
      (2, o, 0, 3) ∈ s.host.fetches ∧ s.alive = true ∧ (s.session o.slot).open_ = true ∧ 0 + 50000 ≤ s.now) ∧
    (let st : Stream := { set := 0, periodUs := 1, owner := .a, qpn := 2, rkey := 0, va := 0, bytes := 4096, nextAt := 0 }
     let s := { powered with tally := { powered.tally with stream := some st, ring := [(0, [1])] } }
     s.alive = true ∧ s.tally.stream = some st ∧ st.stopping = false ∧ s.tally.ring = (0, [1]) :: [] ∧ s.host.fetches = [] ∧ s.sec.fwRead = none) := by
  decide +kernel

/-- ContextCommands: each command on context 0 with no answer owed; on a handle that names none; behind a command that waits. -/
theorem test_context_commands (f : Ctx → Ctx) :
    ∀ x ∈ [((0x41 : BitVec 16), toBe 8 0), (0x42, []), (0x47, []), (0x44, toBe 24 0), (0x45, toBe 8 1), (0x46, [])], ∀ h ∈ [(0 : BitVec 16), 1],
      (hosted (powered f)).takes (cmdPkt x.1 x.2 h) (cmdPkt x.1 x.2 h) .a = true := by
  intro x hx h hh
  simp only [List.mem_cons, List.not_mem_nil, or_false] at hx hh
  rcases hx with rfl | rfl | rfl | rfl | rfl | rfl <;> rcases hh with rfl | rfl <;>
    exact cmd_taken (powered f) _ _ _ rfl (.inr (.inl rfl)) rfl (by decide) (by decide)

theorem test_context_states :
    (hosted powered).ctxOfHandle 0 = some 0 ∧ (hosted powered).ctxOfHandle 1 = none ∧ ((hosted powered).ctx 0).owed = [] ∧
    (∀ st ∈ [CtxState.loaded, .finished, .tearingDown, .running], let s := hosted (powered fun k => { k with state := st })
      s.ctxOfHandle 0 = some 0 ∧ (s.ctx 0).state = st) ∧
    (let s := hosted (powered fun k => { k with owed := [⟨.a, barePkt 0x42 0 0 []⟩] })
     (s.ctx 0).owed ≠ []) ∧
    (let s := hosted (powered fun k => { k with itin := { k.itin with stepPlanMode := true }, store := wrBytes [] 0x12100 (toLe 8 1) })
     let x := s.ctx 0
     x.itin.stepPlanMode = true ∧ x.itin.stepPlan = some planDecl ∧ x.planRecord planDecl 1 = some [] ∧ x.moe.planNext ≤ 1 ∧
      1 ≤ x.moe.planNext + 1 ∧ x.planRecord planDecl 3 = none ∧ beAt (toBe 24 0) 8 4 = x.itin.policy.detourCycles ∧
      beAt (toBe 24 0) 16 1 < 2 ∧ zeroAt (toBe 24 0) 17 7 = true ∧ beAt (toBe 8 0) 0 4 < 2 ∧ zeroAt (toBe 8 0) 4 4 = true) ∧
    (let s := hosted (powered fun k => { k with moe := { k.moe with planNext := 2 }, store := wrBytes [] 0x12100 (toLe 8 1) })
     (s.ctx 0).planRecord planDecl 1 ≠ none ∧ 1 < (s.ctx 0).moe.planNext) := by decide +kernel

/-- The parameters of CTX_SCHED. -/
def schedParams (op slice period length phase lead interval : Nat) : Bytes :=
  toBe 1 op ++ toBe 3 0 ++ toBe 4 slice ++ toBe 4 period ++ toBe 4 length ++ toBe 4 phase ++ toBe 4 lead ++ toBe 2 interval ++ toBe 6 0

/-- SchedulingCommands: each OP at the ends of its ranges, and OPs that there are not. -/
theorem test_sched_commands (f : Ctx → Ctx) :
    ∀ q ∈ [schedParams 1 100 0 0 0 0 0, schedParams 1 99 0 0 0 0 0, schedParams 1 1000001 0 0 0 0 0, schedParams 2 0 1000 100 0 200 0,
        schedParams 2 0 1000 99 0 200 0, schedParams 2 0 1000 100 0 199 0, schedParams 2 0 299 100 0 200 0, schedParams 3 0 0 0 0 0 0,
        schedParams 4 0 0 0 0 0 0, schedParams 5 0 0 0 0 0 0, schedParams 6 0 0 0 0 0 0, schedParams 6 0 0 0 0 0 65535,
        schedParams 0 0 0 0 0 0 0, schedParams 7 0 0 0 0 0 0],
      (hosted (powered f)).takes (cmdPkt 0x43 q 0) (cmdPkt 0x43 q 0) .a = true ∧ q.length = 32 ∧
        (∀ z ∈ schedZeros (beAt q 0 1), zeroAt q z.1 z.2 = true ∨ ¬ (1 ≤ beAt q 0 1 ∧ beAt q 0 1 ≤ 6)) ∧
        ∀ z ∈ [(1, 3), (26, 6)], zeroAt q z.1 z.2 = true := by
  intro q hq
  simp only [List.mem_cons, List.not_mem_nil, or_false] at hq
  rcases hq with rfl | rfl | rfl | rfl | rfl | rfl | rfl | rfl | rfl | rfl | rfl | rfl | rfl | rfl <;>
    exact ⟨cmd_taken (powered f) _ _ _ rfl (.inr (.inl rfl)) rfl (by decide) (by decide), by decide, by decide, by decide⟩

theorem test_sched_states :
    (let s := hosted powered
     s.ctxOfHandle 0 = some 0 ∧ (s.ctx 0).owed = [] ∧ (s.ctx 0).state ≠ .tearingDown ∧ (s.ctx 0).resident = true ∧
      s.fab.timeoutUs + 100 ≤ 200 ∧ 199 < s.fab.timeoutUs + 100 ∧ (s.ctx 0).isHeld = false ∧ (s.ctx 0).isParked = false ∧
      ((ctxsOfPart (partOfCtx 0)).filter (· != 0)).filterMap (fun d => (s.ctx d).resv) = []) ∧
    (∀ r ∈ [true, false], let s := hosted (powered fun k => { k with state := .parked, resident := r })
      (s.ctx 0).state = .parked ∧ (s.ctx 0).isParked = true ∧ (s.ctx 0).resident = r ∧ s.ctxOfHandle 0 = some 0) ∧
    (let s := hosted (powered fun k => { k with state := .swapped, under := some .parked })
     (s.ctx 0).state ≠ .parked ∧ (s.ctx 0).under = some .parked ∧ (s.ctx 0).isParked = true) ∧
    (let s := hosted (powered fun k => { k with state := .tearingDown })
     (s.ctx 0).state = .tearingDown ∧ s.ctxOfHandle 0 = some 0) := by decide +kernel

end Sys2Proof.Tests
end

