-- ==== Sys2Proof/Tests/Loads.lean ====
section
/-!
SUPPORT. An itinerary that passes every check, and witnesses for the statements about loading and tallies.
-/

set_option Elab.async false

namespace Sys2Proof.Tests

open Sys2Proof Sys2Proof.Machine

/-- An entry of the section table. -/
def secEntry (kind off len : Nat) : Bytes := toLe 2 kind ++ toLe 2 0 ++ toLe 4 0 ++ toLe 8 off ++ toLe 8 len

/-- The smallest itinerary: one station that finishes at once, one region, one bound; signed by the neutral key. -/
def itinFile : Bytes :=
  [0x4E, 0x47, 0x4B, 0x49] ++ toLe 2 1 ++ toLe 2 128 ++ toLe 8 560 ++ toLe 2 4 ++ toLe 2 0 ++ toLe 2 0x4200 ++ toLe 2 0 ++ toLe 2 0 ++
    toLe 1 1 ++ toLe 1 0 ++ toLe 2 1 ++ toLe 2 0 ++ toLe 4 0 ++ toLe 4 0 ++ toLe 8 4096 ++ toLe 8 0 ++ toLe 72 0 ++
    secEntry 1 256 32 ++ secEntry 2 320 32 ++ secEntry 3 384 32 ++ secEntry 4 448 16 ++ toLe 32 0 ++
    (toLe 2 0 ++ toLe 2 0 ++ toLe 4 0 ++ toLe 8 0 ++ toLe 4 1 ++ toLe 4 0 ++ toLe 8 0) ++ toLe 32 0 ++
    toLe 32 (encodeBundle (bun .finish)).toNat ++ toLe 32 0 ++
    (toLe 8 0 ++ toLe 8 4096 ++ toLe 1 1 ++ toLe 1 0 ++ toLe 2 0x8000 ++ toLe 12 0) ++ toLe 32 0 ++
    (toLe 2 1 ++ toLe 6 0 ++ toLe 8 1000) ++ neutralKey ++ neutralSig

/-- The package in unified service, partition 1 with the neutral key, and the file fetched for it. -/
def loading (file : Bytes) : State :=
  let s := { (hosted powered) with gate := { (hosted powered).gate with mode := 2, fw := 0 } }
  { (s.modStk 4 fun k => { k with state := 2, live := BitVec.allOnes 64 }).modPart 1 fun p =>
      { p with key := BitVec.ofNat 256 (2 ^ 248) } with
    host := { s.host with loads := [{ owed := ⟨.a, barePkt 0x40 0 0xFFFF []⟩, part := 1, file := file }] } }

theorem itin_signed : checkSigner itinFile ((loading itinFile).part 1).key = .ok () := by
  have k : ((loading itinFile).part 1).key = BitVec.ofNat 256 (2 ^ 248) := by decide +kernel
  have a : slice itinFile (itinFile.length - 96) 32 = neutralKey := by decide +kernel
  have b : itinFile.drop (itinFile.length - 64) = neutralSig := by decide +kernel
  have c : (BitVec.ofNat 256 (2 ^ 248) != 0 && beNat neutralKey == (BitVec.ofNat 256 (2 ^ 248)).toNat) = true := by decide +kernel
  simp only [checkSigner, k, a, b, c, neutral_verifies]
  rfl

/-- ItinerariesLoad: a file that passes, with a context number free, and one that fails the first check. -/
theorem test_itin_check :
    (loading itinFile).checkFile 1 itinFile = .ok () ∧ (loading itinFile).freeCtx 1 = some 16 ∧ (loading itinFile).alive = true ∧
    ((loading itinFile).host.loads.find? fun j => j.file == itinFile).isSome = true ∧ (loading itinFile).host.service = [] ∧
    ((loading itinFile).session .a).open_ = true ∧ ((loading itinFile).session .a).number = (barePkt 0x40 0 0xFFFF []).session ∧
    checkForm [] = .error (0x0110, 8) := by
  refine ⟨?_, by decide +kernel, by decide +kernel, by decide +kernel, by decide +kernel, by decide +kernel, by decide +kernel, rfl⟩
  have h : (match (loading itinFile).checkFile 1 itinFile with | .ok _ => true | .error _ => false) = true := by
    unfold State.checkFile
    rw [itin_signed]
    decide +kernel
  generalize (loading itinFile).checkFile 1 itinFile = x at h ⊢
  match x, h with
  | .ok _, _ => rfl

/-- ItinerariesLoad: ITIN_LOAD of the longest file, one byte more, an unknown queue pair, a partition that is not there. -/
theorem test_itin_load :
    (∀ x ∈ [(7, 2, 2 ^ 31), (7, 2, 2 ^ 31 + 1), (7, 3, 1), (8, 2, 1)],
      let q := toBe 1 x.1 ++ toBe 3 0 ++ toBe 4 x.2.1 ++ toBe 8 0 ++ toBe 4 0 ++ toBe 4 0 ++ toBe 8 x.2.2
      (hosted powered).takes (cmdPkt 0x40 q) (cmdPkt 0x40 q) .a = true ∧ q.length = 32 ∧ zeroAt q 1 3 = true ∧ zeroAt q 20 4 = true ∧
        beAt q 0 1 = x.1 ∧ beAt q 4 4 = x.2.1 ∧ beAt q 24 8 = x.2.2) ∧
    (let x : Qp := { qpn := 2, kind := 2, slot := .a, remoteQpn := 4, remotePsn := 0, remoteGid := 6, localPsn := 0, rkey := 8 }
     let s := { hosted powered with host := { powered.host with qps := [x] } }
     s.hasPart 7 = true ∧ s.hasPart 8 = false ∧ s.outbound .a 2 = some x ∧ s.outbound .a 3 = none ∧ s.host.service = [] ∧ x.error = false) := by
  refine ⟨?_, by decide +kernel⟩
  intro x h
  simp only [List.mem_cons, List.not_mem_nil, or_false] at h
  rcases h with rfl | rfl | rfl | rfl <;> exact ⟨cmd_ok _ _ _ _ (by decide +kernel), by decide +kernel⟩

/-- The parameters of TALLY_STREAM. -/
def streamParams (op set period n : Nat) : Bytes :=
  toBe 1 op ++ toBe 1 set ++ toBe 2 0 ++ toBe 4 period ++ toBe 4 (if op = 1 then 2 else 0) ++ toBe 4 0 ++ toBe 8 0 ++ toBe 8 n

/-- TallyRecords: a stream that starts at the shortest period, one that stops, a pulse, a snapshot collected with and without room,
a record written with another behind it. -/
theorem test_tallies :
    (∀ q ∈ [streamParams 1 1 10 (recordBytes 1), streamParams 1 31 1000000 (recordBytes 31), streamParams 2 0 0 0],
      (hosted powered).takes (cmdPkt 0xA0 q) (cmdPkt 0xA0 q) .a = true ∧ q.length = 32 ∧ zeroAt q 2 2 = true ∧
      (beAt q 0 1 = 2 → ∀ z ∈ [(1, 1), (4, 4), (8, 4), (12, 4), (16, 8), (24, 8)], zeroAt q z.1 z.2 = true) ∧
      (beAt q 0 1 = 1 → recordBytes (beAt q 1 1) ≤ beAt q 24 8 ∧ beAt q 8 4 = 2)) ∧
    (let x : Qp := { qpn := 2, kind := 2, slot := .a, remoteQpn := 4, remotePsn := 0, remoteGid := 6, localPsn := 0, rkey := 8 }
     let y : Stream := { set := 1, periodUs := 10, owner := .a, qpn := 2, rkey := 0, va := 0, bytes := 4096, nextAt := 0 }
     let s0 := { hosted powered with host := { powered.host with qps := [x] } }
     let s (r : List (Nat × Bytes)) := { s0 with tally := { s0.tally with stream := some y, ring := r, collect := some ⟨0, 0, 1, 0⟩ } }
     s0.outbound .a 2 = some x ∧ x.error = false ∧ s0.tally.stream = none ∧ s0.mode = 2 ∧ (s []).tally.stream = some y ∧
      y.stopping = false ∧ y.nextAt ≤ (s []).now ∧ (s []).tally.collect = some ⟨0, 0, 1, 0⟩ ∧
      ((s []).tally.ring.map (·.2.length)).sum + recordBytes y.set.toNat ≤ (s []).tallyRing ∧
      (s [(0, [1]), (1, [2])]).tally.ring = (0, [1]) :: [(1, [2])] ∧
      ({ s [] with tally := { (s []).tally with ringKib := 0 } } : State).tallyRing < recordBytes 31) := by
  refine ⟨?_, by decide +kernel⟩
  intro q h
  simp only [List.mem_cons, List.not_mem_nil, or_false] at h
  rcases h with rfl | rfl | rfl <;> exact ⟨cmd_ok _ _ _ _ (by decide +kernel), by decide +kernel⟩

/-- TallyRecords, TallyLedgerAndPowerRegisters (R455): a request in the cycle of a pulse joins it, a later one is missed. -/
theorem test_pulse_joins :
    let s : State := { powered with tally := { powered.tally with collect := some ⟨0, 5, 1, 0⟩ } }
    let at_ (n : Nat) : Tally := (State.pulse { s with now := n } 2).tally
    (at_ 5).collect = some ⟨0, 5, 3, 0⟩ ∧ (at_ 5).missed = 0 ∧ (at_ 6).missed = 1 ∧ (at_ 6).collect = some ⟨0, 5, 1, 0⟩ := by
  decide +kernel

end Sys2Proof.Tests
end

