-- ==== Sys2Proof/Tests/Packages.lean ====
section
/-!
SUPPORT. Witnesses for the statements about the commands of the package, of power and of trust.
-/

set_option Elab.async false

namespace Sys2Proof.Tests

open Sys2Proof Sys2Proof.Machine

/-- The parameters of PART_LAYOUT, PART_KEY, WIRING_PLAN, JOB_TEARDOWN, NET_CONFIG, SERVICE_START and FAULT_LOG_READ. -/
def layoutParams (n force : Nat) : Bytes := toBe 1 n ++ toBe 1 force ++ toBe 6 0
def keyParams (n : Nat) : Bytes := toBe 1 n ++ toBe 7 0 ++ toBe 32 9
def planParams (gen : Nat) : Bytes := toBe 4 gen ++ toBe 140 0
def jobParams (job reason : Nat) : Bytes := toBe 4 job ++ toBe 1 reason ++ toBe 3 0
def netParams : Bytes :=
  toBe 2 7 ++ toBe 2 0xFFF ++ toBe 2 1 ++ toBe 2 0 ++ toBe 16 5 ++ toBe 1 128 ++ toBe 1 32 ++ toBe 2 0 ++ toBe 4 6 ++ toBe 16 7 ++ toBe 4 8 ++ toBe 4 0
def faultParams (first n : Nat) : Bytes := toBe 4 first ++ toBe 2 n ++ toBe 2 0

/-- Commands of the package, each with its opcode. -/
def packageCmds : List (BitVec 16 × Bytes) :=
  [(0x50, layoutParams 1 1), (0x50, layoutParams 8 0), (0x51, keyParams 7), (0x51, keyParams 8), (0x60, planParams 1), (0x61, jobParams 77 1),
    (0x61, jobParams 78 0x10), (0xB0, netParams), (0xC0, toBe 1 1 ++ toBe 7 0), (0xC0, toBe 1 2 ++ toBe 7 0), (0xC0, toBe 1 3 ++ toBe 7 0),
    (0xD0, faultParams 0 60), (0xD0, faultParams 0 61), (0xD0, faultParams 1 1)]

/-- PackageCommands: each is taken in both services and on a package that halted. -/
theorem test_package_taken (m : BitVec 8) (hm : m = 1 ∨ m = 2 ∨ m = 3) :
    ∀ x ∈ packageCmds, (hosted { powered with gate := { powered.gate with mode := m } }).takes (cmdPkt x.1 x.2) (cmdPkt x.1 x.2) .a = true := by
  intro x h
  simp only [packageCmds, List.mem_cons, List.not_mem_nil, or_false] at h
  rcases h with rfl | rfl | rfl | rfl | rfl | rfl | rfl | rfl | rfl | rfl | rfl | rfl | rfl | rfl <;>
    exact cmd_taken _ _ _ _ rfl hm rfl (by decide) (by decide +kernel)

/-- PackageCommands: what the clauses ask of the parameters and of the state. -/
theorem test_package_states :
    (let b := layoutParams 8 0
     b.length = 8 ∧ beAt b 1 1 < 2 ∧ zeroAt b 2 6 = true ∧ beAt b 0 1 ∈ [1, 2, 4, 8] ∧ beAt b 1 1 = 0 ∧ beAt (layoutParams 1 1) 1 1 = 1) ∧
    (let s := hosted powered
     s.loadedCtxs ≠ [] ∧ s.hasPart (beAt (keyParams 7) 0 1) = true ∧ s.hasPart (beAt (keyParams 8) 0 1) = false ∧
      (keyParams 7).length = 40 ∧ zeroAt (keyParams 7) 1 7 = true ∧ planReserved (planParams 1) = none ∧ (planParams 1).length = 144 ∧
      s.planGen < (planOf (planParams 1)).gen ∧ (∀ c ∈ s.loadedCtxs, (s.ctx c).itin.job = 0) ∧ s.noLoads = true ∧
      s.host.service = [] ∧ s.ctxOfJob 77 = none ∧ ¬ s.planGen < (planOf (planParams 0)).gen) ∧
    (let s := { hosted powered with ctxs := [] }
     s.loadedCtxs = []) ∧
    (let s := hosted (powered fun k => { k with itin := { k.itin with job := 77 } })
     s.ctxOfJob 77 = some 0 ∧ (s.ctx 0).state ≠ .tearingDown ∧ (jobParams 77 0x10).length = 8 ∧ zeroAt (jobParams 77 0x10) 5 3 = true ∧
      beAt (jobParams 77 0x10) 4 1 = 0x10) ∧
    (let s := hosted powered
     let s := { s with host := { s.host with loads := [{ owed := ⟨.a, barePkt 0x40 0 0xFFFF []⟩, part := 1, file := [] }] } }
     s.noLoads = false ∧ s.host.service = []) ∧
    (netParams.length = 56 ∧ beAt netParams 0 2 < 8 ∧ (∀ z ∈ [(6, 2), (26, 2), (52, 4)], zeroAt netParams z.1 z.2 = true) ∧
      beAt netParams 2 2 < 0x1000 ∧ beAt netParams 4 2 ≠ 0 ∧ beAt netParams 4 2 ≠ 4791 ∧ beAt netParams 24 1 ≤ 128 ∧ beAt netParams 25 1 ≤ 32) ∧
    (let s := hosted powered
     let s := { s with nv := { s.nv with faultSeq := 1, faults := [{ kind := 9 }] } }
     (faultParams 0 60).length = 8 ∧ zeroAt (faultParams 0 60) 6 2 = true ∧ beAt (faultParams 0 60) 0 4 < s.nv.faultSeq ∧
      s.nv.faultSeq ≤ beAt (faultParams 1 1) 0 4 ∧ beAt (faultParams 0 60) 4 2 = 60) := by decide +kernel

/-- The parameters of ENVELOPE_GRANT, LEDGER_READ, ALARM_POLICY, ATTEST and FW_UPDATE. -/
def grantParams (w fb l : Nat) : Bytes := toBe 4 w ++ toBe 4 fb ++ toBe 4 l ++ toBe 4 0
def ledgerParams (first n saved : Nat) : Bytes := toBe 4 first ++ toBe 2 n ++ toBe 2 saved
def alarmParams (iso : Nat) : Bytes := toBe 1 iso ++ toBe 1 0 ++ toBe 2 1000 ++ toBe 2 10 ++ toBe 2 0 ++ [0, 1, 1, 1, 1, 0, 1, 1]
def attestParams (n : Nat) : Bytes := toBe 32 5 ++ toBe 1 n ++ toBe 7 0
def fwParams (n : Nat) : Bytes := toBe 4 2 ++ toBe 4 0 ++ toBe 8 0 ++ toBe 8 n ++ toBe 8 0

def powerCmds : List (BitVec 16 × Bytes) :=
  [(0x70, grantParams 2400 4000 10), (0x70, grantParams 4000 0 0), (0x70, grantParams 2399 0 0), (0x70, grantParams 2400 4001 0),
    (0x70, grantParams 2400 0 9), (0x71, ledgerParams 0 16 0), (0x71, ledgerParams 0 17 0), (0x71, ledgerParams 0 0 1), (0x80, alarmParams 1),
    (0x80, alarmParams 0), (0x80, alarmParams 2), (0x81, attestParams 0xFF), (0x81, attestParams 7), (0x81, attestParams 8),
    (0x90, fwParams 352), (0x90, fwParams 67108864)]

/-- PowerAndTrustCommands: each is taken. -/
theorem test_power_taken :
    ∀ x ∈ powerCmds, (hosted powered).takes (cmdPkt x.1 x.2) (cmdPkt x.1 x.2) .a = true := by
  intro x h
  simp only [powerCmds, List.mem_cons, List.not_mem_nil, or_false] at h
  rcases h with rfl | rfl | rfl | rfl | rfl | rfl | rfl | rfl | rfl | rfl | rfl | rfl | rfl | rfl | rfl | rfl <;>
    exact cmd_taken powered _ _ _ rfl (.inr (.inl rfl)) rfl (by decide) (by decide)

/-- PowerAndTrustCommands: what the clauses ask of the parameters and of the state. -/
theorem test_power_states :
    (let b := grantParams 2400 4000 10
     b.length = 16 ∧ zeroAt b 12 4 = true ∧ beAt b 0 4 = 2400 ∧ beAt b 4 4 = 4000 ∧ beAt b 8 4 = 10) ∧
    ((ledgerParams 0 16 0).length = 8 ∧ beAt (ledgerParams 0 0 1) 6 2 = 1 ∧ beAt (ledgerParams 0 16 0) 4 2 = 16) ∧
    (policyBad (alarmParams 1) = none ∧ policyBad (alarmParams 2) = some 0 ∧ (alarmParams 1).length = 16 ∧
      (∀ z ∈ [(1, 1), (6, 2), (8, 1)], zeroAt (alarmParams 1) z.1 z.2 = true) ∧ beAt (alarmParams 1) 0 1 = 1 ∧
      (hosted powered).nv.policy.isolation = true ∧ (hosted powered).loadedCtxs ≠ [] ∧
      ({ hosted powered with ctxs := [] } : State).loadedCtxs = [] ∧ policyBad (alarmParams 0) = none) ∧
    ((attestParams 7).length = 40 ∧ zeroAt (attestParams 7) 33 7 = true ∧ beAt (attestParams 0xFF) 32 1 = 0xFF ∧
      (hosted powered).hasPart 7 = true ∧ (hosted powered).hasPart 8 = false ∧ (hosted powered).sec.atPriv = none ∧ attested.sec.atPriv = some []) ∧
    (let x : Qp := { qpn := 2, kind := 2, slot := .a, remoteQpn := 4, remotePsn := 0, remoteGid := 6, localPsn := 0, rkey := 8 }
     let s := { hosted powered with host := { powered.host with qps := [x] } }
     (fwParams 352).length = 32 ∧ zeroAt (fwParams 352) 24 8 = true ∧ s.outbound .a (beAt (fwParams 352) 0 4) = some x ∧ x.error = false ∧
      352 ≤ beAt (fwParams 352) 16 8 ∧ beAt (fwParams 67108864) 16 8 ≤ 67108864 ∧ (List.replicate 352 (0 : Byte)).length = beAt (fwParams 352) 16 8) ∧
    (let s := { powered with gov := { powered.gov with leaseEnd := some 5 }, now := 5 }
     s.gov.leaseEnd = some 5 ∧ 5 ≤ s.now) := by decide +kernel

/-- PowerAndTrustCommands: a read of an image outstanding, answered, to be sent again and at its last retry. -/
theorem test_fw_read :
    ∀ n ∈ [6, 7],
      let q : Qp := { qpn := 2, kind := 2, slot := .a, remoteQpn := 4, remotePsn := 0, remoteGid := 6, localPsn := 0, rkey := 8, retries := n, rnrs := n }
      let r : FwRead := ⟨some ⟨.a, barePkt 0x90 0 0xFFFF []⟩, 2, 0, 0, 352⟩
      let s := { hosted powered with host := { powered.host with qps := [q] }, sec := { powered.sec with fwRead := some r }, now := 67108864 }
      s.alive = true ∧ s.sec.fwRead = some r ∧ (List.replicate 352 (0 : Byte)).length = r.len ∧ s.host.fetches = [] ∧
        (s.host.qps.find? fun x => x.qpn == 2 && x.kind == 2) = some q ∧ q.error = false ∧ r.qpn = q.qpn ∧ q.reqSentAt + 67108864 ≤ s.now ∧
        (s.session .a).open_ = true := by decide +kernel

/-- PowerAndTrustCommands: a drop at this time; an image whose write ends with the next microsecond, and one that goes on. -/
theorem test_power_timed :
    (let s := { hosted powered with gov := { powered.gov with droppedAt := some 0 } }
     s.gov.droppedAt = some s.now ∧ s.gov.dropWaits = []) ∧
    (let d := barePkt 6 0 0xFFFF []
     let s := { hosted powered with gov := { powered.gov with droppedAt := some 0, dropWaits := [d] } }
     s.gov.droppedAt = some s.now ∧ s.gov.dropWaits ≠ []) ∧
    ∀ n ∈ [1, 2],
      let o : Owed := ⟨.a, barePkt 0x90 0 0xFFFF []⟩
      let w : FwWrite := ⟨some o, [1], n⟩
      let s := { hosted powered with sec := { powered.sec with fwWrite := some w } }
      s.sec.fwWrite = some w ∧ s.bring.powered = true ∧ s.cmd.serial = [] ∧ (s.session o.slot).open_ = true ∧ (s.session o.slot).number = o.pkt.session := by
  decide +kernel

end Sys2Proof.Tests
end

