-- ==== Sys2Proof/Tests/Powers.lean ====
section
/-!
SUPPORT. Witnesses for the statements about temperature, supply, the ledger, alarms, bring-up and the resets.
-/

set_option Elab.async false

namespace Sys2Proof.Tests

open Sys2Proof Sys2Proof.Machine

/-- The fixture with one sensor's state. -/
def sensed (key : Nat) (v : Sens) (now : Nat) : State :=
  { hosted powered with gov := { powered.gov with sensors := [(key, v)] }, now := now }

/-- TemperatureAndRefresh: the last sensor of each kind below and above its control point, with a report 100 ms ago and later, held. -/
theorem test_temperature :
    ∀ x ∈ [(1023, (95 : Int)), (1024 + 31, 95), (1056 + 3, 95), (1060 + 3, 110)],
      (let s := sensed x.1 {} 0
       s.bring.powered = true ∧ (s.sens x.1).above = false ∧ (s.sens x.1).lastEvent = none) ∧
      (let s := sensed x.1 { temp := x.2, above := true, reported := true, lastEvent := some 0 } 99999999
       (s.sens x.1).above = true ∧ s.now < 0 + 100000000) ∧
      (let s := sensed x.1 { temp := x.2 - 5, held := true, reported := true, lastEvent := some 0 } 100000000
       (s.sens x.1).held = true ∧ (s.sens x.1).above ≠ (s.sens x.1).reported ∧ 0 + 100000000 ≤ s.now) ∧
      (let s := sensed x.1 { temp := x.2, held := true, above := true, reported := true, lastEvent := some 0 } 100000000
       (s.sens x.1).above = (s.sens x.1).reported) := by decide +kernel

theorem test_temperature_trips :
    powered.bring.powered = true ∧ (hosted powered).mode ≠ 4 ∧ ((hosted powered).session .a).open_ = true ∧ 0 ∈ (hosted powered).loadedCtxs ∧
      ((hosted powered).ctx 0).state ≠ .tearingDown ∧ 0 ∈ (withRail powered).upPorts ∧ powered.bring.diesOn = true := by decide +kernel

/-- SupplyAndLedger: each threshold, armed and not; a window that ends. -/
theorem test_supply :
    (let s := { hosted powered with bring := { powered.bring with reservoir := true } }
     s.bring.powered = true ∧ s.armed = true ∧ s.saving = false ∧ s.bring.removal = false ∧ s.gov.shed = false ∧ s.bring.diesOn = true ∧ s.gov.supplyOut = false ∧
      (hosted powered).armed = false ∧ s.gov.meterSince = none ∧ 0 ∈ s.loadedCtxs) ∧
    (let s := { powered with gov := { powered.gov with supplyOut := true, shed := true } }
     s.gov.supplyOut = true ∧ s.gov.shed = true) ∧
    (let s := { powered with gov := { powered.gov with meterSince := some 0 }, now := 60000000000 }
     s.gov.meterSince ≠ none ∧ 60000000000 * (s.gov.openWindow + 1) ≤ s.now) ∧
    (let s := { hosted powered with
       bring := { powered.bring with reservoir := true }, gov := { powered.gov with meterSince := some 0 } }
     s.armed = true ∧ s.gov.meterSince ≠ none ∧ 40000 ≤ 40000 ∧ ¬ 40000 ≤ 39999) := by decide +kernel

/-- SupplyAndLedger, AlarmsAndJtag, BringUpAndResets: an input known to be high, and a save that is under way. -/
theorem test_supply_sides :
    (let s := { hosted powered with bring := { powered.bring with reservoir := true, saveEnd := 1 }, gov := { powered.gov with supplyOut := true, inputMv := 60000 } }
     s.gov.supplyOut = true ∧ s.armed = true ∧ s.saving = true ∧ ¬ s.gov.inputMv < 40000 ∧ 59500 < s.gov.inputMv ∧ s.bring.prsntHigh = none) := by
  decide +kernel

/-- AlarmsAndJtag: the shipped levels, an authentication window that is due, a boundary trip with and without a requester. -/
theorem test_alarms :
    (∀ l ∈ (hosted powered).nv.policy.levels, l ≤ 2) ∧ (hosted powered).bring.powered = true ∧ (hosted powered).cmd.responsive = true ∧
    (hosted powered).saving = false ∧ (hosted powered).gov.supplyOut = false ∧ (⟨0, some 0⟩ : Requester).ctx.or none = some 0 ∧ partOfCtx 0 = 0 ∧
    (let s := { hosted powered with cmd := { (hosted powered).cmd with authFails := 1001 } }
     s.sec.authFired = false ∧ s.sec.authSince = s.second / max 1 s.nv.policy.authWindowS ∧
      s.nv.policy.authLimit < s.cmd.authFails - s.sec.authBase) ∧
    (powered.stn 0).ctx = some 0 ∧ (powered.part 0).holder = some 0 ∧ (powered.stn 1023).ctx = none ∧ (powered.part 1).holder = none ∧
    (powered.mode ≠ 0 ∧ powered.mode ≠ 3 ∧ powered.nv.policy.isolation = true) := by decide +kernel

/-- AlarmsAndJtag: before the firmware answers, during a ZEROIZE, during a contain that an alarm of erase level joins, beside a
higher alarm of the same cycle; instructions that isolation lets through. -/
theorem test_alarms_together :
    (let s := hosted powered
     let early := { s with cmd := { s.cmd with responsive := false } }
     let policy := { s.nv.policy with levels := [0, 0, 0, 0, 0, 0, 2, 1], isolation := false }
     let s := { s with nv := { s.nv with policy := policy } }
     let zero := { s with sec := { s.sec with zeroizing := true } }
     let within := { s with sec := { s.sec with containEnd := 1, containLevel := 1, contained := true } }
     let beside := { s with pending := [.alarmFire 6 ⟨0, none⟩ 0] }
     early.cmd.responsive = false ∧ (∀ l ∈ policy.levels, l ≤ 2) ∧ zero.sec.zeroizing = true ∧ within.now < within.sec.containEnd ∧
      policy.levels.getD 6 0 = 2 ∧ within.sec.containLevel < 2 ∧ within.cmd.responsive = true ∧ beside.outranked 1 = true ∧
      beside.outranked 2 = false ∧ s.nv.policy.isolation = false) ∧
    ({ powered with gate := { powered.gate with mode := 3 } } : State).mode = 3 := by decide +kernel

/-- AlarmsAndJtag: code whose digest is not the one computed at boot. -/
theorem test_bad_digest (img : Bytes) : Config.codeDigest img ^^^ 1 ≠ Config.codeDigest img := by
  intro h
  have := congrArg (Config.codeDigest img ^^^ ·) h
  simp at this

/-- BringUpAndResets: the boot ROM with two banks that fail, training, self-test, a warm reset, its wait for temperature, a removal. -/
theorem test_bring_up :
    (let s := { State.reset with
       bring := { State.reset.bring with pgood := true }, nv := { State.reset.nv with bankA := ⟨[], 1⟩, bankB := ⟨[], 1⟩ } }
     s.bring.powered = true ∧ s.bring.romDone = false ∧ s.bring.stopped = false ∧ s.bring.rstLow = none ∧ s.bring.diesOn = false ∧
      s.mode = 0 ∧ s.cmd.waiting = [] ∧ s.sec.deferred = [] ∧ fwCheck s.nv.bankA.image s.nv.rollback ≠ 0 ∧
      fwCheck s.nv.bankB.image s.nv.rollback ≠ 0) ∧
    (let s := { powered with bring := { powered.bring with trained := false }, gate := { powered.gate with mode := 0 } }
     s.bring.diesOn = true ∧ s.bring.trained = false ∧ s.mode = 0 ∧ s.bring.romDone = true) ∧
    (let s := { powered with bring := { powered.bring with selfTested := false, zeroPending := true }, gate := { powered.gate with mode := 0 } }
     s.bring.trained = true ∧ s.bring.selfTested = false ∧ s.mode = 0 ∧ s.nv.layout ∈ [1, 2, 4, 8] ∧ s.bring.zeroPending = true) ∧
    (let s := { powered with bring := { powered.bring with hot := true }, gate := { powered.gate with mode := 3 } }
     s.bring.hot = true ∧ s.mode = 3 ∧ s.sec.zeroizing = false) ∧
    (let s := { powered with bring := { powered.bring with removal := true, rstLow := some 5, prsntHigh := some 3, diesOn := false } }
     s.bring.removal = true ∧ s.bring.rstLow = some 5 ∧ s.mode ≠ 4) ∧
    (let s := { powered with bring := { powered.bring with removal := true, saveEnd := 1 } }
     s.bring.removal = true ∧ s.saving = true ∧ s.bring.rstLow = none) ∧
    (powered.bring.rstLow = none ∧ powered.bring.prsntHigh = none ∧ powered.bring.removal = false ∧ powered.saving = false) := by decide +kernel

/-- BringUpAndResets: self-test, the zeros and the reservoir in either order, dies powered or not; a package without power; a link. -/
theorem test_bring_up_orders :
    (∀ z ∈ [true, false], ∀ d ∈ [true, false],
      let s := { powered with
        bring := { powered.bring with selfTested := z, zeroPending := z, diesOn := d, reservoir := z }, gate := { powered.gate with mode := 0 } }
      s.bring.trained = true ∧ s.bring.selfTested = z ∧ s.mode = 0 ∧ s.bring.zeroPending = z ∧ s.bring.romDone = true ∧ s.bring.diesOn = d ∧
        s.bring.prsntHigh = none ∧ s.bring.reservoir = z ∧ s.bring.removal = false ∧ s.bring.powered = true) ∧
    ({ powered with bring := { powered.bring with powered := false } } : State).bring.powered = false ∧
    linkFar 0 1 = some 1 ∧ (powered.stn 0).linkFailed.getLsbD 1 = false := by decide +kernel

end Sys2Proof.Tests
end

