-- ==== Sys2Proof/Tests/Rails.lean ====
section
/-!
SUPPORT. Witnesses for the statements about drovers' units and the Brisor ports.
-/

set_option Elab.async false

namespace Sys2Proof.Tests

open Sys2Proof Sys2Proof.Machine

/-- A descriptor of station 0: READ of one unit from peer 1 into the scratch region, counter 63. -/
def descOf (issued : Nat) : FabDesc :=
  { id := 0, ctx := 0, station := 0, bundle := 0, op := 1, sub := 0, peer := some 1, token := 63, ntoken := 0, nindex := 0
    remote := 0x10000, local_ := 0x10000, count := 1, ncount := 0, issued := issued }

/-- Its message, as yet without a CRC. -/
def plainMsg : Msg := ⟨0, 1, 0, 77, 0, 0, 0x10000, 0, [], 0, 0⟩

/-- A unit of that descriptor in entry `e` of drover 0. -/
def unitOf_ (e : Nat) : DUnit :=
  { kind := .desc 0 0, ctx := 0, station := 0, entry := e, gen := 0, mtype := 1, msg := plainMsg, peer := 1, rail := 0
    deadline := 100000, lastSent := 0 }

/-- The fixture on rail 0 with this drover 0. -/
def droving (v : Drover) (now : Nat := 0) : State :=
  let s := routing {}
  { s with fab := { s.fab with drovers := [(0, v)] }, now := now }

/-- DroverUnits: a descriptor starts, its response, a unit sent again, one that times out, one held for a rail. -/
theorem test_drover_units :
    (let s := droving { queue := [descOf 0] }
     s.portsRun = true ∧ (s.drover 0).queue = descOf 0 :: [] ∧ (s.drover 0).active = [] ∧ (s.drover 0).units = [] ∧
      (s.ctx 0).peerId 1 = 1 ∧ s.hasDeparted 1 = false ∧ s.holding 1 = false ∧
      s.chooseRail 1 (s.unitMsg (descOf 0) 0 1).remote = some 0) ∧
    (let u := { unitOf_ 0 with retry := true, backoffUs := 16 }
     let s := droving { units := [u] } 16000
     (s.drover 0).units[0]? = some u ∧ u.lastSent + us u.backoffUs ≤ s.now ∧ s.chooseRail 1 u.msg.remote = some 0) ∧
    (let s := droving { units := [unitOf_ 0] } 100000
     (s.drover 0).units[0]? = some (unitOf_ 0) ∧ (unitOf_ 0).deadline ≤ s.now ∧ (s.ctx 0).state ≠ .free ∧
      (s.ctx 0).state ≠ .tearingDown ∧ (s.ctx 0).isHeld = false) ∧
    (let u := { unitOf_ 256 with held := true }
     let s := droving { units := [u] }
     s.unsettled 1 = false ∧ s.hasDeparted 1 = false ∧ (s.drover 0).units = [u] ∧ (s.drover 0).active = [] ∧
      s.fab.drovers.all (fun e => e.1 == 0) = true ∧ s.chooseRail 1 u.msg.remote = some 0) := by decide +kernel

/-- DroverUnits: a unit that RETRY put off behind another of its granule. -/
theorem test_retry_behind :
    let u := { unitOf_ 0 with retry := true }
    let v := { unitOf_ 1 with retry := true }
    let s := droving { units := [u, v] } 16000
    (s.drover 0).units[1]? = some v ∧ ∃ x ∈ (s.drover 0).units.takeWhile (· != v), x.unsent = true ∧ x.ordered v = true := by
  decide +kernel

/-- The unit of entry 255 as it was sent, and a response to it of this status and data. -/
def sentUnit : DUnit := { unitOf_ 255 with msg := { plainMsg with tag := unitTag 0 255 0 0 } }
def answer (st : BitVec 16) (data : Bytes) : Msg := ⟨0, 1, 0, 77, unitTag 0 255 0 0, st, 0, 0, data, 0, 0⟩

/-- DroverUnits: the response to a READ. -/
theorem test_drover_response :
    let s := droving { active := [descOf 1], units := [sentUnit] }
    (s.portUp 0 && s.arrives (answer 0 (toLe 64 3)) && (answer 0 (toLe 64 3)).fits 0x10) = true ∧ s.unitOf (answer 0 (toLe 64 3)) = (0, some sentUnit) ∧
      s.counting 0 = true ∧ 0 < s.stnCount 0 ∧ s.token 0 0 63 < 65535 := by decide +kernel

/-- DroverUnits: an answer of any status to the one unit of a descriptor (RETRY, JOB_ABSENT and POISON among them), and one that no
unit waits for. -/
theorem test_drover_answers (st : BitVec 16) :
    let s := droving { active := [descOf 1], units := [sentUnit] }
    (s.portUp 0 && s.arrives (answer st [])) = true ∧ (answer st []).fits 0x10 = true ∧ s.unitOf (answer st []) = (0, some sentUnit) ∧
      (answer st []).status = st ∧ (descOf 1).issued = (descOf 1).count ∧ sentUnit.ctx = (descOf 1).ctx ∧
      (s.ctx 0).state = .running ∧ (s.ctx 0).under = none ∧
      s.unitOf { answer st [] with tag := unitTag 0 254 0 0 } = (0, none) := by
  have u : (droving { active := [descOf 1], units := [sentUnit] }).unitOf (answer 0 []) = (0, some sentUnit) := by decide +kernel
  have n : (droving { active := [descOf 1], units := [sentUnit] }).unitOf { answer 0 [] with tag := unitTag 0 254 0 0 } = (0, none) := by
    decide +kernel
  have a : (let s := droving { active := [descOf 1], units := [sentUnit] }; s.portUp 0 && s.arrives (answer 0 [])) = true := by
    decide +kernel
  exact ⟨a, rfl, u, rfl, rfl, rfl, by decide +kernel, by decide +kernel, n⟩

/-- DroverUnits: a hold that has ended, and a quarantine that has. -/
theorem test_holds_end :
    (let s := { routing {} fun k => { k with state := .held, hold := some (1, 1, 5) } with now := 5 }
     s.portsRun = true ∧ (s.ctx 0).hold = some (1, 1, 5) ∧ (s.ctx 0).state = .held) ∧
    (let s := routing {}
     let s := { s with fab := { s.fab with quarantine := [(9, 5)] }, now := 5 }
     (∀ x ∈ s.fab.quarantine, x.1 = 9 → x.2 ≤ s.now) ∧ 9 ∉ s.fab.dead ∧ s.jobBarred 9 = true) := by decide +kernel

/-- The fixture with port 7 changed by `f`. -/
def port7 (f : FabPort → FabPort) (now : Nat := 0) : State :=
  let s := powered
  { s with fab := { s.fab with ports := [(7, f {})] }, now := now }

/-- FabricPorts: training step by step. -/
theorem test_training :
    (let s (n : Nat) := port7 (fun p => { p with step := n }) 0
     (∀ n < 7, (s n).portsRun = true ∧ ((s n).port 7).disable = false ∧ ((s n).port 7).step = n)) ∧
    (let far : Ident := ⟨1, 2, 3, 4, 5, 1⟩
     Ident.ofBytes far.record = far ∧
     ∀ en : Bool, ∀ want ∈ [far, ⟨9, 2, 3, 4, 5, 1⟩],
      let s := port7 fun p => { p with step := 3 }
      let plan : Plan := ⟨1, 0, 0, 0, 0, List.replicate 8 (want, en)⟩
      let s := { s with fab := { s.fab with plan := some plan } }
      (s.port 7).step = 3 ∧ s.fab.plan = some plan ∧ plan.ports[7]? = some (want, en) ∧ (s.port 7).forceUp = false) ∧
    (∀ x ∈ [(1, ms 200), (2, ms 1), (3, ms 1), (5, us 10)],
      let s := port7 (fun p => { p with step := x.1 }) (x.2 + 1)
      (s.port 7).step = x.1 ∧ (s.port 7).stepSince + x.2 < s.now) ∧
    (let s := port7 id 1000000000
     (s.port 7).step = 0 ∧ (s.port 7).stepSince + 1000000000 ≤ s.now) := by decide +kernel

/-- A flit of SEQ `q` and FTYPE `t` that acknowledges nothing and returns 7 credits of class 3. -/
def flitAs (q t : Nat) : Flit := ⟨flitOf (toBe 8 (t * 2 ^ 60 + q * 2 ^ 46 + 3 * 2 ^ 31 + 7 * 2 ^ 23)) (List.replicate 244 0), 0, 0⟩

/-- FabricPorts: a good flit of each type, and one that FEC could not correct. -/
theorem test_flits (q t : Nat) : (flitAs q t).good = true ∧ { flitAs q t with uncorrected := 1 }.good = false :=
  ⟨Flit.good_flitOf _ _ _ (by simp), by simp [Flit.good]⟩
theorem test_flit_fields :
    (∀ t ∈ [0, 1, 3], (flitAs 0 t).ftype = t) ∧ (flitAs 4095 1).seq = 4095 ∧ (flitAs 4095 1).creditClass = 3 ∧
      (flitAs 4095 1).credits = 7 ∧ (flitAs 4095 1).nak = false := by
  have f (q t lo w : Nat) : (flitAs q t).field lo w =
      bitsOf (beNat (toBe 8 (t * 2 ^ 60 + q * 2 ^ 46 + 3 * 2 ^ 31 + 7 * 2 ^ 23))) lo w := by
    simp only [Flit.field, beAt, flitAs, flitOf, List.append_assoc]
    rw [slice_zero _ _ _ (by simp)]
  simp only [Flit.ftype, Flit.seq, Flit.creditClass, Flit.credits, Flit.nak, f]
  decide +kernel

/-- FabricPorts: a flit in order and one out of order, a lane, the other half, a flit replayed 16 times, a far end that is silent. -/
theorem test_ports_up :
    (let s := port7 fun p => { p with state := 5, step := 6, lanes := 0xFF, width := 8, rxNext := 4095 }
     s.portsRun = true ∧ (s.port 7).state = 5 ∧ (s.port 7).egress = [] ∧ (s.port 7).txStream = [[], [], [], []] ∧
      (s.port 7).rxNext = 4095 ∧ (s.port 7).failed.getLsbD 7 = false ∧ (s.port 7).disable = false ∧ 2 ≤ (s.port 7).step ∧
      carryLanes ((s.port 7).failed ||| 128) ≠ 0 ∧ carryLanes ((s.port 7).failed ||| 128) ≠ (s.port 7).lanes) ∧
    (let s := port7 fun p => { p with state := 5, step := 6, failed := 0x88, unacked := [⟨1, 0, [], 16⟩] }
     (s.port 7).bothHalves = true ∧ ∃ f ∈ (s.port 7).unacked, 16 ≤ f.replays) ∧
    (let s := port7 (fun p => { p with state := 5, step := 6 }) 100000
     (s.port 7).state = 5 ∧ (s.port 7).lastRx + 100000 ≤ s.now) := by decide +kernel

/-- FabricPorts, UnitsAndPortsRegisters: a disabled port with one flit unacknowledged, whose acknowledgement ends the drain; a port
that DISABLE drains, and one that is enabled again meanwhile. -/
theorem test_port_drains :
    (let s := port7 fun p => { p with state := 5, step := 6, disable := true, draining := some 0, unacked := [⟨9, 0, [], 0⟩] }
     s.portsRun = true ∧ (s.port 7).state = 5 ∧ (s.port 7).draining ≠ none ∧ dropAcked (s.port 7).unacked 9 = [] ∧
      ((s.portDrained 7).port 7).state = 7) ∧
    (let s := port7 fun p => { p with state := 5, step := 6, unacked := [⟨9, 0, [], 0⟩] }
     let t := s.portDisable 7 true
     (t.port 7).draining = some 0 ∧ (t.port 7).state = 5 ∧ t.portUp 7 = false ∧
      (({ t with now := us 100 }).port 7).drainEnds (us 100) = true ∧
      ((t.portDisable 7 false).port 7).draining = some 0 ∧ (((t.portDisable 7 false).portDrained 7).port 7).step = 1) := by
  decide +kernel

/-- QueueAndTime: a command behind an image that is read, behind one that is written, and at its turn. -/
theorem test_serial_waits :
    let p : Pkt := { srcAddr := 7, srcPort := 9, version := 1, slot := 1, flags := 0, opcode := 0x51, context := 0xFFFF, sequence := 1, length := 0,
                     session := 1, rsv := 0, params := [], trailer := [] }
    let s (r : Option FwRead) (w : Option FwWrite) : State := { port7 id with
      cmd := { State.reset.cmd with serial := [(.a, p)], a := { open_ := true, number := 1 } }, sec := { State.reset.sec with fwRead := r, fwWrite := w } }
    (s (some ⟨none, 2, 0, 0, 352⟩) none).sec.fwRead ≠ none ∧ (s none (some ⟨none, [1], 2⟩)).sec.fwWrite = some ⟨none, [1], 2⟩ ∧
      (s none none).cmd.serial = [(.a, p)] ∧ ((s none none).session .a).open_ = true ∧ ((s none none).session .a).number = p.session ∧
      (s none none).bring.powered = true := by decide +kernel

/-- QueueAndTime: the tick at which the drain's 100 us have passed ends it, and the one before does not. -/
theorem test_drain_bound :
    let q (n : Nat) := port7 (fun p => { p with state := 5, disable := true, draining := some 0, unacked := [⟨9, 0, [], 0⟩] }) n
    let s (n : Nat) : State := { q n with bring := { (q n).bring with diesOn := false } }
    (s 99000).pending = [] ∧ (s 99000).bring.powered = true ∧ ((s 99000).tick.port 7).state = 7 ∧
      ((s 98000).tick.port 7).state = 5 := by decide +kernel

end Sys2Proof.Tests
end

