-- ==== Sys2Proof/Tests/Scheduling.lean ====
section
/-!
SUPPORT. Witnesses for the statements about taking the stations, pre-emption, swapping, the watchdog and teardown.
-/

set_option Elab.async false

namespace Sys2Proof.Tests

open Sys2Proof Sys2Proof.Machine

/-- The fixture at this time with its context changed, the stations held by it or free. -/
def sched (held : Bool) (now : Nat) (f : Ctx → Ctx) : State :=
  { (powered f).modPart 0 fun p => { p with holder := if held then some 0 else none } with now := now }

/-- TakingTheStations: the only ready context, with and without a hamper, at the start of its window and after. -/
theorem test_take_stations :
    ∀ h ∈ [true, false], ∀ w ∈ [none, some 5, some 4],
      let s := sched false 5 fun k => { k with state := .ready, hamper := h, window := w, shelf := [(0, 65535)] }
      0 < s.sched.count ∧ (s.part 0).holder = none ∧ 0 ∈ ctxsOfPart 0 ∧ (s.ctx 0).state = .ready ∧ (s.ctx 0).block = none ∧
        ((ctxsOfPart 0).all fun d => d == 0 || (s.ctx d).state != .ready) = true ∧ (s.ctx 0).window = w ∧ (s.stnsOfCtx 0).Nodup ∧
        (s.ctx 0).hamper = h ∧ (s.ctx 0).log = [] ∧ mwf 0 (s.ctx 0).shelf = true ∧ (s.ctx 0).shelf = [(0, 65535)] ∧
        (s.ctx 0).itin.streams.length = 1 := by decide +kernel

/-- Another context of the partition is ready, at a reserved window or without one. -/
def withReady (s : State) (w : Option Nat := none) : State :=
  s.modCtx 1 fun _ => { ctxOf bun with state := .ready, handle := 1, window := w }

/-- TakingTheStations: one that is complete, and the end of a slice switch in which a window of another context fell due. -/
theorem test_take_after_switch :
    (let s := sched false 5 fun k => { k with state := .ready, complete := true }
     (s.part 0).holder = none ∧ (s.ctx 0).state = .ready ∧ (s.ctx 0).complete = true) ∧
    (let s := (withReady (sched false 5 fun k => { k with state := .ready }) (some 5)).modPart 0 fun p => { p with switchFirst := true }
     (s.part 0).switchFirst = true ∧ (s.ctx 0).block = none ∧ (s.ctx 0).waitSince = (s.ctx 1).waitSince ∧ 1 ∈ ctxsOfPart 0 ∧
      (s.ctx 1).state = .ready ∧ (s.ctx 1).window ≠ none ∧ (s.ctx 0).complete = false ∧ (s.ctx 0).window = none) := by decide +kernel

/-- A sealed page of the fixture's partition, and what a context's walkers keep of it: a filled staging frame. -/
def pageOf_ (crcs : List (BitVec 32)) : Page := { part := 0, spn := 5, data := [], crcs := crcs }
def stagedCtx (k : Ctx) : Ctx := { k with walk := { k.walk with staged := [(0, 0, 5)], dropped := true } }

/-- PreemptionAndRestore, Swapping: a context whose upper copies a swap-out drops, or has dropped. -/
theorem test_upper_copies :
    ∀ st ∈ [CtxState.restoring, .swappingIn, .swappingOut],
      let s := { sched true 5 fun k => { stagedCtx k with state := st, under := some .parked, everResident := true } with pages := [pageOf_ []] }
      let k := s.ctx 0
      k.state = st ∧ k.walk.dropped = true ∧ k.upperCopies = [(0x30000, 5)] ∧ s.page 0 5 = some (pageOf_ []) ∧ (pageOf_ []).poison = false ∧
        k.under = some .parked ∧ k.hamper = false := by decide +kernel
theorem test_page_checks : (pageOf_ (pageCrcs [])).checks 0 65536 = true := by
  have h : granules 0 65536 = List.range 16 := by decide
  simp +contextual [Page.checks, pageOf_, pageCrcs, h]

/-- PreemptionAndRestore: a window's lead while another holds the stations, asked to yield or not, or is saving. -/
theorem test_window_lead :
    ∀ st ∈ [CtxState.running, .saving], ∀ r0 ∈ [none, some 1],
      let r : Reservation := ⟨1000, 100, 50, 200, 0⟩
      let s := withReady (sched true 850000 fun k => { k with state := st })
      let s := (s.modCtx 1 fun k => { k with resv := some r }).modPart 0 fun p => { p with preSince := r0 }
      (s.part 0).holder = some 0 ∧ (s.part 0).preSince = r0 ∧ (s.ctx 0).state = st ∧ (s.ctx 1).resv = some r ∧ (s.ctx 1).window = none ∧ (s.ctx 1).state = .ready ∧
        r.phaseUs ≤ (s.now - r.since) / 1000 + r.leadUs := by decide +kernel

/-- PreemptionAndRestore: a slice that ends with and without another to run, a blocked holder, an expected end. -/
theorem test_slices :
    (let s := sched true 1000000 fun k => { k with sliceNow := 1000 }
     (s.part 0).holder = some 0 ∧ (s.ctx 0).state = .running ∧ (s.ctx 0).window = none ∧
      (s.ctx 0).sliceStart + 1000 * (s.ctx 0).sliceNow ≤ s.now ∧ (s.part 0).preSince = none ∧
      ((ctxsOfPart 0).all fun d => d == 0 || (s.ctx d).state != .ready) = true ∧
      ((withReady s).ctx 1).state = .ready ∧ ((withReady s).ctx 1).block = none ∧ 1 ∈ ctxsOfPart 0) ∧
    (let b := bun (m := .nop)
     let s := { (running { b with waitT := 63, waitN := 1 } (g := fun k => { k with blockSince := some 0, blockNow := 50 })) with now := 50000 }
     let s := s.modStn 0 fun t => { t with arch := { t.arch with producers := [(63, .brisor)] } }
     (s.part 0).holder = some 0 ∧ (s.ctx 0).state = .running ∧ (s.ctx 0).blockSince = some 0 ∧ 0 + 1000 * (s.ctx 0).blockNow ≤ s.now ∧
      s.blockTest 0 = true) ∧
    (let s := sched false 5 fun k => { k with state := .ready, blocked := some ⟨1, some 5⟩ }
     (s.ctx 0).state = .ready ∧ (s.ctx 0).blocked = some ⟨1, some 5⟩) := by decide +kernel

/-- PreemptionAndRestore: a holder asked to yield, one that has drained, one whose hamper is back, windows that open and end. -/
theorem test_preemption :
    (let s := (sched true 5 id).modPart 0 fun p => { p with preSince := some 4 }
     (s.part 0).holder = some 0 ∧ (s.ctx 0).state = .running ∧ (s.part 0).preSince = some 4 ∧ (s.ctx 0).heldSince = some 0) ∧
    (let s := (sched true 5 fun k => { k with state := .saving }).modPart 0 fun p => { p with preSince := some 4 }
     (s.ctx 0).state = .saving ∧ s.drained 0 = true ∧ (s.stnsOfCtx 0).Nodup ∧
      ∀ j ∈ s.stnsOfCtx 0, mwf 0 (s.arch j).tokens = true ∧ ∀ x ∈ (s.arch j).tokens, x.1 < 64) ∧
    (let s := sched true 5 fun k => { k with state := .restoring, window := some 5, shelf := [(63, 1)] }
     (s.ctx 0).state = .restoring ∧ (s.ctx 0).window = some 5 ∧ (s.ctx 0).log = [] ∧ mwf 0 (s.ctx 0).shelf = true ∧
      (s.ctx 0).saved = [] ∧ s.imageOf 0 = none ∧ s.againHere 0 = true) ∧
    (let r : Reservation := ⟨1000, 100, 50, 200, 0⟩
     let s := sched true 850000 fun k => { k with resv := some r }
     let past := (s.now - r.since) / 1000 + r.leadUs
     let start := r.since + 1000 * ((past - r.phaseUs) / r.periodUs * r.periodUs + r.phaseUs)
     (s.ctx 0).resv = some r ∧ (s.ctx 0).window = none ∧ 0 < r.periodUs ∧ r.phaseUs ≤ past ∧ start = 1050000 ∧
      s.now < start + 1000 * r.lengthUs) ∧
    (let r : Reservation := ⟨1000, 100, 50, 200, 0⟩
     let s := sched true 150000 fun k => { k with resv := some r, window := some 50000 }
     (s.ctx 0).resv = some r ∧ (s.ctx 0).window = some 50000 ∧ 50000 + 1000 * r.lengthUs ≤ s.now) := by decide +kernel

/-- A context of the partition that fills the slice of station 0. -/
def filler (b : Option Blocked) : Ctx :=
  { ctxOf bun with
    handle := 1, state := .ready, blocked := b
    itin := { itinOf bun with regions := [⟨0, 0x10000, 1, 0x8000⟩, ⟨0x10000, 0x7E0000, 3, 0x8000⟩] } }

/-- Swapping: a swapped context with room at once, and with room once another is away that is blocked or that it has waited for. -/
theorem test_swap_in :
    (let s := sched false 0 fun k => { k with state := .swapped, resident := false, started := true }
     s.candidate 0 = some 0 ∧ ((ctxsOfPart 0).all fun d => (s.ctx d).state != .swappingIn && (s.ctx d).state != .swappingOut &&
        !(s.ctx d).evict) = true ∧
      (∀ j ∈ s.stnsOfCtx 0, s.ctxSliceBytes 0 j ≤ s.sliceFree (fun d => (s.ctx d).occupies) j)) ∧
    (∀ b ∈ [none, some ⟨4, none⟩, some ⟨1, some 9⟩],
      let s := (sched false 5000000000 fun k => { k with state := .swapped, resident := false, started := true }).modCtx 1 fun _ => filler b
      s.candidate 0 = some 0 ∧ ¬ (∀ j ∈ s.stnsOfCtx 0, s.ctxSliceBytes 0 j ≤ s.sliceFree (fun d => (s.ctx d).occupies) j) ∧
      s.fitsWithout 0 (s.evictable 0) = true ∧ (s.ctx 1).block = b ∧ s.evictable 0 = [1] ∧
      (s.ctx 0).runnableSince + 1000000 * bitsOf (s.part 0).cfg.toNat 40 16 ≤ s.now) ∧
    (let s := sched false 5 fun k => { k with state := .swappingIn, resident := false }
     (s.ctx 0).state = .swappingIn ∧ s.imageOf 0 = none ∧ s.againHere 0 = true) ∧
    (let s := sched false 5 fun k => { k with state := .swappingOut }
     (s.ctx 0).state = .swappingOut) := by decide +kernel

/-- WatchdogAndTeardown: one nanosecond past the bound; a torn-down context that two commands wait for. -/
theorem test_watchdog :
    (let s := sched true 694445 fun k => { k with itin := { k.itin with bounds := [1000000] }, margin := 125 }
     let k := s.ctx 0
     k.state = .running ∧ k.breach = false ∧ s.stepArrived 0 = false ∧ k.heldSince = some 0 ∧
      k.margin * (k.itin.bounds.getD k.bound 0 + k.policy.boundExt) + 100 * (k.policy.detourCycles * (k.sum.detoured - k.policy.allow)) <
        180 * (k.stepRun + (s.now - 0) - k.extNs)) ∧
    (let o (op : BitVec 16) : Owed := ⟨.a, barePkt op 0 0 []⟩
     let td : Teardown := { reason := 2 }
     let s := hosted (sched false 5 fun k => { k with state := .tearingDown, teardown := some td, owed := [o 0x42, o 0x42, o 0x61, o 0x44] })
     (s.ctx 0).state = .tearingDown ∧ (s.ctx 0).teardown = some td ∧ (s.session .a).open_ = true ∧
      (s.session .a).number = (o 0x42).pkt.session ∧ s.faultRate < 256 ∧ (s.ctx 0).owed[2]? = some (o 0x61) ∧
      (o 0x61).pkt.opcode = 0x61 ∧ (o 0x44).pkt.opcode ≠ 0x42) := by decide +kernel

end Sys2Proof.Tests
end

