-- ==== Sys2Proof/Tests/Session.lean ====
section
/-!
SUPPORT. Witnesses for the statements about sessions, the baton, the hardware path and the registers.
-/

set_option Elab.async false

namespace Sys2Proof.Tests

open Sys2Proof Sys2Proof.Machine

/-- SessionsAndTheBaton: SESSION_OPEN and ENROL pass every check. -/
theorem test_opens (enrol : Bool) :
    let p := signedPkt 0x10 (openParams enrol)
    attested.opens p p .a (openReq p) = true ∧ (openReq p).enrol = enrol ∧ attested.sec.atPriv = some [] :=
  ⟨(opens_ enrol).1, (opens_ enrol).2, rfl⟩

/-- SessionsAndTheBaton: SESSION_CLOSE and EVENT_ACK. -/
theorem test_session_commands :
    (hosted powered).takes (cmdPkt 0x11 []) (cmdPkt 0x11 []) .a = true ∧
    (hosted powered).takes (cmdPkt 0x12 (toBe 8 0)) (cmdPkt 0x12 (toBe 8 0)) .a = true ∧
    (toBe 8 0).length = 8 ∧ zeroAt (toBe 8 0) 4 4 = true :=
  ⟨cmd_ok _ _ _ _ (by decide +kernel), cmd_ok _ _ _ _ (by decide +kernel), by decide, by decide⟩

/-- SessionsAndTheBaton: an event sent 10 s ago. -/
theorem test_event_retransmit :
    let e : QueuedEvent := ⟨1, 0x8008, 0xFFFF, 0, false, []⟩
    let s := { hosted powered with now := 10000000, cmd := { (hosted powered).cmd with a := { open_ := true, events := [e] } } }
    s.alive = true ∧ (s.session .a).open_ = true ∧ (s.session .a).events = e :: [] ∧ (s.session .a).sentAt + 10000000 ≤ s.now := by
  decide +kernel

/-- SessionsAndTheBaton: the baton's commands with the baton free, held by the sender, held by the other slot and run out. -/
theorem test_baton_commands :
    ∀ b ∈ [none, some Slot.a, some .b], ∀ e ∈ [0, 1], ∀ op ∈ [(0x13 : BitVec 16), 0x14, 0x15, 0x05],
      let s := hosted powered b e
      s.takes (cmdPkt op []) (cmdPkt op []) .a = true ∧ (cmdPkt op []).opcode = op ∧ s.cmd.baton = b ∧ s.cmd.batonEnd = e := by
  intro b _ e _ op h
  simp only [List.mem_cons, List.not_mem_nil, or_false] at h
  refine ⟨?_, rfl, rfl, rfl⟩
  rcases h with rfl | rfl | rfl | rfl <;>
    exact cmd_taken' powered b e _ [] _ rfl (.inr (.inl rfl)) rfl (by decide) (.inl rfl) (by decide)

/-- A command of slot B, whose session stands in the package with this command of B's waiting behind. -/
def cmdB (op : BitVec 16) (params : Bytes := []) : Pkt :=
  let p := { barePkt op 0 0xFFFF params with slot := 2 }
  { p with trailer := plouthTag [] (pktBytes p) }
def besides (s : State) (i : Instr) : State :=
  { s with pending := [i], nv := { s.nv with slotB := s.nv.slotA }, cmd := { s.cmd with b := s.cmd.a } }

/-- SessionsAndTheBaton, PowerAndTrustCommands: a RENEW, or a drop, of the other slot in the same cycle. -/
theorem test_other_slot :
    (besides (hosted powered (some .b) 0) (.batonRenew (cmdB 0x14))).takes (cmdB 0x14) (cmdB 0x14) (slotOther .a) = true ∧
    (besides (hosted powered) (.envelopeDrop (cmdB 6))).takes (cmdB 6) (cmdB 6) (slotOther .a) = true ∧
    (besides (hosted powered (some .b) 0) (.batonRenew (cmdB 0x14))).cmd.baton = some (slotOther .a) ∧
    (hosted powered).gov.droppedAt ≠ some (hosted powered).now ∧ 0 < (hosted powered).cmd.leaseMs := by
  refine ⟨?_, ?_, by decide +kernel⟩
  · simp [State.takes, besides, cmdB, barePkt, hosted, State.alive, pktOpen, pktSigned, lengthOk, trailerLen, reservedHeader, formOk, splitAtLength,
      slotOf, State.fromSlot, State.binding, State.session, pktBytes, Session.outstanding, State.outstanding,
      State.reaches, State.admits, State.ownAddr]
    decide +kernel
  · simp [State.takes, besides, cmdB, barePkt, hosted, State.alive, pktOpen, pktSigned, lengthOk, trailerLen, reservedHeader, formOk, splitAtLength,
      slotOf, State.fromSlot, State.binding, State.session, pktBytes, Session.outstanding, State.outstanding,
      State.reaches, State.admits, State.ownAddr]
    decide +kernel

/-- TheHardwarePath: a grant of the other slot in the same cycle as a drop. -/
def grantB : Bytes := toBe 4 2400 ++ toBe 4 0 ++ toBe 4 0 ++ toBe 4 0
theorem test_grant_behind_drop :
    (besides (hosted powered (some .b) 1) (.envelopeGrant (cmdB 0x70 grantB))).takes (cmdB 0x70 grantB) (cmdB 0x70 grantB) (slotOther .a) = true ∧
    grantB.length = 16 ∧ zeroAt grantB 12 4 = true ∧ beAt grantB 0 4 = 2400 ∧ beAt grantB 4 4 = 0 ∧ beAt grantB 8 4 = 0 := by
  refine ⟨?_, by decide +kernel⟩
  simp [State.takes, besides, cmdB, grantB, barePkt, hosted, State.alive, pktOpen, pktSigned, lengthOk, trailerLen, reservedHeader, formOk, splitAtLength,
      slotOf, State.fromSlot, State.binding, State.session, pktBytes, Session.outstanding, State.outstanding, State.hasLease, State.batonBusy,
      State.reaches, State.admits, State.ownAddr]
  decide +kernel

/-- RegistersReadAndWritten: the lease held and not, both peeks, a partition there and not, a write that waits for the baton. -/
theorem test_rw_registers :
    (hosted powered).hasLease .a = true ∧ (hosted powered none 0).hasLease .a = false ∧ peekOk 0 = false ∧ peekOk 0x1000000000000 = true ∧
    (hosted powered).hasPart 7 = true ∧ ({ powered with sched := { count := 4 } } : State).hasPart 7 = false ∧ (hosted powered).tally.stream = none ∧
    (let s := { hosted powered with sec := { powered.sec with fwWrite := some ⟨none, [1], 2⟩ } }
     s.batonBusy = true ∧ s.writesBaton (writePkt 0x200030 255) .a = true ∧ s.writesBaton (writePkt 0x38 255) .a = false) := by decide +kernel

/-- SessionsAndTheBaton: a lease that has run out and has not been reported. -/
theorem test_baton_expires :
    let s := hosted powered (some .b) 0
    s.cmd.baton = some .b ∧ s.cmd.batonEnd ≤ s.now ∧ s.cmd.batonReported = false := by decide +kernel

/-- TheHardwarePath: STATUS_MIN in the open form, the guaranteed commands in the signed form, a ZEROIZE that completes. -/
theorem test_hardware_path :
    (hosted powered).takes openPkt openPkt .a = true ∧
    (∀ x ∈ [((2 : BitVec 16), ([] : Bytes)), (3, []), (4, toBe 4 0x5A45524F ++ toBe 4 0), (6, [])],
      (hosted powered).takes (signedPkt x.1 x.2) { signedPkt x.1 x.2 with params := x.2 } .a = true) ∧
    (hosted powered).sec.zeroizing = false ∧ (toBe 4 0x5A45524F ++ toBe 4 0).length = 8 ∧
    beAt (toBe 4 0x5A45524F ++ toBe 4 0) 0 4 = 0x5A45524F ∧ zeroAt (toBe 4 0x5A45524F ++ toBe 4 0) 4 4 = true ∧
    (let s := { powered with sec := { powered.sec with zeroizing := true } }
     s.sec.zeroizing = true ∧ s.bring.powered = true) := by
  refine ⟨open_taken, ?_, by decide +kernel⟩
  intro x h
  simp only [List.mem_cons, List.not_mem_nil, or_false] at h
  rcases h with rfl | rfl | rfl | rfl <;>
    exact signed_taken powered _ _ rfl (.inr (.inr (.inl rfl))) rfl (by decide)

/-- RegistersReadAndWritten: a read of two registers, a read whose second does not exist, a write of one. -/
theorem test_registers :
    (∀ n ∈ [1, 2, 64], let q := toBe 8 0x000000 ++ toBe 2 n ++ toBe 6 0
      (hosted powered).takes (cmdPkt 0x20 q) (cmdPkt 0x20 q) .a = true ∧ q.length = 16 ∧ zeroAt q 10 6 = true ∧ beAt q 8 2 = n) ∧
    ((hosted powered).regRead 0).isSome = true ∧ (hosted powered).regRead 0x1FFFFF8 = none ∧
    (hosted powered).writes (writePkt 0x200028 1) .a 0x200028 1 = true := by
  refine ⟨?_, by decide +kernel, by decide +kernel, write_ok _ _ _ _ _ (by decide +kernel)⟩
  intro n h
  simp only [List.mem_cons, List.not_mem_nil, or_false] at h
  rcases h with rfl | rfl | rfl <;> exact ⟨cmd_ok _ _ _ _ (by decide +kernel), by decide, by decide, by decide⟩

/-- The last of each array of registers, and the bits that name a row, with the baton and without. -/
theorem test_register_writes (b : Option Slot) (e : Nat) :
    ∀ x ∈ [(0x1000030 + 0x10000 * 1023, 3), (0xC00038 + 0x10000 * 31, 0x11F), (0xB00028, 2 ^ 32), (0xC00028 + 0x10000 * 31, 2 ^ 32),
        (0x601020 + 0x40 * 7, 3), (0x601020 + 0x40 * 7, 5), (0x601020 + 0x40 * 7, 6), (0x601020 + 0x40 * 7, 2), (0x600100 + 8 * 31, 1),
        (0x500008, 3), (0x500030, 8191), (0x501000 + 8 * 1023, 0), (0x503000 + 8 * 1023, 0), (0x505000 + 8 * 31, 0),
        (0x505100 + 8 * 15, 0), (0x505180, 0), (0x505188, 0), (0x901000 + 0x40 * 7, 1), (0x901008 + 0x40 * 7, 0), (0x200030, 255),
        (0x200028, 255), (0x501000, 0xFF)],
      (hosted powered b e).writes (writePkt x.1 x.2) .a x.1 x.2 = true := by
  intro x h
  simp only [List.mem_cons, List.not_mem_nil, or_false] at h
  rcases h with rfl | rfl | rfl | rfl | rfl | rfl | rfl | rfl | rfl | rfl | rfl | rfl | rfl | rfl | rfl | rfl | rfl | rfl | rfl | rfl |
    rfl | rfl <;> exact write_ok _ _ _ _ _ (by decide +kernel)

/-- What the rows' bits say of those values; a code that no block has; the states the clauses tell apart. -/
theorem test_register_states :
    (bitOf 3 0 && bitOf 3 1 && bitOf 0x11F 8 && bitOf 5 0 && !bitOf 5 1 && bitOf 5 2 && bitOf 6 1 && !bitOf 6 0 && bitOf 2 1 && !bitOf 2 2) = true ∧
    codesOk stnCode 8 (BitVec.ofNat 64 0xFF) = false ∧ codesOk stnCode 8 0 = true ∧ codesOk sliceCode 4 0 = true ∧
    codesOk hbmCode 8 0 = true ∧ codesOk drvCode 8 0 = true ∧ codesOk gateCode 8 0 = true ∧
    (let s := (hosted powered).modStk 28 fun k => { k with state := 2, live := BitVec.allOnes 64 }
     s.tally.collect = none ∧ s.tally.stream = none ∧ s.hasLease .a = true ∧ s.hasPart 7 = true ∧
      (hosted powered none 0).hasLease .a = false ∧ (s.part 7).pages = 0 ∧ s.reserveUsed 7 ≤ 0 ∧
      65536 * (1 - 0) ≤ s.hbmFree 7 ∧ ¬ 65536 * ((2 ^ 28 - 1) - 0) ≤ s.hbmFree 7) ∧
    (let s := { powered with sched := { count := 4 } }
     s.hasPart 7 = false) ∧
    (let x : LedgerEntry := { key := 0, part := 0, layers := 1, spn := 3, ref := 1, parent := none, stamp := 0 }
     let s := powered.modPart 0 fun p => { p with ways := 1, pages := 1 }
     let s := { s with pfx := { s.pfx with ledger := [(0, some x)] } }
     let out (e : Nat) : Bool := ((s.part 0).ways &&& ~~~ (0 : BitVec 8)).getLsbD (e % 8)
     (s.ledgerOf 0 out).any (fun e => 0 < e.2.ref) = true ∧ 1 ≤ (s.part 0).pages) := by decide +kernel

end Sys2Proof.Tests
end

