-- ==== Sys2Proof/WellFormed.lean ====
section
/-!
DEFINITION. Well-formed commands: operand numbers within the ranges the spec gives its blocks (R2, R31, R47, R283, R301,
R350, R352, R394, R427), packets whose LENGTH fits a Plouth packet (R327, R328), and messages within the data a message carries (R293).
-/

namespace Sys2Proof

/-- A Plouth packet's parameters and trailer fit one packet of at most 4,160 bytes with its 32-byte header (R327). -/
def Pkt.wf (p : Pkt) : Bool := p.params.length + p.trailer.length ≤ 4128

/-- A message comes in on one of the 8 ports, and all but RELAY_BLOCK carry at most 65,535 bytes of data: LENGTH has 16 bits (R283,
R293). -/
def Msg.placed (m : Msg) : Bool := m.port < 8 && m.remote < 2 ^ 64
def Msg.wf (m : Msg) : Bool := m.data.length < 65536 && m.placed

/-- RELAY_BLOCK carries a relay header and 65,536 bytes (R294, R273; log entry 46). -/
def Msg.blockWf (m : Msg) : Bool := 65536 ≤ m.data.length && m.data.length < 131072 && m.placed

/-- FLAGS[1:0] of an ATOMIC name its operation (R294). -/
def Msg.atomicWf (m : Msg) (op : Nat) : Bool := m.wf && m.flags.toNat % 4 == op

/-- The memory that a scrub reads (R195, R197). -/
def ScrubTarget.wf : ScrubTarget → Bool
  | .slices => true
  | .stack n | .stackRead n => n < 32
  | .sliceRead i => i < 1024

/-- A RoCEv2 request names a 24-bit queue pair and packet sequence number (R321, R324). -/
def RdmaReq.wf (q : RdmaReq) : Bool := q.qpn < 2 ^ 24 && q.psn < 2 ^ 24 && q.srcQpn < 2 ^ 24 && q.addr < 2 ^ 64

/-- How many sensors of a kind there are (R394). -/
def Sensor.count : Sensor → Nat
  | .island => 1024
  | .hbm => 32
  | .gate | .converter => 4

/-- The operands of a command lie in their ranges. -/
def Instr.wf : Instr → Bool
  | .add st' _ _ _ _ => st' < 1024
  | .sub st' _ _ _ _ => st' < 1024
  | .and st' _ _ _ _ => st' < 1024
  | .or st' _ _ _ _ => st' < 1024
  | .xor st' _ _ _ _ => st' < 1024
  | .shl st' _ _ _ _ => st' < 1024
  | .shr st' _ _ _ _ => st' < 1024
  | .sra st' _ _ _ _ => st' < 1024
  | .mul st' _ _ _ _ => st' < 1024
  | .mulhu st' _ _ _ _ => st' < 1024
  | .min st' _ _ _ _ => st' < 1024
  | .max st' _ _ _ _ => st' < 1024
  | .minu st' _ _ _ _ => st' < 1024
  | .maxu st' _ _ _ _ => st' < 1024
  | .slt st' _ _ _ _ => st' < 1024
  | .sltu st' _ _ _ _ => st' < 1024
  | .chk st' _ _ _ => st' < 1024
  | .addi st' _ _ _ _ => st' < 1024
  | .andi st' _ _ _ _ => st' < 1024
  | .ori st' _ _ _ _ => st' < 1024
  | .xori st' _ _ _ _ => st' < 1024
  | .shli st' _ _ _ _ => st' < 1024
  | .shri st' _ _ _ _ => st' < 1024
  | .srai st' _ _ _ _ => st' < 1024
  | .li st' _ _ _ => st' < 1024
  | .lim st' _ _ _ _ => st' < 1024
  | .lit st' _ _ _ _ => st' < 1024
  | .ld st' _ _ _ _ => st' < 1024
  | .ldw st' _ _ _ _ => st' < 1024
  | .st st' _ _ _ _ => st' < 1024
  | .stw st' _ _ _ _ => st' < 1024
  | .beq st' _ _ _ _ => st' < 1024
  | .bne st' _ _ _ _ => st' < 1024
  | .blt st' _ _ _ _ => st' < 1024
  | .bge st' _ _ _ _ => st' < 1024
  | .bltu st' _ _ _ _ => st' < 1024
  | .bgeu st' _ _ _ _ => st' < 1024
  | .jmp st' _ _ => st' < 1024
  | .call st' _ _ => st' < 1024
  | .ret st' _ => st' < 1024
  | .tinc st' _ _ _ => st' < 1024
  | .twait st' _ _ _ => st' < 1024
  | .tread st' _ _ _ => st' < 1024
  | .ldshp st' _ _ _ _ => st' < 1024
  | .rdspec st' _ _ _ => st' < 1024
  | .step st' _ _ => st' < 1024
  | .finish st' _ => st' < 1024
  | .bar st' _ _ _ => st' < 1024
  | .xld st' _ _ => st' < 1024
  | .xst st' _ _ => st' < 1024
  | .vld st' _ _ _ _ => st' < 1024
  | .vst st' _ _ _ _ => st' < 1024
  | .xvs st' _ _ _ _ => st' < 1024
  | .xsv st' _ _ _ _ => st' < 1024
  | .xsend st' _ _ _ _ _ _ _ => st' < 1024
  | .xhalo st' _ _ _ => st' < 1024
  | .xnote st' _ _ _ _ => st' < 1024
  | .xfab st' _ _ _ => st' < 1024
  | .xwalk st' _ _ _ => st' < 1024
  | .xdisp st' _ _ _ => st' < 1024
  | .vadd st' _ _ _ _ _ => st' < 1024
  | .vsub st' _ _ _ _ _ => st' < 1024
  | .vmul st' _ _ _ _ _ => st' < 1024
  | .vfma st' _ _ _ _ _ _ => st' < 1024
  | .vmax st' _ _ _ _ _ => st' < 1024
  | .vmin st' _ _ _ _ _ => st' < 1024
  | .vabs st' _ _ _ _ => st' < 1024
  | .vneg st' _ _ _ _ => st' < 1024
  | .vsel st' _ _ _ _ _ _ => st' < 1024
  | .vbcast st' _ _ _ _ _ => st' < 1024
  | .viota st' _ _ _ => st' < 1024
  | .vcvt st' _ _ _ _ _ _ => st' < 1024
  | .vexp st' _ _ _ _ => st' < 1024
  | .vlog st' _ _ _ _ => st' < 1024
  | .vrsqrt st' _ _ _ _ => st' < 1024
  | .vtanh st' _ _ _ _ => st' < 1024
  | .vrcp st' _ _ _ _ => st' < 1024
  | .vrsum st' _ _ _ _ => st' < 1024
  | .vrmax st' _ _ _ _ => st' < 1024
  | .vrmaxi st' _ _ _ _ => st' < 1024
  | .vrdacc st' _ _ _ _ _ => st' < 1024
  | .vwracc st' _ _ _ _ _ => st' < 1024
  | .vq st' _ _ => st' < 1024
  | .vdq st' _ _ _ _ _ => st' < 1024
  | .wv st' _ _ => st' < 1024
  | .pendingMarkClear st' _ => st' < 1024
  | .lineFetchArrive st' _ => st' < 1024
  | .xldComplete st' _ => st' < 1024
  | .xstComplete st' _ => st' < 1024
  | .xstNotifyDeliver st' _ => st' < 1024
  | .xnoteDeliver st' _ => st' < 1024
  | .xsendSourceRead st' _ => st' < 1024
  | .xsendDeliver st' _ => st' < 1024
  | .haloDescriptorCopy st' _ => st' < 1024
  | .haloSourceRead st' _ => st' < 1024
  | .haloDeliver st' _ => st' < 1024
  | .ldshpArrive st' _ => st' < 1024
  | .wvStart st' => st' < 1024
  | .topupArrive st' => st' < 1024
  | .wvComplete st' => st' < 1024
  | .stepRelease ctx' => ctx' < 128
  | .barrierRelease ctx' _ => ctx' < 128
  | .dcoSettle st' _ => st' < 1024
  | .droopDetect st' eighths' => st' < 1024 && eighths' ≤ 8
  | .droopRecover st' => st' < 1024
  | .islandWindowEnd st' _ => st' < 1024
  | .floorBreachReport p' => p' < 8
  | .stationCheckFail st' _ => st' < 1024
  | .ringStopFail _ st' => st' < 1024
  | .linkFail st' _ => st' < 1024
  | .sliceUncorrectable slice' _ => slice' < 1024
  | .hbmUncorrectable stack' _ _ => stack' < 32
  | .patrolScrubStep where' _ => where'.wf
  | .transitWriteDown eighth' => eighth' < 8
  | .caravanGroupBegin ctx' => ctx' < 128
  | .caravanGroupComplete ctx' _ => ctx' < 128
  | .walkRead ctx' => ctx' < 128
  | .walkAppend ctx' => ctx' < 128
  | .walkCommit ctx' => ctx' < 128
  | .sealComplete _ => true
  | .walkLookup ctx' => ctx' < 128
  | .walkFork ctx' => ctx' < 128
  | .walkRelease ctx' => ctx' < 128
  | .walkAck ctx' => ctx' < 128
  | .walkStageArrive ctx' _ => ctx' < 128
  | .route ctx' _ => ctx' < 128
  | .routeProceed ctx' => ctx' < 128
  | .borrowRequestSend ctx' _ _ => ctx' < 128
  | .planDeadline ctx' => ctx' < 128
  | .serve ctx' => ctx' < 128
  | .serveProceed ctx' => ctx' < 128
  | .dispatchReturn ctx' => ctx' < 128
  | .relayTreeStart ctx' _ _ => ctx' < 128
  | .droverDescriptorStart d' => d' < 16
  | .read m' => m'.wf
  | .write m' => m'.wf
  | .bulkRead m' => m'.wf
  | .bulkWrite m' => m'.wf
  | .atomicAdd m' => m'.atomicWf 0
  | .atomicMax m' => m'.atomicWf 1
  | .atomicCas m' => m'.atomicWf 2
  | .atomicFadd m' => m'.atomicWf 3
  | .notify m' => m'.wf
  | .response m' => m'.wf
  | .arrival m' => m'.wf
  | .shipDone m' _ _ _ => m'.wf
  | .borrow m' _ _ _ _ => m'.wf
  | .cancel m' _ => m'.wf
  | .returnRec m' => m'.wf
  | .relayBlock m' _ => m'.blockWf
  | .departure m' => m'.wf
  | .retryResend d' _ => d' < 16
  | .unitTimeout d' _ => d' < 16
  | .heldUnitsRelease pkg' => pkg' < 256
  | .holdExpire ctx' => ctx' < 128
  | .quarantineEnd _ => true
  | .flitReceive port' f' => port' < 8 && f'.bytes.length == 256
  | .identityFlitRx port' rec' => port' < 8 && rec'.length == 32
  | .portLaneLock port' _ => port' < 8
  | .creditInitDone port' cr' => port' < 8 && cr'.length == 4
  | .trainStepTimeout port' => port' < 8
  | .laneFail port' _ _ => port' < 8
  | .portDown port' => port' < 8
  | .farEndSilent port' => port' < 8
  | .rdmaWrite q' _ => q'.wf
  | .rdmaRead q' _ => q'.wf
  | .rdmaSend q' _ => q'.wf
  | .rdmaCompletion _ _ => true
  | .rdmaRetryTimeout _ => true
  | .cnpReceive _ => true
  | .rateRecovery _ => true
  | .hostLinkUp => true
  | .hostLinkDown => true
  | .frameDiscard _ => true
  | .arp _ _ => true
  | .neighborDiscovery _ _ => true
  | .icmpEcho _ _ _ _ _ => true
  | .plouthDiscard _ => true
  | .eventRetransmit _ => true
  | .statusMin p' => p'.wf
  | .reset p' => p'.wf
  | .halt p' => p'.wf
  | .zeroize p' => p'.wf
  | .zeroizeComplete => true
  | .batonBreak p' => p'.wf
  | .envelopeDrop p' => p'.wf
  | .sessionOpen p' => p'.wf
  | .enrol p' => p'.wf
  | .sessionClose p' => p'.wf
  | .eventAck p' => p'.wf
  | .batonTake p' => p'.wf
  | .batonRenew p' => p'.wf
  | .batonRelease p' => p'.wf
  | .batonExpire => true
  | .fwClaimTimeout => true
  | .regRead p' => p'.wf
  | .regWrite p' => p'.wf
  | .qpCreate p' => p'.wf
  | .qpDestroy p' => p'.wf
  | .itinLoad p' => p'.wf
  | .itinCheck _ => true
  | .ctxStart p' => p'.wf
  | .ctxEnd p' => p'.wf
  | .ctxSchedSlice p' => p'.wf
  | .ctxSchedReserve p' => p'.wf
  | .ctxSchedUnreserve p' => p'.wf
  | .ctxSchedPark p' => p'.wf
  | .ctxSchedUnpark p' => p'.wf
  | .ctxSchedInterval p' => p'.wf
  | .ctxQuery p' => p'.wf
  | .ctxPolicy p' => p'.wf
  | .planPost p' => p'.wf
  | .batchCancel p' => p'.wf
  | .partLayout p' => p'.wf
  | .partKey p' => p'.wf
  | .wiringPlan p' => p'.wf
  | .jobTeardown p' => p'.wf
  | .envelopeGrant p' => p'.wf
  | .leaseExpire => true
  | .ledgerRead p' => p'.wf
  | .alarmPolicy p' => p'.wf
  | .attest p' => p'.wf
  | .fwUpdate p' _ => p'.wf
  | .tallyStreamStart p' => p'.wf
  | .tallyStreamStop p' => p'.wf
  | .netConfig p' => p'.wf
  | .serviceStartUnified p' => p'.wf
  | .serviceStartSplit p' => p'.wf
  | .faultLogRead p' => p'.wf
  | .clrMin p' => p'.wf
  | .markFailed p' => p'.wf
  | .remove p' => p'.wf
  | .csScrub p' => p'.wf
  | .hbScrub p' => p'.wf
  | .retrain p' => p'.wf
  | .forceUp p' => p'.wf
  | .disable p' => p'.wf
  | .fbReach p' => p'.wf
  | .freeze p' => p'.wf
  | .clear p' => p'.wf
  | .tlRing p' => p'.wf
  | .tlSel p' => p'.wf
  | .pxWays p' => p'.wf
  | .pxPages p' => p'.wf
  | .gvCtrl p' => p'.wf
  | .gvEvent p' => p'.wf
  | .tallyPeriodPulse => true
  | .tallyCollectDone => true
  | .tallyRecordWritten => true
  | .takeStations p' => p' < 8
  | .sliceExpire p' => p' < 8
  | .blockDetect p' => p' < 8
  | .blockExpectedEnd ctx' => ctx' < 128
  | .preemptStart p' => p' < 8
  | .preemptSaved p' => p' < 8
  | .restoreDone p' => p' < 8
  | .swapInStart p' => p' < 8
  | .swapInDone ctx' => ctx' < 128
  | .swapOutDone ctx' => ctx' < 128
  | .swapAgeExpire p' => p' < 8
  | .reservedWindowLead ctx' => ctx' < 128
  | .reservedWindowEnd ctx' => ctx' < 128
  | .watchdogExpire ctx' => ctx' < 128
  | .teardownComplete ctx' => ctx' < 128
  | .governorTick => true
  | .ledgerWindowClose => true
  | .thermalCrossing x' i' _ => i' < x'.count
  | .thermalReportHoldoff x' i' => i' < x'.count
  | .thermalTrip x' i' _ => i' < x'.count
  | .supplyOut _ => true
  | .supplyOutClear _ => true
  | .shed _ => true
  | .shedEnd _ => true
  | .lastGaspSave _ => true
  | .alarmFire source' partition' _ => 1 ≤ source' && source' ≤ 7 && (partition'.partition < 8 || partition'.partition == 0xFF) &&
    partition'.ctx.all (· < 128)
  | .fwIntegrityCheck _ => true
  | .powerApplied _ => true
  | .bootRom => true
  | .reservoirCharged => true
  | .hbmTrainingDone _ => true
  | .selfTestDone _ => true
  | .rstNLow => true
  | .resetTemperatureOk _ => true
  | .hbmZeroDone => true
  | .trayRemoval => true
  | .presenceClose => true
  | .hbmDoubledRefresh stack' _ => stack' < 32
  | .identityFlitSend port' => port' < 8
  | .trainingRestart port' => port' < 8
  | .rstNRelease => true
  | .jtagInstruction _ => true
  | .nop st' _ => st' < 1024

end Sys2Proof
end

