-- ==== Sys2Proof/Tests/Slice0.lean ====
section
/-!
SUPPORT. The smoke test of WellFormed, bundle words written out from R92-R95, R101, R112, R135 and R147, the table's words, reset,
and a few single steps whose results are worked out by hand from the spec.
-/

set_option Elab.async false

namespace Sys2Proof.Tests

open Sys2Proof Sys2Proof.Machine

/-! ### WellFormed refuses an operand out of each range, and takes the last one in it -/

/-- Stations, and the eighths of a stretch. -/
theorem test_wf_stations :
    (Instr.add 1024 bun 0 0 0).wf = false ∧ (Instr.add 1023 bun 0 0 0).wf = true ∧ (Instr.wv 1024 bun ⟨0, 0, true, false, false, false, 9, 9, 1, 5, 1, 0, false, 0⟩).wf = false ∧
      (Instr.nop 1024 bun).wf = false ∧ (Instr.xldComplete 1024 0).wf = false ∧ (Instr.droopDetect 0 9).wf = false ∧
      (Instr.droopDetect 1023 8).wf = true ∧ (Instr.sliceUncorrectable 1024 0).wf = false ∧ (Instr.ringStopFail true 1024).wf = false := by
  decide

/-- Contexts, partitions, stacks, eighths, drovers, ports, packages, sensors, alarms. -/
theorem test_wf_numbers :
    (Instr.stepRelease 128).wf = false ∧ (Instr.stepRelease 127).wf = true ∧ (Instr.takeStations 8).wf = false ∧ (Instr.takeStations 7).wf = true ∧
      (Instr.hbmUncorrectable 32 0 .free).wf = false ∧ (Instr.hbmDoubledRefresh 31 0).wf = true ∧ (Instr.transitWriteDown 8).wf = false ∧
      (Instr.droverDescriptorStart 16).wf = false ∧ (Instr.droverDescriptorStart 15).wf = true ∧ (Instr.portDown 8).wf = false ∧
      (Instr.portDown 7).wf = true ∧ (Instr.heldUnitsRelease 256).wf = false ∧ (Instr.heldUnitsRelease 255).wf = true ∧
      (Instr.thermalTrip .gate 4 0).wf = false ∧ (Instr.thermalTrip .hbm 31 0).wf = true ∧ (Instr.alarmFire 0 ⟨0, none⟩ 0).wf = false ∧
      (Instr.alarmFire 8 ⟨0, none⟩ 0).wf = false ∧ (Instr.alarmFire 7 ⟨8, none⟩ 0).wf = false ∧ (Instr.alarmFire 1 ⟨0xFF, none⟩ 0).wf = true := by decide

/-- Packets, messages, flits, requests of the host, scrub targets. -/
theorem test_wf_packets :
    (barePkt 1 0 0 (List.replicate 4129 0)).wf = false ∧ (barePkt 1 0 0 (List.replicate 4128 0)).wf = true ∧
      (let m (remote port n : Nat) : Msg := ⟨0, 1, 0, 77, 0, 0, remote, 0, List.replicate n 0, 0, port⟩
       (m 0 0 65536).wf = false ∧ (m (2 ^ 64) 0 0).wf = false ∧ (m 0 8 0).wf = false ∧ (m (2 ^ 64 - 1) 7 65535).wf = true ∧
        (Instr.atomicCas (m 0 0 16)).wf = false ∧ (Instr.atomicCas { m 0 0 16 with flags := 2 }).wf = true ∧
        (m 0 0 65535).blockWf = false ∧ (m 0 0 65536).blockWf = true ∧ (m 0 0 131072).blockWf = false) ∧
      (let q (qpn srcQpn psn addr : Nat) : RdmaReq :=
         { qpn := qpn, rkey := 0, srcGid := 0, srcQpn := srcQpn, psn := psn, addr := addr, inSubset := true, ce := false }
       (q (2 ^ 24) 0 0 0).wf = false ∧ (q 0 (2 ^ 24) 0 0).wf = false ∧ (q 0 0 (2 ^ 24) 0).wf = false ∧ (q 0 0 0 (2 ^ 64)).wf = false ∧
        (q (2 ^ 24 - 1) (2 ^ 24 - 1) (2 ^ 24 - 1) (2 ^ 64 - 1)).wf = true) := by decide +kernel
theorem test_wf_flits :
    (Instr.flitReceive 7 ⟨List.replicate 255 0, 0, 0⟩).wf = false ∧ (Instr.flitReceive 7 ⟨List.replicate 256 0, 0, 0⟩).wf = true ∧
      (Instr.identityFlitRx 7 (List.replicate 31 0)).wf = false ∧ (Instr.creditInitDone 7 [0, 0, 0]).wf = false ∧
      (Instr.patrolScrubStep (.stack 32) .clean).wf = false ∧ (Instr.patrolScrubStep (.sliceRead 1024) .clean).wf = false ∧
      (Instr.patrolScrubStep (.stackRead 31) (.corrected 2)).wf = true := by decide +kernel

/-! ### Words -/

/-- The table gives no row any bits. -/
theorem test_no_table_word : decodeTableWord 0 0 = none ∧ decodeTableWord 256 1 = none ∧ (State.reset.withFetchWord 8 1) = State.reset :=
  ⟨rfl, rfl, rfl⟩

/-- Where the slots begin (R92): M at bit 16, V at 80, S at 144, X at 192. -/
def atS (w : Nat) : BitVec 256 := BitVec.ofNat 256 (w * 2 ^ 144)
def atX (w : Nat) : BitVec 256 := BitVec.ofNat 256 (w * 2 ^ 192)
def atV (w : Nat) : BitVec 256 := BitVec.ofNat 256 (w * 2 ^ 80)
def atM (w : Nat) : BitVec 256 := BitVec.ofNat 256 (w * 2 ^ 16)

/-- The bundle of R107's worked example: header wait t2 ≥ 1, LDSHP s9, 3, t3. -/
theorem test_word_ldshp :
    decodeBundle (atS (0x48 * 2 ^ 40 + 9 * 2 ^ 35 + 3 * 2 ^ 29 + 3 * 2 ^ 21) + BitVec.ofNat 256 (2 * 2 ^ 10 + 1 * 2 ^ 4)) =
      some { waitT := 2, waitN := 1, s := .ldshp 9 3 3 } := by decide +kernel

/-- S slots of each format. -/
theorem test_words_s :
    decodeBundle (atS (0x01 * 2 ^ 40 + 31 * 2 ^ 35 + 2 * 2 ^ 30 + 3 * 2 ^ 25)) = some (bun (.sr .add 31 2 3)) ∧
    decodeBundle (atS (0x11 * 2 ^ 40 + 2 * 2 ^ 30 + 3 * 2 ^ 25)) = some (bun (.chk 2 3)) ∧
    decodeBundle (atS (0x20 * 2 ^ 40 + 1 * 2 ^ 35 + 2 * 2 ^ 30 + (2 ^ 30 - 1))) = some (bun (.si .addi 1 2 (-1))) ∧
    decodeBundle (atS (0x2D * 2 ^ 40 + 7 * 2 ^ 35 + 8 * 2 ^ 30 + 4)) = some (bun (.mem .stw 7 8 4)) ∧
    decodeBundle (atS (0x34 * 2 ^ 40 + 4 * 2 ^ 35 + 5 * 2 ^ 30 + (2 ^ 30 - 2))) = some (bun (.br .bltu 4 5 (-2))) ∧
    decodeBundle (atS (0x36 * 2 ^ 40 + 9)) = some (bun (.jmp 9)) ∧ decodeBundle (atS (0x38 * 2 ^ 40)) = some (bun .ret) ∧
    decodeBundle (atS (0x40 * 2 ^ 40 + 63 * 2 ^ 29 + 65535 * 2 ^ 13)) = some (bun (.tinc 63 65535)) ∧
    decodeBundle (atS (0x41 * 2 ^ 40 + 6 * 2 ^ 35 + 5 * 2 ^ 29)) = some (bun (.twait 6 5)) ∧
    decodeBundle (atS (0x49 * 2 ^ 40 + 3 * 2 ^ 35 + 7)) = some (bun (.rdspec 3 7)) ∧
    decodeBundle (atS (0x50 * 2 ^ 40 + 4095 * 2 ^ 28)) = some (bun (.step 4095)) ∧ decodeBundle (atS (0x51 * 2 ^ 40)) = some (bun .finish) ∧
    decodeBundle (atS (0x52 * 2 ^ 40 + 2 * 2 ^ 29 + 15 * 2 ^ 25)) = some (bun (.bar 2 15)) := by decide +kernel

/-- X slots of each format. -/
theorem test_words_x :
    decodeBundle (atX (0x01 * 2 ^ 56 + 1 * 2 ^ 51 + 2 * 2 ^ 46 + 3 * 2 ^ 41 + 4 * 2 ^ 35 + 5 * 2 ^ 20 + (2 ^ 20 - 1))) =
      some (bun (x := .xld ⟨1, 2, 3, 4, 5, -1⟩)) ∧
    decodeBundle (atX (0x04 * 2 ^ 56 + 63 * 2 ^ 50 + 1 * 2 ^ 45 + 4095 * 2 ^ 33)) = some (bun (x := .vst 63 1 4095)) ∧
    decodeBundle (atX (0x06 * 2 ^ 56 + 2 * 2 ^ 50 + 1 * 2 ^ 45 + 63 * 2 ^ 27)) = some (bun (x := .xsv 2 1 63)) ∧
    decodeBundle (atX (0x08 * 2 ^ 56 + 3 * 2 ^ 54 + 1 * 2 ^ 49 + 2 * 2 ^ 44 + 3 * 2 ^ 39 + 4 * 2 ^ 33 + 5 * 2 ^ 27)) =
      some (bun (x := .xsend 3 1 2 3 4 5)) ∧
    decodeBundle (atX (0x11 * 2 ^ 56 + 1 * 2 ^ 51 + 8191 * 2 ^ 38)) = some (bun (x := .desc .walk 1 8191)) ∧
    decodeBundle (atX (0x0A * 2 ^ 56 + 1 * 2 ^ 51 + 2 * 2 ^ 45 + 3 * 2 ^ 29)) = some (bun (x := .xnote 1 2 3)) := by decide +kernel

/-- V slots of each format, and an M slot. -/
theorem test_words_vm :
    decodeBundle (atV (0x04 * 2 ^ 56 + 1 * 2 ^ 50 + 2 * 2 ^ 44 + 3 * 2 ^ 38 + 4 * 2 ^ 32 + 15 * 2 ^ 28)) =
      some (bun (v := .vr .vfma { d := 1, a := 2, b := 3, c := 4, ty := 15 })) ∧
    decodeBundle (atV (0x0C * 2 ^ 56 + 1 * 2 ^ 50 + 2 * 2 ^ 44 + 12 * 2 ^ 28 + 15 * 2 ^ 24 + 1 * 2 ^ 14)) =
      some (bun (v := .vr .vcvt { d := 1, a := 2, ty := 12, sty := 15, part := 1 })) ∧
    decodeBundle (atV (0x21 * 2 ^ 56 + 5 * 2 ^ 50 + 3 * 2 ^ 48 + 63 * 2 ^ 42 + 7 * 2 ^ 37)) = some (bun (v := .vwracc 5 3 63 7)) ∧
    decodeBundle (atV (0x28 * 2 ^ 56 + 1 * 2 ^ 50 + 2 * 2 ^ 45 + 3 * 2 ^ 40 + 4 * 2 ^ 35 + 5 * 2 ^ 29 + 6 * 2 ^ 25 + 1 * 2 ^ 24 + 2 * 2 ^ 22 +
        1 * 2 ^ 21)) = some (bun (v := .vq ⟨1, 2, 3, 4, 5, 6, true, 2, true, false⟩)) ∧
    decodeBundle (atV (0x29 * 2 ^ 56 + 1 * 2 ^ 50 + 2 * 2 ^ 45 + 7 * 2 ^ 41 + 1 * 2 ^ 40)) = some (bun (v := .vdq 1 2 7 true)) ∧
    decodeBundle (atM (0x01 * 2 ^ 56 + 3 * 2 ^ 53 + 2 * 2 ^ 51 + 1 * 2 ^ 50 + 1 * 2 ^ 48 + 7 * 2 ^ 43 + 9 * 2 ^ 39 + 10 * 2 ^ 34 + 20 * 2 ^ 29 +
        4095 * 2 ^ 17 + 6 * 2 ^ 12 + 1 * 2 ^ 11 + 63 * 2 ^ 5)) =
      some (bun (m := .wv ⟨3, 2, true, false, true, false, 7, 9, 10, 20, 4095, 6, true, 63⟩)) := by decide +kernel

/-- Reserved opcodes, reserved header bits, a field that an opcode does not use, a wait on a counter without a count (R93, R94). -/
theorem test_words_refused :
    decodeBundle (atS (0x12 * 2 ^ 40)) = none ∧ decodeBundle (atX (0x07 * 2 ^ 56)) = none ∧ decodeBundle (atV (0x0D * 2 ^ 56)) = none ∧
    decodeBundle (atM (0x02 * 2 ^ 56)) = none ∧ decodeBundle 1 = none ∧ decodeBundle (BitVec.ofNat 256 (2 ^ 10)) = none ∧
    decodeBundle (atV (0x01 * 2 ^ 56 + 15 * 2 ^ 28 + 1 * 2 ^ 24)) = none ∧ decodeBundle (atS (0x52 * 2 ^ 40 + 1 * 2 ^ 35)) = none ∧
    decodeBundle (atM 1) = none ∧ decodeBundle 0 = some bun := by decide +kernel

/-! ### Reset and the queue -/

/-- Reset memory is in canonical form; a read of a byte that nothing has written. -/
theorem test_reset_memory :
    Mem.wf State.reset.cst.split = true ∧ Mem.wf (State.reset.ctx 127).store = true ∧ rdByte (State.reset.arch 1023).saddle 262143 = 0 ∧
      State.reset.pending = [] := by decide +kernel

/-- The front command runs and leaves the queue's rest; the empty queue moves time on by a microsecond. -/
theorem test_queue :
    (match step { State.reset with pending := [.hostLinkUp, .hostLinkDown] } with
      | .next t => t.pending == [.hostLinkDown] && t.host.link == 2
      | _ => false) = true ∧
    (match step State.reset with | .next t => t.now == 1000 | _ => false) = true := by decide +kernel

/-! ### Single steps -/

/-- What scalar register `r` holds after the one command. -/
def sregAfter (i : Instr) (s : State) (r : Reg) : Option Word :=
  match step { s with pending := [i] } with
  | .next t => some ((t.arch 0).sreg r)
  | _ => none

/-- SUB wraps; MULHU of the greatest numbers; SRA by 65 shifts by 1; SLT is signed (R102). -/
theorem test_step_scalar :
    sregAfter (.sub 0 (bun (.sr .sub 1 2 3)) 1 2 3) (running (bun (.sr .sub 1 2 3)) (regs [(2, 0), (3, 1)])) 1 = some 0xFFFFFFFFFFFFFFFF ∧
    sregAfter (.mulhu 0 (bun (.sr .mulhu 1 2 2)) 1 2 2) (running (bun (.sr .mulhu 1 2 2)) (regs [(2, 0xFFFFFFFFFFFFFFFF)])) 1 =
      some 0xFFFFFFFFFFFFFFFE ∧
    sregAfter (.sra 0 (bun (.sr .sra 1 2 3)) 1 2 3) (running (bun (.sr .sra 1 2 3)) (regs [(2, 0x8000000000000000), (3, 65)])) 1 =
      some 0xC000000000000000 ∧
    sregAfter (.slt 0 (bun (.sr .slt 1 2 3)) 1 2 3) (running (bun (.sr .slt 1 2 3)) (regs [(2, 0xFFFFFFFFFFFFFFFF)])) 1 = some 1 := by
  decide +kernel

/-- LIM and LIT put bits [59:30] and [63:60]; LDW zero-extends (R102). -/
theorem test_step_constants :
    sregAfter (.lim 0 (bun (.si .lim 1 2 1)) 1 2 1) (running (bun (.si .lim 1 2 1)) (regs [(2, 0xFFFFFFFFFFFFFFFF)])) 1 =
      some 0xF00000007FFFFFFF ∧
    sregAfter (.lit 0 (bun (.si .lit 1 2 9)) 1 2 9) (running (bun (.si .lit 1 2 9)) (regs [(2, 5)])) 1 = some 0x9000000000000005 ∧
    sregAfter (.ldw 0 (bun (.mem .ldw 1 0 4)) 1 0 4) (running (bun (.mem .ldw 1 0 4)) (bag 0 (toLe 8 0xFFFFFFFF00000000))) 1 =
      some 0xFFFFFFFF := by decide +kernel

/-- s0 reads zero and discards writes (R35). -/
theorem test_step_s0 :
    sregAfter (.addi 0 (bun (.si .addi 0 0 5)) 0 0 5) (running (bun (.si .addi 0 0 5))) 0 = some 0 := by decide +kernel

/-- What vector register `r` holds after the one command. -/
def vregAfter (i : Instr) (s : State) (r : VReg) : Option (BitVec 4096) :=
  match step { s with pending := [i] } with
  | .next t => some ((t.arch 0).vreg r)
  | _ => none

/-- VMAX of -0 and +0 gives +0, VMIN gives -0 (R148); every lane of VIOTA is its number, here lane 2 (R148). -/
theorem test_step_vector :
    (let b := bun (v := .vr .vmax { d := 1, a := 2, b := 3, ty := 15 })
     vregAfter (.vmax 0 b 1 2 3 15) (running b fun a => { a with vregs := [(2, 0x80000000)] }) 1 = some 0) ∧
    (let b := bun (v := .vr .vmin { d := 1, a := 2, b := 3, ty := 15 })
     vregAfter (.vmin 0 b 1 2 3 15) (running b fun a => { a with vregs := [(2, 0x80000000)] }) 1 = some 0x80000000) ∧
    (let b := bun (v := .vr .viota { d := 1, ty := 15 })
     (vregAfter (.viota 0 b 1 15) (running b) 1).map (fun v => v.extractLsb' 64 32) = some 0x40000000) := by decide +kernel

/-- CHK of equal numbers tears the context down with reason 0x01 and detail 0x23, station 0 (R102, R372). -/
theorem test_step_chk :
    (match step { running (bun (.chk 1 2)) (g := fun k => { k with itin := { k.itin with kv := none } }) with
        pending := [.chk 0 (bun (.chk 1 2)) 1 2] } with
      | .next t => (t.ctx 0).state == .tearingDown && ((t.ctx 0).teardown.map fun d => (d.reason, d.detail, d.station)) == some (1, 0x23, 0)
      | _ => false) = true := by decide +kernel

end Sys2Proof.Tests
end

