-- ==== Sys2Proof/Tests/Walkers.lean ====
section
/-!
SUPPORT. Witnesses for the statements about page walkers, seals and staged pages.
-/

set_option Elab.async false

namespace Sys2Proof.Tests

open Sys2Proof Sys2Proof.Machine

/-- A walk request of one destination whose lengths lie at 0x1A000. -/
def reqOf (op : Nat) : WalkReq :=
  { station := 0, bundle := 0, op := op, mode := 0, layer := 0, lenSlot := 5, countSlot0 := 6, groupFirst := 0, groupCount := 1
    listToken := 1, itemToken := 2, doneToken := 63, ackCount := 1, lenTable := 0x1A000, listOffset := 7 }

/-- The fixture with one lengths entry (sequence 0), a request of this kind, and bytes in its store. -/
def walking (op cur new : Nat) (l : List (Nat × Bytes)) (f : WalkRun → WalkRun := id) : State :=
  powered fun k => { k with
    walk := f { k.walk with reqs := [reqOf op] }
    store := ([(0x1F000, toLe 8 1), (0x1A000, toLe 4 0 ++ toLe 4 cur ++ toLe 4 new ++ toLe 4 0)] ++ l).foldl
      (fun m (a, b) => wrBytes m a b) k.store }

/-- What every walker statement asks of the state. -/
def walkHyps (s : State) (r : WalkReq) : Bool :=
  (s.ctx 0).walk.reqs == [r] && (s.ctx 0).itin.kv == some kvDecl && (s.ctx 0).state == .running && s.counting 0 &&
    decide (s.stnsOfCtx 0).Nodup && decide (r.station < s.stnCount 0) && decide (s.token 0 r.station r.doneToken < 65530)

/-- The one lengths entry. -/
def lenOf (cur new : Nat) : Len := { index := 0, seq := 0, cur := cur, new := new, flags := 0 }

/-- A live sequence 0 with one block. -/
def liveSeq : Nat × Bytes := (kvDecl.rec_ 0, toLe 8 1 ++ toLe 8 7 ++ toLe 4 0 ++ toLe 4 1)
/-- Its block 0. -/
def block0 (e : Entry) : Nat × Bytes := (kvDecl.entryAddr 0 0, toLe 8 e.toNat)

/-- WalkersListWork: READ of a full open block and of a sealed one, APPEND of a new sequence. -/
theorem test_walk_list :
    (let s := walking 1 1000 24 [liveSeq, block0 { state := 1, spn := 0, link := 1 }]
     let k := s.ctx 0
     walkHyps s (reqOf 1) = true ∧ k.lens (reqOf 1) = .ok [lenOf 1000 24] ∧ 1000 + 24 ≤ kvDecl.slots ∧ 7 + 1 ≤ kvDecl.listItems ∧
      s.token 0 0 1 < 65530 ∧ s.token 0 0 2 < 65530 ∧ k.walk.staging = [] ∧ k.itin.shapes.find? (·.slot == 6) = some ⟨6, 100, 0x1F008⟩ ∧
      (k.seqHead kvDecl 0).live = true ∧ (k.entry kvDecl 0 0).state = 1 ∧ (∀ g ∈ k.walk.staging, g.station ≠ 0)) ∧
    (let s := walking 1 1000 24 [liveSeq, block0 { state := 2, spn := 3 }]
     let k := s.ctx 0
     walkHyps s (reqOf 1) = true ∧ k.lens (reqOf 1) = .ok [lenOf 1000 24] ∧ (k.seqHead kvDecl 0).live = true ∧
      (k.entry kvDecl 0 0).state = 2 ∧ k.walk.staging = []) ∧
    (let s := walking 2 0 1 []
     let k := s.ctx 0
     walkHyps s (reqOf 2) = true ∧ k.lens (reqOf 2) = .ok [lenOf 0 1] ∧ (k.seqHead kvDecl 0).live = false ∧
      (k.entry kvDecl 0 0).state = 0 ∧ kvDecl.layers ≤ s.freeSpns 0 ∧ kvDecl.frameGroups ≤ 2 ^ 20 ∧ 0 < kvDecl.frameGroups ∧
      0 ∉ k.walk.frames) := by decide +kernel

/-- WalkersListWork: each listing request of a lengths word above its maximum or with reserved bits, an ACK beyond what is filled. -/
theorem test_walk_faults :
    (∀ op ∈ [1, 2, 3, 4, 5, 6], let s := walking op 0 1 [(0x1F000, toLe 8 101)]
      walkHyps s (reqOf op) = true ∧ leNat (rdBytes (s.ctx 0).store 0x1F000 8) = 101) ∧
    (let s := walking 1 0 1 [(0x1F000, toLe 8 (2 ^ 32 + 1))]
     leNat (rdBytes (s.ctx 0).store 0x1F000 8) / 2 ^ 32 = 1) ∧
    (let s := walking 7 0 0 []
     walkHyps s (reqOf 7) = true ∧ mget 0 (s.ctx 0).walk.filled 0 < (reqOf 7).ackCount ∧ s.stnOfCtx 0 0 < 1024) := by decide +kernel

/-- PagesSealStageAndRelease: COMMIT of a layer that is due, of a sealed block and of a layer sealed before; RELEASE of a live and of
a free sequence; ACK. -/
theorem test_walk_commit :
    (let s := walking 3 1000 24 [liveSeq, block0 { state := 1, spn := 0, link := 1 }]
     let k := s.ctx 0
     walkHyps s (reqOf 3) = true ∧ k.lens (reqOf 3) = .ok [lenOf 1000 24] ∧ (1000 + 24) / kvDecl.slots = 1 ∧
      (k.entry kvDecl 0 0).state = 1 ∧ (k.entry kvDecl 0 0).sealedLayers = (reqOf 3).layer) ∧
    (let s := walking 6 0 0 [liveSeq]
     walkHyps s (reqOf 6) = true ∧ (s.ctx 0).lens (reqOf 6) = .ok [lenOf 0 0] ∧ ((s.ctx 0).seqHead kvDecl 0).live = true) ∧
    (let s := walking 6 0 0 []
     walkHyps s (reqOf 6) = true ∧ (s.ctx 0).lens (reqOf 6) = .ok [lenOf 0 0] ∧ ((s.ctx 0).seqHead kvDecl 0).live = false) ∧
    (∀ n ∈ [({ state := 2, spn := 3 } : Entry), { state := 1, spn := 3, sealedLayers := 1, link := 1 }],
      let s := walking 3 1000 24 [liveSeq, block0 n]
      walkHyps s (reqOf 3) = true ∧ (s.ctx 0).lens (reqOf 3) = .ok [lenOf 1000 24] ∧ (s.ctx 0).entry kvDecl 0 0 = n ∧
        (n.state = 2 ∨ n.state = 1 ∧ (reqOf 3).layer < n.sealedLayers)) ∧
    (let s := walking 7 0 0 [] fun w => { w with filled := [(0, 1)] }
     walkHyps s (reqOf 7) = true ∧ (reqOf 7).ackCount ≤ mget 0 (s.ctx 0).walk.filled 0) := by decide +kernel

/-- A ledger entry of sequence 0's first granule. -/
def ledgerOf (s : State) : LedgerEntry :=
  { key := granuleKey 0 7 ((s.ctx 0).granuleTokens kvDecl 0 0), part := 0, layers := 1, spn := 3, ref := 65534, parent := none, stamp := 0 }

/-- PagesSealStageAndRelease: LOOKUP that hits, LOOKUP that misses, FORK of a block in the ledger. -/
theorem test_walk_ledger :
    (let s0 := walking 4 0 17 []
     let x := ledgerOf s0
     let i := x.key.toNat % 16384 * 8
     let s := { s0.modPart 0 fun p => { p with ways := 1 } with pfx := { s0.pfx with ledger := [(i, some x)] } }
     walkHyps s (reqOf 4) = true ∧ (s.ctx 0).lens (reqOf 4) = .ok [lenOf 0 17] ∧ ((s.ctx 0).seqHead kvDecl 0).live = false ∧
      s.probe 0 1 x.key = some i ∧ s.ledgerAt i = some x ∧ (s.part 0).ledgerKey = 0) ∧
    (let s := walking 4 0 32 []
     walkHyps s (reqOf 4) = true ∧ (s.ctx 0).lens (reqOf 4) = .ok [lenOf 0 32] ∧ s.probe 0 1 (ledgerOf s).key = none) ∧
    (let n : Entry := { state := 2, ledger := true, sealedLayers := 1, spn := 3, link := 8 }
     let s0 := walking 5 1024 1 [(kvDecl.rec_ 1, toLe 8 1 ++ toLe 8 7 ++ toLe 4 1 ++ toLe 4 1), (kvDecl.entryAddr 1 0, toLe 8 n.toNat)]
     let s := { s0 with pfx := { s0.pfx with ledger := [(8, some (ledgerOf s0))] } }
     let k := s.ctx 0
     walkHyps s (reqOf 5) = true ∧ k.lens (reqOf 5) = .ok [lenOf 1024 1] ∧ 1024 = kvDecl.slots ∧ 1 ≤ kvDecl.blocks ∧
      (k.seqHead kvDecl 0).live = false ∧ (k.seqHead kvDecl 1).live = true ∧ (k.seqHead kvDecl 1).keyed ≤ 1 ∧
      k.entry kvDecl 1 0 = n ∧ s.ledgerAt (n.link % 2 ^ 17) = some (ledgerOf s0) ∧ (ledgerOf s0).ref < 65535) := by decide +kernel

/-- A seal of sequence 0's block 0. -/
def sealOf (c : Option Nat) : Seal :=
  { part := 0, ctx := c, handle := 0, pool := 4, seq := 0, block := 0, layer := 0, base := 3, layers := 1, data := [] }

/-- PagesSealStageAndRelease: a seal whose bundle its context has given up, one with another of its bundle on its way, the last one
of a block not yet sealed in every layer and of one that is, one whose context is gone. -/
theorem test_seals :
    (let s := { walking 1 0 1 [] with seals := [sealOf (some 0)] }
     s.seals[0]? = some (sealOf (some 0)) ∧ 3 ∉ (s.ctx 0).walk.spns) ∧
    (let s := { walking 1 0 1 [block0 { state := 1, spn := 3, sealedLayers := 1, link := 1 }] (fun w => { w with spns := [3] }) with
       seals := [sealOf (some 0), { sealOf (some 0) with layer := 1 }] }
     s.seals[0]? = some (sealOf (some 0)) ∧ 3 ∈ (s.ctx 0).walk.spns ∧
      ∃ x ∈ s.seals.erase (sealOf (some 0)), x.part = (sealOf (some 0)).part ∧ x.base = (sealOf (some 0)).base) ∧
    (∀ n ∈ [0, 1],
      let s := { walking 1 0 1 [block0 { state := 1, spn := 3, sealedLayers := n, link := 1 }] (fun w => { w with spns := [3] }) with
        seals := [sealOf (some 0)] }
      s.seals[0]? = some (sealOf (some 0)) ∧ 3 ∈ (s.ctx 0).walk.spns ∧ (∀ x ∈ s.seals.erase (sealOf (some 0)), x.base ≠ 3) ∧
      kvDecl.ledger = false ∧ ((s.ctx 0).entry kvDecl 0 0).state = 1 ∧ ((s.ctx 0).entry kvDecl 0 0).spn = 3 ∧
      (((s.ctx 0).entry kvDecl 0 0).sealedLayers = kvDecl.layers ↔ n = 1)) ∧
    (let s := { powered with seals := [sealOf none] }
     s.seals[0]? = some (sealOf none)) := by decide +kernel

/-- PagesSealStageAndRelease: a staged page that arrives whole, and one that is poison, while the context runs or saves. -/
theorem test_stages :
    ∀ bad ∈ [false, true], ∀ st ∈ [CtxState.running, .saving],
      let g : Staging := { station := 0, seq := 0, itemToken := 63, page := some (0, 5) }
      let x : Page := { part := 0, spn := 5, data := [1], crcs := [], poison := bad }
      let s := { walking 1 0 1 [] (fun w => { w with staging := [g] }) with pages := [x] }.modCtx 0 fun k => { k with state := st }
      let k := s.ctx 0
      k.nextStaged kvDecl = some g ∧ k.state = st ∧ s.counting 0 = true ∧ s.page 0 5 = some x ∧ x.poison = bad ∧
        g.station < s.stnCount 0 ∧ s.token 0 0 63 < 65535 ∧ (k.walk.staging.erase g).find? (·.station == 0) = none := by decide +kernel

end Sys2Proof.Tests
end

section
/-!
SUPPORT. What a step leaves alone whatever it does: the commands behind the one that it takes, and the canonical form of every
memory. One lemma for each operation of the model, in the model's order, and one for each command.
-/

-- The lemmas are short and many: elaborating them one after another keeps the threads, each with a large stack, few.
set_option Elab.async false

namespace Sys2Proof.Laws

open Sys2Proof Sys2Proof.Machine

/-! ### Canonical memories and the frame of a step -/

/-- The saddlebag is in canonical form. -/
def CanonArch (a : Arch) : Prop := Mem.wf a.saddle = true

/-- The context's memories are in canonical form: its footprint and the saddlebags that a hamper saved. -/
def CanonCtx (k : Ctx) : Prop := Mem.wf k.store = true ∧ ∀ rel, CanonArch (mget {} k.saved rel)

/-- Every memory of the package is in canonical form. -/
def Canon (s : State) : Prop :=
  (∀ c, CanonCtx (s.ctx c)) ∧ (∀ j, CanonArch (s.arch j)) ∧ (∀ g ∈ s.images, Mem.wf g.data = true) ∧
    Mem.wf s.cst.split = true ∧ Mem.wf s.cst.hbm = true

/-- From `s` to `t` the queue of commands is the same, canonical memories stay canonical, and, unless `w`, no command begins to
wait for the baton's turn where none did. -/
def Keeps (w : Prop) (s t : State) : Prop :=
  t.pending = s.pending ∧ (Canon s → Canon t) ∧ (w ∨ (s.cmd.serial = [] → t.cmd.serial = []))

variable {w : Prop} {r s t : State}

theorem Keeps.refl : Keeps w s s := ⟨rfl, id, .inr id⟩

theorem Keeps.trans (h : Keeps w r s) (h' : Keeps w s t) : Keeps w r t := by
  obtain ⟨hp, hm, hq⟩ := h
  obtain ⟨hp', hm', hq'⟩ := h'
  refine ⟨hp'.trans hp, fun hr => hm' (hm hr), ?_⟩
  rcases hq with hw | hq
  · exact .inl hw
  · exact hq'.imp id fun hq' hr => hq' (hq hr)

/-- A step that changes memories in a way that keeps them canonical. -/
theorem Keeps.canon (h : Keeps w r s) (hm : Canon s → Canon t) (hp : t.pending = s.pending := by rfl)
    (hq : t.cmd.serial = s.cmd.serial := by rfl) : Keeps w r t :=
  h.trans ⟨hp, hm, .inr fun hs => hq.trans hs⟩

/-- A change of anything but the queue, the memories and the commands that wait for the baton. -/
theorem Keeps.frame {now faultSec faultRate faultSuppressed free : Nat} {bring : Bring} {gate : Gate} {nv : Nv} {cmd : Cmd}
    {host : HostPort} {gov : Gov} {sec : Sec} {sched : Sched} {parts : Sparse Part} {stks : Sparse Stk} {cst : Cst} {fab : Fab}
    {kvw : Kvw} {pfx : Pfx} {moe : Moe} {tally : Tally} {pages : List Page} {seals : List Seal} {out : List Out}
    (h : Keeps w r s) (hq : cmd.serial = s.cmd.serial := by rfl) (hl : cst.split = s.cst.split := by rfl)
    (hb : cst.hbm = s.cst.hbm := by rfl) :
    Keeps w r { s with now, bring, gate, nv, cmd, host, gov, sec, sched, parts, stks, cst, fab, kvw, pfx, moe, tally, pages, seals,
                       faultSec, faultRate, faultSuppressed, out, free } := by
  refine h.canon (fun ⟨hc, ha, hi, hl', hb'⟩ => ⟨hc, ha, hi, ?_, ?_⟩) rfl hq
  · rw [← hl] at hl'
    exact hl'
  · rw [← hb] at hb'
    exact hb'

/-- A choice between two states. -/
theorem Keeps.ite {q : Prop} {d : Decidable q} {a b : State} (ha : Keeps w r a) (hb : Keeps w r b) :
    Keeps w r (if q then a else b) := by
  split
  · exact ha
  · exact hb

/-- The state of a pair. -/
theorem Keeps.fst {α : Type} {x : State × α} {a : α} (h : Keeps w r x.1) (e : x = (s, a)) : Keeps w r s := by
  subst e
  exact h

theorem Keeps.trd {α β : Type} {x : α × β × State} {a : α} {b : β} (h : Keeps w r x.2.2) (e : x = (a, b, s)) :
    Keeps w r s := by
  subst e
  exact h

theorem Keeps.snd {α : Type} {x : α × State} {a : α} (h : Keeps w r x.2) (e : x = (a, s)) : Keeps w r s := by
  subst e
  exact h

theorem Keeps.foldl {α : Type} {l : List α} {f : State → α → State} (h : Keeps w r s)
    (hf : ∀ s x, Keeps w r s → Keeps w r (f s x)) : Keeps w r (l.foldl f s) := by
  induction l generalizing s with
  | nil => exact h
  | cons x l ih => exact ih (hf s x h)

theorem Keeps.foldlFst {α β : Type} {l : List α} {f : State × β → α → State × β} {b : β} (h : Keeps w r s)
    (hf : ∀ x a, Keeps w r x.1 → Keeps w r (f x a).1) : Keeps w r (l.foldl f (s, b)).1 := by
  induction l generalizing s b with
  | nil => exact h
  | cons a l ih => exact ih (hf (s, b) a h)

theorem Keeps.foldlSnd {α β : Type} {l : List α} {f : β × State → α → β × State} {b : β} (h : Keeps w r s)
    (hf : ∀ x a, Keeps w r x.2 → Keeps w r (f x a).2) : Keeps w r (l.foldl f (b, s)).2 := by
  induction l generalizing s b with
  | nil => exact h
  | cons a l ih => exact ih (hf (b, s) a h)

theorem Keeps.foldNat {l : List Nat} {f : State → Nat → State} (h : Keeps w r s)
    (hf : ∀ s n, Keeps w r s → Keeps w r (f s n)) : Keeps w r (s.foldNat l f) := h.foldl hf

/-- What a command answers with keeps them. -/
def Stays (w : Prop) (r : State) (o : Res) : Prop := ∀ t, o = .next t → Keeps w r t

theorem Stays.next (h : Keeps w r s) : Stays w r (.next s) := by
  rintro _ ⟨⟩
  exact h

theorem Stays.ite {q : Prop} {d : Decidable q} {a b : Res} (ha : Stays w r a) (hb : Stays w r b) :
    Stays w r (if q then a else b) := by
  split
  · exact ha
  · exact hb

/-- What a write or a copy that may be refused answers with keeps them. -/
def Writes {ε : Type} (w : Prop) (r : State) (o : Except ε State) : Prop := ∀ t, o = .ok t → Keeps w r t

theorem Writes.ok {ε : Type} (h : Keeps w r s) : Writes (ε := ε) w r (.ok s) := by
  rintro _ ⟨⟩
  exact h

theorem Writes.error {ε : Type} {e : ε} : Writes w r (.error e) := by
  rintro _ ⟨⟩

theorem Writes.ite {ε : Type} {q : Prop} {d : Decidable q} {a b : Except ε State} (ha : Writes w r a) (hb : Writes w r b) :
    Writes w r (if q then a else b) := by
  split
  · exact ha
  · exact hb

/-- A block of registers in which the offset of a write may have none. -/
def Finds (w : Prop) (r : State) (o : Option RegOut) : Prop := ∀ x, o = some x → Writes w r x

theorem Finds.some {o : RegOut} (h : Writes w r o) : Finds w r (some o) := by
  rintro _ ⟨⟩
  exact h

theorem Finds.none : Finds w r none := by
  rintro _ ⟨⟩

/-! ### Changes of one station, context or image -/

theorem Keeps.modStn {i : Nat} {f : Stn → Stn} (h : Keeps w r s)
    (hf : ∀ t, CanonArch t.arch → CanonArch (f t).arch := by exact fun _ h => h) : Keeps w r (s.modStn i f) := by
  refine h.canon fun ⟨hc, ha, hm⟩ => ⟨hc, fun j => ?_, hm⟩
  unfold State.arch
  rw [modStn_stn]
  split
  · exact hf _ (ha i)
  · exact ha j

theorem Keeps.modArch {i : Nat} {f : Arch → Arch} (h : Keeps w r s)
    (hf : ∀ a, CanonArch a → CanonArch (f a) := by exact fun _ h => h) : Keeps w r (s.modArch i f) :=
  h.modStn fun t => hf t.arch

/-- A station takes the registers and the saddlebag `a`. -/
theorem Keeps.setArch {i : Nat} {a : Arch} (h : Keeps w r s) (ha : Canon r → CanonArch a) :
    Keeps w r (s.modArch i fun _ => a) := by
  obtain ⟨hp, hm, hq⟩ := h
  exact ⟨hp, fun hr => (Keeps.refl (w := w)).modArch (fun _ _ => ha hr) |>.2.1 (hm hr), hq⟩

theorem Keeps.modCtx {c : Nat} {f : Ctx → Ctx} (h : Keeps w r s)
    (hf : ∀ k, CanonCtx k → CanonCtx (f k) := by exact fun _ h => h) : Keeps w r (s.modCtx c f) := by
  refine h.canon fun ⟨hc, hm⟩ => ⟨fun d => ?_, hm⟩
  rw [modCtx_ctx]
  split
  · exact hf _ (hc c)
  · exact hc d

/-- As `Keeps.modCtx`, where the change takes what the state before it held. -/
theorem Keeps.modCtxOf {c : Nat} {f : Ctx → Ctx} (h : Keeps w r s) (hf : Canon s → ∀ k, CanonCtx k → CanonCtx (f k)) :
    Keeps w r (s.modCtx c f) :=
  h.trans ⟨rfl, fun hs => (Keeps.refl (w := w)).modCtx (hf hs) |>.2.1 hs, .inr id⟩

theorem Keeps.modImage {p i : Nat} {f : Image → Image} (h : Keeps w r s)
    (hf : ∀ g, Mem.wf g.data = true → Mem.wf (f g).data = true := by exact fun _ h => h) : Keeps w r (s.modImage p i f) := by
  refine h.canon fun ⟨hc, ha, hi, hm⟩ => ⟨hc, ha, fun g hg => ?_, hm⟩
  obtain ⟨g, hg', rfl⟩ := List.mem_map.1 hg
  split
  · exact hf g (hi g hg')
  · exact hi g hg'

/-! ### Changes of several memories at once -/

/-- Images that remain are as they were, and the bytes of a new one are in canonical form. -/
theorem Keeps.images {l : List Image} (h : Keeps w r s) (hl : ∀ g ∈ l, g ∈ s.images ∨ Mem.wf g.data = true) :
    Keeps w r { s with images := l } :=
  h.canon fun ⟨hc, ha, hi, hm⟩ => ⟨hc, ha, fun g hg => (hl g hg).elim (hi g) id, hm⟩

theorem Keeps.filterImages {f : Image → Bool} (h : Keeps w r s) : Keeps w r { s with images := s.images.filter f } :=
  h.images fun _ hg => .inl (List.mem_of_mem_filter hg)

theorem Keeps.noImages (h : Keeps w r s) : Keeps w r { s with images := [] } := h.images nofun

/-- The memory of split mode is changed. -/
theorem Keeps.split {cst : Cst} (h : Keeps w r s) (hs : Canon r → Mem.wf cst.split = true)
    (hb : Canon r → Mem.wf cst.hbm = true) :
    Keeps w r { s with cst } := by
  obtain ⟨hp, hm, hq⟩ := h
  refine ⟨hp, fun hr => ?_, hq⟩
  obtain ⟨hc, ha, hi, -⟩ := hm hr
  exact ⟨hc, ha, hi, hs hr, hb hr⟩

theorem Keeps.memories (h : Keeps w r s) (hr : Canon r) : Canon s := h.2.1 hr

theorem Canon.split (h : Canon s) : Mem.wf s.cst.split = true := h.2.2.2.1

theorem Canon.hbm (h : Canon s) : Mem.wf s.cst.hbm = true := h.2.2.2.2

/-- No context remains. -/
theorem Keeps.noCtxs (h : Keeps w r s) : Keeps w r { s with ctxs := [] } :=
  h.canon fun ⟨_, hm⟩ => ⟨fun _ => ⟨rfl, fun _ => rfl⟩, hm⟩

/-- No command waits for the baton any more. -/
theorem Keeps.noSerial {cmd : Cmd} (h : Keeps w r s) (hq : cmd.serial = []) : Keeps w r { s with cmd } :=
  h.trans ⟨rfl, id, .inr fun _ => hq⟩

/-- Every context, image and byte of split mode is gone, and the stations' saddlebags are in canonical form. -/
theorem Canon.ofEmpty (hc : s.ctxs = []) (hi : s.images = []) (hs : s.cst.split = []) (hb : s.cst.hbm = [])
    (ha : ∀ j, CanonArch (s.arch j)) : Canon s := by
  refine ⟨fun c => ?_, ha, ?_, ?_, ?_⟩
  · rw [State.ctx, hc]
    exact ⟨rfl, fun _ => rfl⟩
  · rw [hi]
    exact nofun
  · rw [hs]
    rfl
  · rw [hb]
    rfl

/-! ### Changes of a station's registers and saddlebag -/

variable {a : Arch} {k : Ctx}

theorem CanonArch.empty : CanonArch {} := rfl

theorem CanonArch.of {b : Arch} (h : CanonArch a) (e : b.saddle = a.saddle) : CanonArch b := by
  unfold CanonArch
  rw [e]
  exact h

theorem CanonArch.ite {q : Prop} {d : Decidable q} {b : Arch} (ha : CanonArch a) (hb : CanonArch b) :
    CanonArch (if q then a else b) := by
  split
  · exact ha
  · exact hb

theorem CanonArch.foldl {α : Type} {l : List α} {f : Arch → α → Arch} (h : CanonArch a)
    (hf : ∀ a x, CanonArch a → CanonArch (f a x)) : CanonArch (l.foldl f a) := by
  induction l generalizing a with
  | nil => exact h
  | cons x l ih => exact ih (hf a x h)

theorem CanonArch.store {addr : Nat} {bs : Bytes} (h : CanonArch a) : CanonArch (a.store addr bs) := wf_wrBytes _ _ _ h

theorem CanonArch.mark {m : Mark} (h : CanonArch a) : CanonArch (a.mark m) := h

theorem CanonArch.putS {d : Reg} {v : Word} (h : CanonArch a) : CanonArch (a.putS d v) := .ite h h

theorem CanonArch.setS {d : Reg} {v : Word} (h : CanonArch a) : CanonArch (a.setS d v) := .ite h h.putS.mark

theorem CanonArch.setV {d : VReg} {v : BitVec 4096} (h : CanonArch a) : CanonArch (a.setV d v) := CanonArch.mark h

theorem CanonArch.accept {j : WvJob} (h : CanonArch a) : CanonArch (a.accept j) := by
  have hm : CanonArch ((wvAccs j.op).foldl (fun a k => a.mark (.acc k)) { a with topups := none }) :=
    CanonArch.foldl h fun _ _ h => h.mark
  unfold Arch.accept
  generalize (wvAccs j.op).foldl (fun a k => a.mark (.acc k)) { a with topups := none } = b at hm
  dsimp only
  split
  · exact .ite hm hm
  · exact .ite hm hm

theorem CanonArch.startWeave (h : CanonArch a) : CanonArch a.startWeave := by
  unfold Arch.startWeave
  split
  · exact h
  · split
    · exact h
    · split
      · exact h
      · exact h

theorem CanonArch.sWrites {x : Site} {op : SOp} (h : CanonArch a) : CanonArch (x.sWrites s op a) := by
  cases op with
  | mem f d r imm => exact .ite h.setS h.store
  | ldshp d t k =>
    delta Site.sWrites
    dsimp only
    split
    · exact h
    · exact .ite h h
  | sr f d r q => exact h.setS
  | si f d r imm => exact h.setS
  | tread d t => exact h.setS
  | rdspec d sel => exact h.setS
  | _ => exact h

theorem CanonArch.noteHeld {t : Stn} (h : CanonArch t.arch) : CanonArch t.noteHeld.arch := by
  unfold Stn.noteHeld
  split
  · exact h
  · exact h

/-! ### Changes of a context's footprint -/

theorem CanonCtx.empty : CanonCtx {} := ⟨rfl, fun _ => rfl⟩

theorem CanonCtx.of {x : Ctx} (h : CanonCtx k) (hs : x.store = k.store) (hv : x.saved = k.saved) : CanonCtx x := by
  unfold CanonCtx
  rw [hs, hv]
  exact h

theorem CanonCtx.ite {q : Prop} {d : Decidable q} {b : Ctx} (ha : CanonCtx k) (hb : CanonCtx b) :
    CanonCtx (if q then k else b) := by
  split
  · exact ha
  · exact hb

theorem CanonCtx.write {o : Nat} {bs : Bytes} (h : CanonCtx k) : CanonCtx { k with store := wrBytes k.store o bs } := by
  obtain ⟨hs, hv⟩ := h
  exact ⟨wf_wrBytes _ _ _ hs, hv⟩

theorem CanonCtx.setSeqHead {v : KvConf} {q : Nat} {x : SeqHead} (h : CanonCtx k) : CanonCtx (k.setSeqHead v q x) := h.write

theorem CanonCtx.setEntry {v : KvConf} {q b : Nat} {e : Entry} (h : CanonCtx k) : CanonCtx (k.setEntry v q b e) := h.write

theorem CanonCtx.putBytes {reading : Bool} {o : Nat} {bs : Bytes} (h : CanonCtx k) : CanonCtx (k.putBytes reading o bs) := h.write

theorem wf_filter {m : Mem} {f : Nat × Byte → Bool} {lo : Nat} (h : mwfFrom 0 lo m = true) :
    mwfFrom 0 lo (m.filter f) = true := by
  induction m generalizing lo with
  | nil => rfl
  | cons p m ih =>
    obtain ⟨o, v⟩ := p
    simp only [mwfFrom, Bool.and_eq_true, decide_eq_true_eq] at h
    obtain ⟨⟨hlo, hv⟩, hm⟩ := h
    rw [List.filter_cons]
    split
    · simp only [mwfFrom, Bool.and_eq_true, decide_eq_true_eq]
      exact ⟨⟨hlo, hv⟩, ih hm⟩
    · exact mwfFrom_mono 0 _ (by omega) (ih hm)

theorem CanonCtx.dropCopies (h : CanonCtx k) : CanonCtx k.dropCopies := by
  obtain ⟨hs, hv⟩ := h
  exact ⟨wf_filter hs, hv⟩

theorem CanonCtx.account {now : Nat} (h : CanonCtx k) : CanonCtx (k.account now) := by
  unfold Ctx.account
  split
  · exact h
  · exact h

theorem CanonCtx.freeFrames {l : List Nat} (h : CanonCtx k) : CanonCtx (k.freeFrames l) := by
  unfold Ctx.freeFrames
  split
  · exact h
  · exact h

theorem CanonCtx.becomesReady {now : Nat} (h : CanonCtx k) : CanonCtx (k.becomesReady now) := .ite h (.ite h h)

theorem CanonCtx.unpark {now : Nat} (h : CanonCtx k) : CanonCtx (k.unpark now) := .ite (.ite h h) h

/-- No saddlebag is saved any more. -/
theorem CanonCtx.unsaved (h : CanonCtx k) : CanonCtx { k with saved := [] } := ⟨h.1, fun _ => rfl⟩

theorem CanonCtx.save {rel : Nat} (h : CanonCtx k) (ha : CanonArch a) : CanonCtx { k with saved := mset {} k.saved rel a } := by
  obtain ⟨hs, hv⟩ := h
  refine ⟨hs, fun j => ?_⟩
  rw [mget_mset]
  split
  · exact ha
  · exact hv j

/-- The memories of a new context: the headers of the history that its itinerary lays out. -/
theorem wf_initialStore (it : Itin) : Mem.wf it.initialStore = true := by
  have hf : ∀ {α : Type} (l : List α) (a : α → Nat) (b : α → Bytes) (m : Mem), Mem.wf m = true →
      Mem.wf (l.foldl (fun m d => wrBytes m (a d) (b d)) m) = true := by
    intro α l a b
    induction l with
    | nil => exact fun _ h => h
    | cons x l ih => exact fun m h => ih _ (wf_wrBytes _ _ _ h)
  have hm := hf it.streams (·.regionBase) (fun d => d.words.flatMap fun w => toLe 32 w.toNat) [] rfl
  unfold Itin.initialStore
  split
  · exact hm
  · exact hf _ _ _ _ hm

/-! ### Machine/Ops.lean -/

theorem Keeps.modPart {p : Nat} {f : Part → Part} (h : Keeps w r s) : Keeps w r (s.modPart p f) := h.frame

theorem Keeps.modStk {n : Nat} {f : Stk → Stk} (h : Keeps w r s) : Keeps w r (s.modStk n f) := h.frame

theorem Keeps.modPort {q : Nat} {f : FabPort → FabPort} (h : Keeps w r s) : Keeps w r (s.modPort q f) := h.frame

theorem Keeps.modDrover {d : Nat} {f : Drover → Drover} (h : Keeps w r s) : Keeps w r (s.modDrover d f) := h.frame

theorem Keeps.modSens {k : Nat} {f : Sens → Sens} (h : Keeps w r s) : Keeps w r (s.modSens k f) := h.frame

theorem Keeps.setMode {m : BitVec 8} (h : Keeps w r s) : Keeps w r (s.setMode m) := h.frame

theorem Keeps.draw (h : Keeps w r s) : Keeps w r (s.draw).2 := by
  unfold State.draw
  exact h.frame

theorem Keeps.race {addr : Nat} {old : Bytes} {ws : List (Nat × Bytes)} {new : Bytes} {whole : Nat → Bool} (h : Keeps w r s) :
    Keeps w r (s.race addr old ws new whole).2 := by
  unfold State.race
  split
  · exact h
  · split
    rename_i d s₁ e₁
    have h₁ := h.draw.snd e₁
    exact h₁

theorem Keeps.gateEvent {code k : Nat} (h : Keeps w r s) : Keeps w r (s.gateEvent code k) := h.frame

theorem Keeps.emit {o : Out} (h : Keeps w r s) : Keeps w r (s.emit o) := h.frame

theorem Keeps.heardBytes {n : Nat} (h : Keeps w r s) : Keeps w r (s.heardBytes n) := h.frame

theorem Keeps.modSession {k : Slot} {f : Session → Session} (h : Keeps w r s) : Keeps w r (s.modSession k f) := by
  unfold State.modSession
  split
  · exact h.frame
  · exact h.frame

theorem Keeps.modBinding {k : Slot} {f : Binding → Binding} (h : Keeps w r s) : Keeps w r (s.modBinding k f) := by
  unfold State.modBinding
  split
  · exact h.frame
  · exact h.frame

theorem Keeps.cmEvent {i : Nat} (h : Keeps w r s) : Keeps w r (s.cmEvent i) := h.frame

theorem Keeps.sendEvent {k : Slot} {e : QueuedEvent} (h : Keeps w r s) : Keeps w r (s.sendEvent k e) := h.emit

theorem Keeps.queueEvent {k : Slot} {opcode ctx : BitVec 16} {body : Bytes} (h : Keeps w r s) :
    Keeps w r (s.queueEvent k opcode ctx body) := Keeps.ite h (Keeps.ite h.cmEvent h).modSession.gateEvent.sendEvent

theorem Keeps.postEvent {opcode ctx : BitVec 16} {body : Bytes} (h : Keeps w r s) : Keeps w r (s.postEvent opcode ctx body) :=
  h.queueEvent.queueEvent

theorem Keeps.emitReply {p : Pkt} {status : BitVec 16} {detail : BitVec 32} {body : Bytes} (h : Keeps w r s) :
    Keeps w r (s.emitReply p status detail body) := h.emit

theorem Keeps.authFail (h : Keeps w r s) : Keeps w r s.authFail := h.frame

theorem Keeps.emitRefusal {p : Pkt} {status : BitVec 16} {detail : BitVec 32} {body : Bytes} (h : Keeps w r s) :
    Keeps w r (s.emitRefusal p status detail body) := Keeps.ite h.frame h.frame.emitReply

theorem Keeps.sendReply {p : Pkt} {status : BitVec 16} {detail : BitVec 32} {body : Bytes} (h : Keeps w r s) :
    Keeps w r (s.sendReply p status detail body) := Keeps.ite h.emitRefusal h.emitReply

theorem Keeps.cacheReply {p : Pkt} {status : BitVec 16} {detail : BitVec 32} {body : Bytes} (h : Keeps w r s) :
    Keeps w r (s.cacheReply p status detail body) := by
  unfold State.cacheReply
  split
  · exact Keeps.ite h.modSession h
  · exact h

theorem Keeps.countReply {status : BitVec 16} (h : Keeps w r s) : Keeps w r (s.countReply status) :=
  Keeps.ite h.cmEvent.authFail (Keeps.ite (Keeps.ite h.frame h.frame).gateEvent.cmEvent (Keeps.ite h.frame h.frame).gateEvent)

theorem Keeps.countRefusal {status : BitVec 16} (h : Keeps w r s) : Keeps w r (s.countRefusal status) :=
  Keeps.ite h.frame.gateEvent h

theorem Keeps.reply {p : Pkt} {status : BitVec 16} {detail : BitVec 32} {body : Bytes} (h : Keeps w r s) :
    Keeps w r (s.reply p status detail body) := h.countReply.countRefusal.cacheReply.sendReply.foldl fun _ _ h => h.sendReply

theorem Keeps.replyOwed {o : Owed} {status : BitVec 16} {detail : BitVec 32} {body : Bytes} (h : Keeps w r s) :
    Keeps w r (s.replyOwed o status detail body) := Keeps.ite h.reply h

theorem Keeps.storeFault {e : FaultEntry} (h : Keeps w r s) : Keeps w r (s.storeFault e).2 := by
  unfold State.storeFault
  exact h.frame

theorem Keeps.logFault {e : FaultEntry} (h : Keeps w r s) : Keeps w r (s.logFault e) := by
  unfold State.logFault
  refine Keeps.ite h.frame ?_
  split
  rename_i e s₁ e₁
  have h₁ := h.frame.storeFault.snd e₁
  exact h₁.postEvent

theorem Keeps.logFaultQuiet {e : FaultEntry} (h : Keeps w r s) : Keeps w r (s.logFaultQuiet e) := h.storeFault

theorem Keeps.gvEvent {i : Nat} (h : Keeps w r s) : Keeps w r (s.gvEvent i) := h.frame

theorem Keeps.seEvent {i : Nat} (h : Keeps w r s) : Keeps w r (s.seEvent i) := h.frame

theorem Keeps.scEvent {i : Nat} (h : Keeps w r s) : Keeps w r (s.scEvent i) := h.frame

theorem Keeps.csEvent {i : Nat} (h : Keeps w r s) : Keeps w r (s.csEvent i) := h.frame

theorem Keeps.fbEvent {i : Nat} (h : Keeps w r s) : Keeps w r (s.fbEvent i) := h.frame

theorem Keeps.hpEvent {i : Nat} (h : Keeps w r s) : Keeps w r (s.hpEvent i) := h.frame

theorem Keeps.kwEvent {i : Nat} (h : Keeps w r s) : Keeps w r (s.kwEvent i) := h.frame

theorem Keeps.pxEvent {i : Nat} (h : Keeps w r s) : Keeps w r (s.pxEvent i) := h.frame

theorem Keeps.moEvent {i : Nat} (h : Keeps w r s) : Keeps w r (s.moEvent i) := h.frame

theorem Keeps.tlEvent {i : Nat} (h : Keeps w r s) : Keeps w r (s.tlEvent i) := h.frame

theorem Keeps.hbEvent {n i : Nat} (h : Keeps w r s) : Keeps w r (s.hbEvent n i) := h.modStk

theorem Keeps.powerEvent {kind cause part value count window : Nat} (h : Keeps w r s) :
    Keeps w r (s.powerEvent kind cause part value count window) := h.postEvent

/-! ### Machine/Plouth.lean -/

theorem Keeps.dropFrame (h : Keeps w r s) : Keeps w r s.dropFrame := h.frame

theorem Keeps.missed {fcsOk : Bool} (h : Keeps w r s) : Keeps w r (s.missed fcsOk) := (Keeps.ite h h.frame).dropFrame

theorem Keeps.spend {v : Nat} (h : Keeps w r s) : Keeps w r (s.spend v) := h.frame

theorem Keeps.newChallenge (h : Keeps w r s) : Keeps w r (s.newChallenge).2 := by
  unfold State.newChallenge
  split
  rename_i d s₁ e₁
  have h₁ := h.draw.snd e₁
  exact h₁.frame

theorem Keeps.heard {k : Slot} {p : Pkt} (h : Keeps w r s) : Keeps w r (s.heard k p) := h.modSession

theorem Keeps.waitFw {p : Pkt} (h : Keeps w r s) : Keeps w r (s.waitFw p) := h.frame

theorem Keeps.waitBaton {p : Pkt} {k : Slot} (h : Keeps w r s) : Keeps True r (s.waitBaton p k) := by
  obtain ⟨hp, hm, -⟩ := h
  exact ⟨hp, hm, .inl trivial⟩

theorem Keeps.withLength {p : Pkt} {n : Nat} {f : State → State} (h : Keeps w r s) (hf : ∀ s, Keeps w r s → Keeps w r (f s)) :
    Keeps w r (s.withLength p n f) := Keeps.ite (hf _ h) h.reply

theorem Keeps.withZeros {p : Pkt} {l : List (Nat × Nat)} {f : State → State} (h : Keeps w r s)
    (hf : ∀ s, Keeps w r s → Keeps w r (f s)) : Keeps w r (s.withZeros p l f) := by
  unfold State.withZeros
  split
  · exact h.reply
  · exact hf _ h

theorem Keeps.withParams {p : Pkt} {n : Nat} {l : List (Nat × Nat)} {f : State → State} (h : Keeps w r s)
    (hf : ∀ s, Keeps w r s → Keeps w r (f s)) : Keeps w r (s.withParams p n l f) := h.withLength fun _ h => h.withZeros hf

theorem Keeps.endFw (h : Keeps w r s) : Keeps w r s.endFw := by
  unfold State.endFw
  split
  · exact h
  · dsimp only
    split
    · exact h.frame.seEvent.replyOwed
    · exact h.frame.seEvent

theorem Keeps.admitted {p : Pkt} {f : State → State} (h : Keeps w r s) (hf : ∀ s, Keeps w r s → Keeps w r (f s)) :
    Keeps w r (s.admitted p f) := by
  unfold State.admitted
  split
  · exact h.reply
  · exact Keeps.ite (hf _ h) h.reply

theorem Keeps.receiveSession {p : Pkt} {f : State → Pkt → Slot → State} (h : Keeps True r s)
    (hf : ∀ s x y, Keeps True r s → Keeps True r (f s x y)) : Keeps True r (s.receiveSession p f) := by
  unfold State.receiveSession
  split
  · exact h.reply
  · refine Keeps.ite h.reply ?_
    refine Keeps.ite h.reply ?_
    refine Keeps.ite h.heard.reply ?_
    split
    · exact h.heard.sendReply
    · exact h.heard.modSession
    · exact Keeps.ite h.heard.reply (h.heard.modSession.admitted fun _ h => Keeps.ite h.waitFw (Keeps.ite (hf _ _ _ h)
        (Keeps.ite h.waitBaton (Keeps.ite (hf _ _ _ h) h.reply))))

theorem Keeps.receiveSigned {p : Pkt} {f : State → Pkt → Slot → State} (h : Keeps w r s)
    (hf : ∀ s x y, Keeps w r s → Keeps w r (f s x y)) : Keeps w r (s.receiveSigned p f) := by
  unfold State.receiveSigned
  refine Keeps.ite h.reply ?_
  refine Keeps.ite h.reply ?_
  dsimp only
  split
  · exact h.spend.reply
  · exact Keeps.ite h.spend.reply (Keeps.ite h.spend.reply (Keeps.ite h.spend.reply
      (h.spend.heard.admitted fun _ h => hf _ _ _ h)))

theorem Keeps.hearPkt {p : Pkt} (h : Keeps w r s) : Keeps w r (s.hearPkt p) := h.heardBytes

theorem Keeps.receiveOwn {p : Pkt} {f : State → Pkt → Slot → State} (h : Keeps True r s)
    (hf : ∀ s x y, Keeps True r s → Keeps True r (f s x y)) : Keeps True r (s.receiveOwn p f) :=
  Keeps.ite h.reply (Keeps.ite h.reply (Keeps.ite h.reply (Keeps.ite (h.admitted fun _ h => hf _ _ _ h)
    (Keeps.ite (h.receiveSigned hf) (h.receiveSession hf)))))

theorem Keeps.receive {op : Nat} {p : Pkt} {f : State → Pkt → Slot → State} (h : Keeps True r s)
    (hf : ∀ s x y, Keeps True r s → Keeps True r (f s x y)) : Keeps True r (s.receive op p f) :=
  Keeps.ite h (Keeps.ite h (Keeps.ite h.hearPkt.missed (h.hearPkt.receiveOwn hf)))

theorem Keeps.withCtx {p : Pkt} {f : State → Nat → State} (h : Keeps w r s) (hf : ∀ s x, Keeps w r s → Keeps w r (f s x)) :
    Keeps w r (s.withCtx p f) := by
  unfold State.withCtx
  split
  · exact h.reply
  · exact hf _ _ h

theorem Keeps.serial {p : Pkt} {k : Slot} {c : Nat} {f : State → State} (h : Keeps w r s)
    (hf : ∀ s, Keeps w r s → Keeps w r (f s)) : Keeps w r (s.serial p k c f) := Keeps.ite (hf _ h) h.modCtx

/-! ### Machine/Store.lean -/

theorem Keeps.charge {p : Nat} {c : Option Nat} {pj f : Nat} (h : Keeps w r s) : Keeps w r (s.charge p c pj f) := by
  unfold State.charge
  dsimp only
  split
  · exact h.modPart.modCtx
  · exact h.modPart

theorem Keeps.hbmBytes {n cls bytes : Nat} {c : Option Nat} (h : Keeps w r s) : Keeps w r (s.hbmBytes n cls bytes c) := by
  unfold State.hbmBytes
  dsimp only
  split
  · exact h.modStk.modPart.modCtx fun _ h => .of h rfl rfl
  · exact h.modStk.modPart

theorem Keeps.imageTraffic {p : Nat} {rs : List ImageRegion} {cls o n : Nat} {c : Option Nat} (h : Keeps w r s) :
    Keeps w r (s.imageTraffic p rs cls o n c) := h.foldNat fun _ _ h => h.hbmBytes

theorem Keeps.storeTraffic {c cls a n : Nat} (h : Keeps w r s) : Keeps w r (s.storeTraffic c cls a n) := h.foldNat fun _ _ h => by
  dsimp only
  split
  · exact h
  · exact h.modStn.charge

theorem Keeps.chan {c st n : Nat} (h : Keeps w r s) : Keeps w r (s.chan c st n) := Keeps.ite h h.modStn.charge

theorem Keeps.ringBytes {c st a n : Nat} {out : Bool} (h : Keeps w r s) : Keeps w r (s.ringBytes c st a n out) :=
  h.foldNat fun _ _ h => by
  dsimp only
  split
  · exact h
  · exact Keeps.ite h h.chan

theorem Keeps.put {c a : Nat} {bs : Bytes} (h : Keeps w r s) : Keeps w r (s.put c a bs) :=
  (h.modCtx fun _ h => h.putBytes).storeTraffic

theorem Keeps.hamperTraffic {c o n : Nat} (h : Keeps w r s) : Keeps w r (s.hamperTraffic c o n) :=
  h.foldNat fun _ _ h => h.hbmBytes

theorem Keeps.pickSpn {p n : Nat} (h : Keeps w r s) : Keeps w r (s.pickSpn p n).2 := by
  unfold State.pickSpn
  dsimp only
  split
  · exact h.draw
  · exact h.draw

theorem Keeps.dropPages {p b n : Nat} (h : Keeps w r s) : Keeps w r (s.dropPages p b n) := h.frame

theorem Keeps.setLedger {i : Nat} {e : Option LedgerEntry} (h : Keeps w r s) : Keeps w r (s.setLedger i e) := h.frame

theorem Keeps.nextStamp (h : Keeps w r s) : Keeps w r s.nextStamp := h.frame

theorem Keeps.addRef {i : Nat} (h : Keeps w r s) : Keeps w r (s.addRef i) := by
  unfold State.addRef
  split
  · exact h
  · exact h.setLedger.nextStamp

theorem Keeps.unrefOnly {i : Nat} (h : Keeps w r s) : Keeps w r (s.unrefOnly i) := by
  unfold State.unrefOnly
  split
  · exact h
  · exact h.setLedger.nextStamp

theorem Keeps.removeEntry {i : Nat} (h : Keeps w r s) : Keeps w r (s.removeEntry i) := by
  unfold State.removeEntry
  split
  · exact h
  · dsimp only
    split
    · exact h.setLedger.dropPages.unrefOnly
    · exact h.setLedger.dropPages

theorem Keeps.sweepPoison {n i : Nat} (h : Keeps w r s) : Keeps w r (State.sweepPoison n i s) := by
  induction n generalizing i s with
  | zero => exact h
  | succ n ih =>
    unfold State.sweepPoison
    split
    · exact h
    · refine Keeps.ite ?_ h
      split
      · exact ih h.removeEntry
      · exact h.removeEntry

theorem Keeps.removeLedger {i : Nat} (h : Keeps w r s) : Keeps w r (s.removeLedger i) := by
  unfold State.removeLedger
  split
  · exact h
  · dsimp only
    split
    · exact h.removeEntry.sweepPoison
    · exact h.removeEntry

theorem Keeps.dropRef {i : Nat} (h : Keeps w r s) : Keeps w r (s.dropRef i) := h.unrefOnly.sweepPoison

theorem Keeps.evict {p i : Nat} (h : Keeps w r s) : Keeps w r (s.evict p i) := h.removeLedger.modPart

theorem Keeps.evictTo {n p limit : Nat} {f : Nat → Bool} (h : Keeps w r s) : Keeps w r (State.evictTo n p limit f s) := by
  induction n generalizing s with
  | zero => exact h
  | succ n ih =>
    unfold State.evictTo
    refine Keeps.ite h ?_
    split
    · exact h
    · exact ih h.evict

theorem Keeps.clearLedger {p : Nat} (h : Keeps w r s) : Keeps w r (s.clearLedger p) := (h.foldl fun _ _ h => h.dropPages).frame

theorem Keeps.poisonPage {p spn : Nat} (h : Keeps w r s) : Keeps w r (s.poisonPage p spn) := by
  unfold State.poisonPage
  split
  · exact h
  · exact h.setLedger.pxEvent.sweepPoison

theorem Keeps.tokenTraffic {c : Nat} {v : KvConf} {q g n : Nat} (h : Keeps w r s) : Keeps w r (s.tokenTraffic c v q g n) :=
  h.storeTraffic

theorem Keeps.releaseBlock {c q b : Nat} {v : KvConf} (h : Keeps w r s) : Keeps w r (s.releaseBlock c q b v) :=
  Keeps.ite h ((Keeps.ite h.dropRef h.modCtx.dropPages).modCtx fun _ h => h.setEntry).storeTraffic

theorem Keeps.releaseSeq {c q : Nat} {v : KvConf} (h : Keeps w r s) : Keeps w r (s.releaseSeq c q v) :=
  ((h.foldNat fun _ _ h => h.releaseBlock).modCtx fun _ h => h.setSeqHead).storeTraffic

theorem Keeps.dropLab {c : Nat} (h : Keeps w r s) : Keeps w r (s.dropLab c) := h.frame

theorem Keeps.releaseAll {c : Nat} (h : Keeps w r s) : Keeps w r (s.releaseAll c) := by
  unfold State.releaseAll
  dsimp only
  split
  · exact h.frame.dropLab
  · exact (h.foldNat fun _ _ h => h.releaseSeq).frame.dropLab

/-! ### Machine/Teardown.lean -/

theorem Keeps.leaveStations {c : Nat} (h : Keeps w r s) : Keeps w r (s.leaveStations c) :=
  Keeps.ite ((h.foldNat fun _ _ h => h.modStn fun _ _ => .empty).modPart.modCtx fun _ h => h.account) h

theorem Keeps.abandonUnits {c : Nat} (h : Keeps w r s) : Keeps w r (s.abandonUnits c) := h.foldNat fun _ _ h => h.modDrover

theorem Keeps.beginTeardown {c : Nat} {reason detail : BitVec 8} {station : BitVec 16} {bundle : Nat} (h : Keeps w r s) :
    Keeps w r (s.beginTeardown c reason detail station bundle) :=
  Keeps.ite h (Keeps.ite h.modCtx h.leaveStations.abandonUnits.releaseAll.gateEvent.modCtx)

theorem Keeps.errorQps {f : Qp → Bool} (h : Keeps w r s) : Keeps w r (s.errorQps f) := Keeps.ite h.frame.hpEvent h.frame

theorem Keeps.endContext {c : Nat} (h : Keeps w r s) : Keeps w r (s.endContext c) := by
  have h₁ : ∀ {f : Ctx → Ctx}, (∀ k, f k = { use_ := k.use_, energy := k.energy }) →
      Keeps w r ((s.errorQps fun q => q.kind == 1 && q.ctx == c).modCtx c f) := fun hf => h.errorQps.modCtx fun k _ => by
    rw [hf k]
    exact CanonCtx.empty
  unfold State.endContext
  dsimp only
  split
  · exact h₁ fun _ => rfl
  · exact Keeps.ite (h₁ fun _ => rfl).filterImages (h₁ fun _ => rfl)

theorem Keeps.noteTeardown {c : Nat} {b : BitVec 16} {t : Teardown} (h : Keeps w r s) : Keeps w r (s.noteTeardown c b t) :=
  Keeps.ite (Keeps.ite h.modPart.scEvent.scEvent h.modPart.scEvent).scEvent (Keeps.ite h.modPart.scEvent.scEvent
    h.modPart.scEvent)

theorem Keeps.settle {b : BitVec 16} {step : Nat} {job : BitVec 32} {first : Bool} {o : Owed} (h : Keeps w r s) :
    Keeps w r (s.settle b step job first o) :=
  Keeps.ite (Keeps.ite h.replyOwed h.replyOwed) (Keeps.ite h.frame.replyOwed h.replyOwed)

theorem Keeps.settleAll {b : BitVec 16} {step : Nat} {job : BitVec 32} {l : List Owed} (h : Keeps w r s) :
    Keeps w r (s.settleAll b step job l) := h.foldlFst fun _ _ h => h.settle

theorem Keeps.finishTeardown {c : Nat} (h : Keeps w r s) : Keeps w r (s.finishTeardown c) := by
  unfold State.finishTeardown
  dsimp only
  split
  · exact h.endContext
  · exact h.endContext.noteTeardown.logFault.postEvent.settleAll

theorem Keeps.tearDown {c : Nat} {reason : BitVec 8} (h : Keeps w r s) : Keeps w r (s.tearDown c reason) :=
  h.beginTeardown.finishTeardown

theorem Keeps.tearDownAll {reason : BitVec 8} (h : Keeps w r s) : Keeps w r (s.tearDownAll reason) :=
  h.foldNat fun _ _ h => h.tearDown

theorem Keeps.programFault {c rel bundle code : Nat} (h : Keeps w r s) : Keeps w r (s.programFault c rel bundle code) :=
  h.logFault.beginTeardown.modCtx

theorem Keeps.lateFault {c rel idx k code : Nat} (h : Keeps w r s) : Keeps w r (s.lateFault c rel idx k code) :=
  (Keeps.ite h.modStn h).programFault

theorem Keeps.logArrival {c : Nat} {e : LogEntry} (h : Keeps w r s) : Keeps w r (s.logArrival c e) :=
  Keeps.ite h.beginTeardown h.hamperTraffic.modCtx

theorem Keeps.incToken {c rel t n : Nat} {p : Producer} {tag : Bool} {blame : Option (Nat × Nat × Nat)} (h : Keeps w r s) :
    Keeps w r (s.incToken c rel t n p tag blame) := by
  have h₁ : Keeps w r (if (s.stn (s.stnOfCtx c rel)).arch.waitsOn t then s.modStn (s.stnOfCtx c rel) Stn.noteHeld else s) :=
    Keeps.ite (h.modStn fun _ h => h.noteHeld) h
  unfold State.incToken
  refine Keeps.ite h (Keeps.ite (Keeps.ite ?_ (Keeps.ite h₁.modArch.modCtx h₁.modArch)) (Keeps.ite h (Keeps.ite h.logArrival
    (h.modCtx fun k hk => ?_))))
  · split
    · exact h.lateFault
    · exact h.programFault
  · cases tag
    · exact hk
    · exact hk.save (hk.2 rel)

theorem Keeps.incEach {c : Nat} {rels : List Nat} {t : Nat} {k : Producer} (h : Keeps w r s) : Keeps w r (s.incEach c rels t k) :=
  h.foldNat fun _ _ h => h.incToken

theorem Keeps.fabricHold {c cause peer : Nat} (h : Keeps w r s) : Keeps w r (s.fabricHold c cause peer) :=
  Keeps.ite h h.leaveStations.abandonUnits.modCtx.modPart.fbEvent.postEvent

theorem Keeps.hbmUncorr {n o : Nat} (h : Keeps w r s) : Keeps w r (s.hbmUncorr n o) := h.modStk.hbEvent.logFault

theorem Keeps.poisonSealed {p spn : Nat} (h : Keeps w r s) : Keeps w r (s.poisonSealed p spn) := h.frame.poisonPage

theorem Keeps.pageError {p spn : Nat} {g : Option Nat} (h : Keeps w r s) : Keeps w r (s.pageError p spn g).2.2 := by
  unfold State.pageError
  dsimp only
  exact h.draw.draw.draw

theorem Keeps.pageFails {p spn : Nat} {crc : Bool} {readers : List Nat} {g : Option Nat} (h : Keeps w r s) :
    Keeps w r (s.pageFails p spn crc readers g) := by
  unfold State.pageFails
  split
  rename_i n o s₁ e₁
  have h₁ := h.pageError.trd e₁
  exact (Keeps.ite h₁.csEvent h₁).hbmUncorr.poisonSealed.foldNat fun _ _ h => h.beginTeardown

theorem Keeps.pageTraffic {p spn cls : Nat} {c : Option Nat} (h : Keeps w r s) : Keeps w r (s.pageTraffic p spn cls c) :=
  h.foldNat fun _ _ h => h.hbmBytes

theorem Keeps.granuleFetch {p o n : Nat} {c : Option Nat} (h : Keeps w r s) : Keeps w r (s.granuleFetch p o n c) :=
  h.hbmBytes.modStk

theorem Keeps.pageFetch {p spn : Nat} {c : Option Nat} (h : Keeps w r s) : Keeps w r (s.pageFetch p spn c) :=
  h.foldNat fun _ _ h => h.granuleFetch

theorem Keeps.shapeTraffic {c slot : Nat} (h : Keeps w r s) : Keeps w r (s.shapeTraffic c slot) := by
  unfold State.shapeTraffic
  split
  · exact h.storeTraffic
  · exact h

theorem Keeps.putShape {c slot v : Nat} (h : Keeps w r s) : Keeps w r (s.putShape c slot v) := by
  unfold State.putShape
  split
  · exact h.put
  · exact h

/-! ### Machine/Failures.lean -/

theorem Keeps.poisonImage {p id : Nat} {gs : List Nat} (h : Keeps w r s) : Keeps w r (s.poisonImage p id gs) :=
  h.modImage.csEvent.foldNat fun _ _ h => h.beginTeardown

theorem Keeps.loseTransit {st : Nat} (h : Keeps w r s) : Keeps w r (s.loseTransit st) := h.frame.foldl fun _ _ h => by
  split
  · exact h
  · exact Keeps.ite h.poisonImage h

theorem Keeps.failStation {st : Nat} {bits : BitVec 7} (h : Keeps w r s) : Keeps w r (s.failStation st bits) :=
  Keeps.ite h (Keeps.ite h.modStn (h.modStn.logFault.loseTransit.foldNat fun _ _ h => h.beginTeardown))

theorem Keeps.failLink {st l : Nat} (h : Keeps w r s) : Keeps w r (s.failLink st l) := by
  unfold State.failLink
  split
  · exact h
  · exact Keeps.ite h (h.modStn.modStn.logFault.foldNat fun _ _ h => h.beginTeardown)

theorem Keeps.failSlice {sl o : Nat} (h : Keeps w r s) : Keeps w r (s.failSlice sl o) :=
  Keeps.ite h h.frame.csEvent.logFault.failStation

theorem Keeps.removeChannel {n ch : Nat} (h : Keeps w r s) : Keeps w r (s.removeChannel n ch) :=
  Keeps.ite h ((((h.foldNat fun _ _ h => h.beginTeardown).foldl fun _ _ h => h.poisonSealed).filterImages.modStk.foldNat
    fun _ _ h => h.modCtx).hbEvent.logFault)

theorem Stays.stationCheckFail {st : Nat} {checks : BitVec 7} (h : Keeps w r s) : Stays w r (execStationCheckFail st checks s) :=
  .next (Keeps.ite h h.failStation)

theorem Stays.ringStopFail {router : Bool} {st : Nat} (h : Keeps w r s) : Stays w r (execRingStopFail router st s) :=
  .next (h.foldNat fun _ _ h => h.failStation)

theorem Stays.linkFail {st : Nat} {link : BitVec 2} (h : Keeps w r s) : Stays w r (execLinkFail st link s) := .next h.failLink

theorem Stays.sliceUncorrectable {sl offset : Nat} (h : Keeps w r s) : Stays w r (execSliceUncorrectable sl offset s) :=
  .next h.failSlice

theorem Keeps.hbmError {n o : Nat} {hit : HbmHit} (h : Keeps w r s) : Keeps w r (s.hbmError n o hit) := by
  unfold State.hbmError
  dsimp only
  split
  · split
    · exact h.hbmUncorr
    · exact Keeps.ite h.hbmUncorr.modImage h.hbmUncorr.poisonImage
  · exact (Keeps.ite h.hbmUncorr.csEvent h.hbmUncorr).poisonSealed.foldNat fun _ _ h => h.beginTeardown
  · exact h.hbmUncorr.csEvent.beginTeardown
  · exact h.hbmUncorr

theorem Stays.hbmUncorrectable {stack offset : Nat} {hit : HbmHit} (h : Keeps w r s) :
    Stays w r (execHbmUncorrectable stack offset hit s) := .next (Keeps.ite h h.hbmError)

theorem Keeps.correctSlice {i m : Nat} (h : Keeps w r s) : Keeps w r (s.correctSlice i m) := Keeps.ite h h.modStn.frame

theorem Keeps.correctStack {n m : Nat} (h : Keeps w r s) : Keeps w r (s.correctStack n m) := h.modStk

theorem Keeps.scrubSlice {found : ScrubFound} (h : Keeps w r s) : Keeps w r (s.scrubSlice found) := by
  unfold State.scrubSlice
  refine Keeps.ite ?_ ?_
  · split
    · exact h.modStn.frame.frame
    · exact h.modStn.frame.correctSlice.frame
    · exact h.modStn.frame.failSlice.frame
  · split
    · exact h.modStn.frame.frame.csEvent
    · exact h.modStn.frame.correctSlice.frame.csEvent
    · exact h.modStn.frame.failSlice.frame.csEvent

theorem Keeps.scrubStack {n : Nat} {found : ScrubFound} (h : Keeps w r s) : Keeps w r (s.scrubStack n found) := by
  unfold State.scrubStack
  dsimp only
  split
  · exact h.hbmBytes.modStk.modStk
  · exact h.hbmBytes.modStk.correctStack.modStk
  · exact h.hbmBytes.modStk.hbmError.modStk

theorem Stays.patrolScrubStep {target : ScrubTarget} {found : ScrubFound} (h : Keeps w r s) :
    Stays w r (execPatrolScrubStep target found s) := by
  unfold execPatrolScrubStep
  refine Stays.ite (.next h) ?_
  split
  · exact .next (Keeps.ite h.scrubSlice h)
  · exact .next (Keeps.ite h.scrubStack h)
  · refine .next ?_
    split
    · exact Keeps.ite h.correctSlice h
    · exact h
  · refine .next ?_
    split
    · exact Keeps.ite h.correctStack h
    · exact h

/-! ### Machine/Ports.lean -/

theorem Keeps.pushPort {q : Nat} (h : Keeps w r s) : Keeps w r (s.pushPort q) := by
  unfold State.pushPort
  split
  exact h.modPort.frame

theorem Keeps.sendMsg {rail : Nat} {t : BitVec 8} {m : Msg} (h : Keeps w r s) : Keeps w r (s.sendMsg rail t m) :=
  Keeps.ite h h.modPort.pushPort

theorem Keeps.departure {cause : Nat} (h : Keeps w r s) : Keeps w r (s.departure cause) := h.foldNat fun _ _ h => h.sendMsg

theorem Keeps.portEvent {q cause : Nat} (h : Keeps w r s) : Keeps w r (s.portEvent q cause) := h.postEvent

theorem Keeps.railLeaves {q : Nat} {f : Nat → Bool} (h : Keeps w r s) : Keeps w r (s.railLeaves q f) :=
  h.foldNat fun _ _ h => h.modDrover

theorem Keeps.portDrained {q : Nat} (h : Keeps w r s) : Keeps w r (s.portDrained q) :=
  Keeps.ite h.modPort.portEvent h.modPort.portEvent.modPort

theorem Keeps.endDrains {f : FabPort → Bool} {e : State → Nat → State} (h : Keeps w r s)
    (he : ∀ s x, Keeps w r s → Keeps w r (e s x)) : Keeps w r (s.endDrains f e) := h.foldNat fun _ _ h => Keeps.ite (he _ _ h) h

theorem Keeps.cutDrains (h : Keeps w r s) : Keeps w r s.cutDrains := h.endDrains fun _ _ h => h.modPort

theorem Keeps.portDown {q cause : Nat} (h : Keeps w r s) : Keeps w r (s.portDown q cause) :=
  Keeps.ite h.railLeaves.modPort.fbEvent.logFault.portEvent.portDrained h.railLeaves.modPort.fbEvent.logFault.portEvent.modPort

theorem Keeps.toCredits {q : Nat} (h : Keeps w r s) : Keeps w r (s.toCredits q) :=
  h.modPort.foldl fun _ _ h => h.foldNat fun _ _ h => h.emit

theorem Keeps.judge {q : Nat} {far : Sys2Proof.Ident} (h : Keeps w r s) : Keeps w r (s.judge q far) := by
  unfold State.judge
  split
  · exact h.modPort
  · exact Keeps.ite h.modPort (Keeps.ite h.toCredits h.modPort.fbEvent.portEvent)

theorem Stays.portLaneLock {q : Nat} {locked : BitVec 8} (h : Keeps w r s) : Stays w r (execPortLaneLock q locked s) :=
  Stays.ite (.next h) (.next h.modPort)

theorem Stays.identityFlitSend {q : Nat} (h : Keeps w r s) : Stays w r (execIdentityFlitSend q s) :=
  Stays.ite (.next h) (.next h.modPort.emit)

theorem Stays.identityFlitRx {q : Nat} {record : Bytes} (h : Keeps w r s) : Stays w r (execIdentityFlitRx q record s) :=
  Stays.ite (.next h) (.next h.modPort.judge)

theorem Stays.creditInitDone {q : Nat} {credits : List Nat} (h : Keeps w r s) : Stays w r (execCreditInitDone q credits s) :=
  Stays.ite (.next h) (.next h.modPort.portEvent)

theorem Stays.trainStepTimeout {q : Nat} (h : Keeps w r s) : Stays w r (execTrainStepTimeout q s) := by
  unfold execTrainStepTimeout
  dsimp only
  split
  · exact .next h
  · exact Stays.ite (.next h) (.next h.modPort)

theorem Stays.trainingRestart {q : Nat} (h : Keeps w r s) : Stays w r (execTrainingRestart q s) :=
  Stays.ite (.next h) (.next h.modPort)

theorem Keeps.replay {q : Nat} (h : Keeps w r s) : Keeps w r (s.replay q) := h.modPort.frame

theorem Stays.laneFail {q : Nat} {lane : BitVec 3} {codewords : Bool} (h : Keeps w r s) :
    Stays w r (execLaneFail q lane codewords s) := by
  unfold execLaneFail
  refine Stays.ite (.next h) ?_
  refine Stays.ite (.next h.modPort.logFault) ?_
  refine Stays.ite (.next (Keeps.ite h.modPort.logFault h.modPort.logFault.modPort)) ?_
  split
  rename_i d s₁ e₁
  have h₁ := h.modPort.logFault.draw.snd e₁
  exact .next (Keeps.ite h₁.modPort.replay h₁.modPort).fbEvent.portEvent

theorem Stays.portDown {q : Nat} (h : Keeps w r s) : Stays w r (execPortDown q s) :=
  Stays.ite (.next h) (Stays.ite (.next h.portDown) (Stays.ite (.next h.portDown) (.next h)))

theorem Stays.farEndSilent {q : Nat} (h : Keeps w r s) : Stays w r (execFarEndSilent q s) :=
  Stays.ite (.next h) (.next h.portDown)

theorem Keeps.flitBack {q : Nat} {f : Flit} (h : Keeps w r s) : Keeps w r (s.flitBack q f) :=
  Keeps.ite (Keeps.ite h.modPort.replay h.modPort).pushPort.portDrained (Keeps.ite h.modPort.replay h.modPort).pushPort

theorem Keeps.acceptFlit {i : Nat} {f : Flit} (h : Keeps w r s) : Keeps w r (s.acceptFlit i f).2 := h.modPort.emit

theorem Keeps.takeFlit {q : Nat} {f : Flit} (h : Keeps w r s) : Keeps w r (s.takeFlit q f).2 := by
  unfold State.takeFlit
  dsimp only
  split
  · exact h.modPort.modPort.emit
  · split
    · split
      · exact h.modPort
      · exact h.modPort.flitBack.acceptFlit
    · split
      · exact h.modPort.flitBack
      · exact h.modPort

/-! ### Machine/Power.lean -/

theorem Keeps.setEnvelope {v source : Nat} {lease : Option Nat} (h : Keeps w r s) : Keeps w r (s.setEnvelope v source lease) :=
  h.frame

theorem Keeps.toFallback {source : Nat} (h : Keeps w r s) : Keeps w r (s.toFallback source) := h.setEnvelope

theorem Keeps.chargeHold {p : Nat} {c : Option Nat} {e : Nat} (h : Keeps w r s) : Keeps w r (s.chargeHold p c e) := by
  unfold State.chargeHold
  dsimp only
  split
  · exact h.modPart.modCtx
  · exact h.modPart

theorem Keeps.chargeHolding {ns p : Nat} (h : Keeps w r s) : Keeps w r (s.chargeHolding ns p) := h.foldNat fun _ _ h => by
  dsimp only
  split
  · exact h.chargeHold
  · exact Keeps.ite h h.chargeHold

theorem Keeps.startMetering (h : Keeps w r s) : Keeps w r s.startMetering := Keeps.ite h h.frame

/-! ### Machine/Transit.lean -/

theorem Keeps.transitBytes {st n : Nat} (h : Keeps w r s) : Keeps w r (s.transitBytes st n) := h.modStn.charge

theorem Keeps.writeDown {t : Transit} (h : Keeps w r s) : Keeps w r (s.writeDown t) := by
  unfold State.writeDown
  extract_lets s₁
  have h₁ : Keeps w r s₁ := h.transitBytes
  clear_value s₁
  split
  · exact h₁.hbmBytes.split (fun hr => (h₁.memories hr).split) fun hr => wf_wrBytes _ _ _ (h₁.memories hr).hbm
  · split
    · exact h₁
    · exact h₁.imageTraffic.modImage fun _ h => wf_wrBytes _ _ _ h

theorem Keeps.drainOne {k : Nat} (h : Keeps w r s) : Keeps w r (s.drainOne k) := by
  unfold State.drainOne
  split
  · exact h
  · exact h.frame.writeDown

theorem Keeps.drainAll {k : Nat} (h : Keeps w r s) : Keeps w r (s.drainAll k) := h.foldNat fun _ _ h => h.drainOne

theorem Keeps.makeRoom {k n : Nat} (h : Keeps w r s) : Keeps w r (s.makeRoom k n) := h.foldNat fun _ _ h => Keeps.ite h h.drainOne

theorem Keeps.inbound {k n : Nat} {t : Nat → Transit} (h : Keeps w r s) : Keeps w r (s.inbound k n t) := by
  unfold State.inbound
  split
  rename_i d s₁ e₁
  have h₁ := h.draw.snd e₁
  exact h₁.makeRoom.transitBytes.modStn.frame

theorem Stays.transitWriteDown {eighth : Nat} (h : Keeps w r s) : Stays w r (execTransitWriteDown eighth s) :=
  .next (Keeps.ite h h.drainOne)

theorem Keeps.splitWrite {a : Nat} {bs : Bytes} (h : Keeps w r s) : Keeps w r (s.splitWrite a bs) := h.foldl fun _ _ h =>
  Keeps.ite (h.modStn.split (fun hr => wf_wrBytes _ _ _ (h.memories hr).split) fun hr => (h.memories hr).hbm) h.inbound

theorem Keeps.splitTraffic {a n : Nat} (h : Keeps w r s) : Keeps w r (s.splitTraffic a n) :=
  h.foldl fun _ _ h => Keeps.ite h.modStn h.hbmBytes

/-! ### Machine/Racing.lean -/

theorem Keeps.seenStore {c : Nat} (h : Keeps w r s) : Keeps w r (s.seenStore c) := Keeps.ite h h.frame

/-! ### Machine/Remote.lean -/

theorem Keeps.respond {m : Msg} {st : RspStatus} {data : Bytes} (h : Keeps w r s) : Keeps w r (s.respond m st data) := h.sendMsg

theorem Keeps.discard {bit : Nat} (h : Keeps w r s) : Keeps w r (s.discard bit) := h.frame.fbEvent

theorem Keeps.onMsg {t : BitVec 8} {m : Msg} {f : State → State} (h : Keeps w r s) (hf : ∀ s, Keeps w r s → Keeps w r (f s)) :
    Keeps w r (s.onMsg t m f) := Keeps.ite h (Keeps.ite h.discard (hf _ h))

theorem Keeps.onJob {m : Msg} {f : State → Nat → State} (h : Keeps w r s) (hf : ∀ s x, Keeps w r s → Keeps w r (f s x)) :
    Keeps w r (s.onJob m f) := by
  unfold State.onJob
  split
  · exact h.respond
  · exact Keeps.ite h.respond (hf _ _ h)

theorem Keeps.queueReq {p : Nat} {t : BitVec 8} {m : Msg} (h : Keeps w r s) : Keeps w r (s.queueReq p t m) :=
  Keeps.ite h.respond h.frame

theorem Keeps.mergeRead {p d : Nat} (h : Keeps w r s) : Keeps w r (s.mergeRead p d) := h.frame.modDrover

theorem Keeps.granuleTraffic {c a n : Nat} (h : Keeps w r s) : Keeps w r (s.granuleTraffic c a n) := by
  unfold State.granuleTraffic
  dsimp only
  refine Keeps.ite h.draw.frame.mergeRead ?_
  refine Keeps.ite h.draw.frame.granuleFetch ?_
  split
  · exact h.draw.frame.imageTraffic
  · exact h.draw.frame

theorem Keeps.readTraffic {c a n : Nat} (h : Keeps w r s) : Keeps w r (s.readTraffic c a n) :=
  Keeps.ite h.granuleTraffic h.seenStore.storeTraffic

theorem Keeps.serveRead {t : BitVec 8} {m : Msg} {n c : Nat} (h : Keeps w r s) : Keeps w r (s.serveRead t m n c) := by
  unfold State.serveRead
  split
  · exact h.readTraffic.respond
  · exact (Keeps.ite h.pageFails h).respond
  · exact h.respond
  · exact h.queueReq

theorem Keeps.remoteStore {c a : Nat} {bs : Bytes} (h : Keeps w r s) : Keeps w r (s.remoteStore c a bs) := h.put

theorem Keeps.serveWrite {t : BitVec 8} {m : Msg} {c : Nat} (h : Keeps w r s) : Keeps w r (s.serveWrite t m c) :=
  Keeps.ite h.respond (Keeps.ite h.queueReq h.remoteStore.respond)

theorem Keeps.serveAtomic {m : Msg} {c : Nat} (h : Keeps w r s) : Keeps w r (s.serveAtomic m c) :=
  Keeps.ite h.respond (Keeps.ite h.queueReq h.seenStore.remoteStore.modCtx.respond)

theorem Keeps.serveNotify {m : Msg} {c : Nat} (h : Keeps w r s) : Keeps w r (s.serveNotify m c) :=
  Keeps.ite h.respond h.incToken.respond

theorem Keeps.serveReq {t : BitVec 8} {m : Msg} {c : Nat} (h : Keeps w r s) : Keeps w r (s.serveReq t m c) := by
  unfold State.serveReq
  split
  · exact h.serveRead
  · exact h.serveWrite
  · exact h.serveWrite
  · exact h.serveRead
  · exact h.serveAtomic
  · exact h.serveNotify

theorem Keeps.onReq {t : BitVec 8} {m : Msg} (h : Keeps w r s) : Keeps w r (s.onReq t m) :=
  h.onMsg fun _ h => h.onJob fun _ _ h => Keeps.ite h.queueReq h.serveReq

theorem Keeps.serveWaiting (h : Keeps w r s) : Keeps w r s.serveWaiting :=
  h.frame.foldl fun _ _ h => h.onJob fun _ _ h => Keeps.ite h.queueReq h.serveReq

/-! ### Machine/Fabric.lean -/

theorem Keeps.launch {d : Nat} {u : DUnit} (h : Keeps w r s) : Keeps w r (s.launch d u) := by
  unfold State.launch
  split
  · exact h.fabricHold
  · exact h.modDrover.sendMsg

theorem Keeps.admitUnit {d : Nat} {u : DUnit} {e : Nat} (h : Keeps w r s) : Keeps w r (s.admitUnit d u e) := h.modDrover.launch

theorem Keeps.issueUnit {d : Nat} {u : DUnit} (h : Keeps w r s) : Keeps w r (s.issueUnit d u) := by
  unfold State.issueUnit
  refine Keeps.ite h.fabricHold (Keeps.ite h.modDrover (Keeps.ite h.modDrover ?_))
  split
  · exact h.modDrover
  · exact h.admitUnit

theorem Keeps.enterUnit {d : Nat} {u : DUnit} (h : Keeps w r s) : Keeps w r (s.enterUnit d u) := by
  unfold State.enterUnit
  refine Keeps.ite h.launch ?_
  refine Keeps.ite h ?_
  refine Keeps.ite h.fabricHold ?_
  split
  · exact h
  · exact h.modDrover.admitUnit

theorem Keeps.descDone {d id : Nat} (h : Keeps w r s) : Keeps w r (s.descDone d id) := by
  unfold State.descDone
  split
  · exact h
  · exact Keeps.ite h h.modDrover.incToken

theorem Keeps.unitDone {d id : Nat} (h : Keeps w r s) : Keeps w r (s.unitDone d id) := h.modDrover.descDone

theorem Keeps.serveLocal {d : Nat} {f : FabDesc} {i : Nat} (h : Keeps w r s) : Keeps w r (s.serveLocal d f i) := by
  unfold State.serveLocal
  dsimp only
  split
  · exact h
  · exact Keeps.ite h.lateFault (Keeps.ite h.beginTeardown h.imageTraffic.remoteStore.unitDone)

theorem Keeps.issueNext {d : Nat} {f : FabDesc} (h : Keeps w r s) : Keeps w r (s.issueNext d f) :=
  Keeps.ite h.modDrover.modDrover.serveLocal (Keeps.ite h.modDrover h.modDrover.seenStore.storeTraffic).issueUnit

theorem Keeps.pump {n d : Nat} (h : Keeps w r s) : Keeps w r (State.pump n d s) := by
  induction n generalizing s with
  | zero => exact h
  | succ n ih =>
    unfold State.pump
    split
    · exact h
    · exact ih h.issueNext

theorem Keeps.goOn {d : Nat} (h : Keeps w r s) : Keeps w r (s.goOn d) := (h.foldl fun _ _ h => h.enterUnit).pump

theorem Stays.droverDescriptorStart {d : Nat} (h : Keeps w r s) : Stays w r (execDroverDescriptorStart d s) := by
  unfold execDroverDescriptorStart
  split
  · exact .next h
  · exact Stays.ite (.next h) (.next h.modDrover.goOn)

theorem Keeps.engineSend {c p : Nat} {t : BitVec 8} {flags aux remote : Nat} {data : Bytes} {kind : UnitKind} (h : Keeps w r s) :
    Keeps w r (s.engineSend c p t flags aux remote data kind) := h.frame.issueUnit

theorem Keeps.plainSend {pkg : Nat} {job : BitVec 32} {t : BitVec 8} {remote : Nat} {data : Bytes} (h : Keeps w r s) :
    Keeps w r (s.plainSend pkg job t remote data) := by
  unfold State.plainSend
  split
  · exact h
  · exact h.sendMsg

theorem Keeps.dropUnit {d : Nat} {u : DUnit} (h : Keeps w r s) : Keeps w r (s.dropUnit d u) := h.modDrover

theorem Keeps.unitOk {d : Nat} {u : DUnit} {m : Msg} (h : Keeps w r s) : Keeps w r (s.unitOk d u m) := by
  unfold State.unitOk
  dsimp only
  split
  · exact h.dropUnit.modDrover
  · exact h.dropUnit.modDrover.modCtx
  · exact h.dropUnit.modDrover.modCtx
  · split
    · exact h.dropUnit
    · split
      · exact h.dropUnit.remoteStore.unitDone
      · exact h.dropUnit.remoteStore.unitDone
      · exact h.dropUnit.remoteStore.unitDone
      · exact h.dropUnit.unitDone

theorem Keeps.unitRetry {d : Nat} {u : DUnit} (h : Keeps w r s) : Keeps w r (s.unitRetry d u) := h.modDrover

theorem Keeps.unitUnreachable {d : Nat} {u : DUnit} (h : Keeps w r s) : Keeps w r (s.unitUnreachable d u) := by
  unfold State.unitUnreachable
  dsimp only
  exact Keeps.ite h.frame.railLeaves.fbEvent.modDrover.modDrover h.frame.railLeaves.fbEvent.modDrover.launch

theorem Keeps.unitAnswer {d : Nat} {u : DUnit} {m : Msg} (h : Keeps w r s) : Keeps w r (s.unitAnswer d u m) := by
  unfold State.unitAnswer
  dsimp only
  split
  · exact h.modDrover.unitOk
  · exact h.modDrover.unitRetry
  · exact h.modDrover.dropUnit.lateFault
  · exact h.modDrover.fabricHold
  · exact h.modDrover.dropUnit.beginTeardown
  · exact h.modDrover.unitUnreachable
  · exact h.modDrover.discard

theorem Stays.response {m : Msg} (h : Keeps w r s) : Stays w r (execResponse m s) := .next (h.onMsg fun _ h => by
  split
  · exact h.discard
  · exact h.unitAnswer.goOn)

theorem Stays.retryResend {d i : Nat} (h : Keeps w r s) : Stays w r (execRetryResend d i s) := by
  unfold execRetryResend
  split
  · exact .next h
  · exact Stays.ite (.next h) (.next h.launch.goOn)

theorem Stays.unitTimeout {d i : Nat} (h : Keeps w r s) : Stays w r (execUnitTimeout d i s) := by
  unfold execUnitTimeout
  split
  · exact .next h
  · exact Stays.ite (.next h) (.next h.modDrover.dropUnit.fabricHold.goOn)

theorem Stays.heldUnitsRelease {pkg : Nat} (h : Keeps w r s) : Stays w r (execHeldUnitsRelease pkg s) :=
  Stays.ite (.next h) (.next ((h.foldNat fun _ _ h => h.modDrover).foldNat fun _ _ h => Keeps.ite h (h.foldl fun _ _ h =>
    Keeps.ite h.enterUnit h).goOn))

theorem Stays.holdExpire {c : Nat} (h : Keeps w r s) : Stays w r (execHoldExpire c s) := by
  unfold execHoldExpire
  dsimp only
  split
  · exact .next h
  · exact Stays.ite (.next h.beginTeardown) (.next h)

theorem Stays.quarantineEnd {job : BitVec 32} (h : Keeps w r s) : Stays w r (execQuarantineEnd job s) := .next h.frame

theorem Stays.departure {m : Msg} (h : Keeps w r s) : Stays w r (execDeparture m s) :=
  .next (h.onMsg fun _ h => (h.frame.fbEvent.foldNat fun _ _ h => h.fabricHold).postEvent)

/-! ### Machine/Tally.lean -/

theorem Keeps.latchAll (h : Keeps w r s) : Keeps w r s.latchAll :=
  (((h.foldNat fun _ _ h => h.modStn).foldNat fun _ _ h => h.modStk).foldNat fun _ _ h => h.modDrover).frame

theorem Keeps.clearAll (h : Keeps w r s) : Keeps w r s.clearAll :=
  (((h.foldNat fun _ _ h => h.modStn).foldNat fun _ _ h => h.modStk).foldNat fun _ _ h => h.modDrover).frame

theorem Keeps.pulse {flags : Nat} (h : Keeps w r s) : Keeps w r (s.pulse flags) := by
  unfold State.pulse
  dsimp only
  split
  · exact Keeps.ite h.latchAll.frame.clearAll h.latchAll.frame
  · exact Keeps.ite (Keeps.ite h.frame.clearAll h.frame) h.frame.tlEvent

theorem Keeps.roceSent {n : Nat} (h : Keeps w r s) : Keeps w r (s.roceSent n) := h.gateEvent

theorem Keeps.modQp {qpn : Nat} {f : Qp → Qp} (h : Keeps w r s) : Keeps w r (s.modQp qpn f) := h.frame

theorem Keeps.ringTraffic {a n : Nat} (h : Keeps w r s) : Keeps w r (s.ringTraffic a n) := h.foldNat fun _ _ h => h.modStn

theorem Keeps.writeHead (h : Keeps w r s) : Keeps w r s.writeHead := by
  unfold State.writeHead
  split
  · exact h.ringTraffic.roceSent.emit.modQp
  · exact h

theorem Keeps.endStream {status : BitVec 16} (h : Keeps w r s) : Keeps w r (s.endStream status) := by
  unfold State.endStream
  dsimp only
  split
  · exact h.frame.replyOwed
  · exact h.frame

theorem Keeps.stopStream {owed : Option Owed} (h : Keeps w r s) : Keeps w r (s.stopStream owed) := by
  unfold State.stopStream
  split
  · exact h
  · exact Keeps.ite h.frame.endStream h.frame

theorem Keeps.streamOwnerGone {k : Slot} (h : Keeps w r s) : Keeps w r (s.streamOwnerGone k) := by
  unfold State.streamOwnerGone
  split
  · exact h
  · exact Keeps.ite h h.frame.stopStream

theorem Keeps.streamFails {qpn : Nat} (h : Keeps w r s) : Keeps w r (s.streamFails qpn) := by
  unfold State.streamFails
  split
  · exact h
  · exact Keeps.ite h h.endStream.tlEvent

theorem Keeps.collected {k : Collect} (h : Keeps w r s) : Keeps w r (s.collected k) := by
  unfold State.collected
  dsimp only
  split
  · exact h.frame
  · exact Keeps.ite h.frame (Keeps.ite h.frame.frame.tlEvent (Keeps.ite h.frame.frame.ringTraffic.frame.writeHead
      h.frame.frame.ringTraffic.frame))

theorem Keeps.recordWritten (h : Keeps w r s) : Keeps w r s.recordWritten := by
  unfold State.recordWritten
  split
  · exact Keeps.ite (Keeps.ite h.frame.endStream h.frame) h.frame.writeHead
  · exact h

/-! ### Machine/Life.lean -/

theorem Keeps.batonEvent {kind : Nat} {k : Slot} (h : Keeps w r s) : Keeps w r (s.batonEvent kind k) := h.postEvent

theorem Keeps.freeBaton (h : Keeps w r s) : Keeps w r s.freeBaton := h.frame

theorem Keeps.endSession {k : Slot} (h : Keeps w r s) : Keeps w r (s.endSession k) :=
  Keeps.ite h.streamOwnerGone.modSession.freeBaton.batonEvent h.streamOwnerGone.modSession

theorem Keeps.endSessions (h : Keeps w r s) : Keeps w r s.endSessions := h.streamOwnerGone.streamOwnerGone.frame.freeBaton

theorem Keeps.dropStream (h : Keeps w r s) : Keeps w r s.dropStream := h.frame

theorem Keeps.dropOwed (h : Keeps w r s) : Keeps w r s.dropOwed := by
  unfold State.dropOwed
  extract_lets s₁
  have h₁ : Keeps w r s₁ := h.foldNat fun _ _ h => h.modCtx
  exact (h₁.noSerial (cmd := { s₁.cmd with serial := [] }) rfl).frame

theorem Keeps.leaveSplit (h : Keeps w r s) : Keeps w r s.leaveSplit := Keeps.ite h.errorQps h

theorem Keeps.halted (h : Keeps w r s) : Keeps w r s.halted := Keeps.ite h h.cutDrains.leaveSplit.setMode.endSessions

theorem Keeps.zeroSlices (h : Keeps w r s) : Keeps w r s.zeroSlices :=
  h.dropStream.split (fun _ => rfl) fun hr => (h.memories hr).hbm

/-- A package whose dies have lost their power. -/
theorem Keeps.darken {bring : Bring} {pfx : Pfx} (h : Keeps w r s) :
    Keeps w r { s with bring, cst := { s.cst with hbm := [] }, images := [], pages := [], seals := [], pfx } :=
  ((h.frame (cst := s.cst)).split (cst := { s.cst with hbm := [] }) (fun hr => (h.memories hr).split) fun _ => rfl).noImages

theorem Keeps.diesOff (h : Keeps w r s) : Keeps w r s.diesOff :=
  (h.foldNat fun _ _ h => h.modStn fun _ _ => CanonArch.empty).zeroSlices.darken

theorem Keeps.doHalt (h : Keeps w r s) : Keeps w r s.doHalt := h.departure.dropOwed.tearDownAll.halted

theorem Keeps.eraseKeys (h : Keeps w r s) : Keeps w r s.eraseKeys := (h.foldNat fun _ _ h => h.modPart).frame

theorem Keeps.contain {cause : Nat} {reason : BitVec 8} (h : Keeps w r s) : Keeps w r (s.contain cause reason) :=
  h.departure.tearDownAll.zeroSlices.eraseKeys.endSessions.halted

theorem Keeps.zeroizeBegin (h : Keeps w r s) : Keeps w r s.zeroizeBegin := h.dropOwed.contain.frame

theorem Keeps.zeroizeEnd (h : Keeps w r s) : Keeps w r s.zeroizeEnd :=
  (h.split (cst := { s.cst with hbm := [] }) (fun hr => (h.memories hr).split) fun _ => rfl).noImages.frame

theorem Keeps.saveEntries {reason : BitVec 8} (h : Keeps w r s) : Keeps w r (s.saveEntries reason) :=
  h.foldNat fun _ _ h => h.logFaultQuiet

theorem Keeps.closeSaved (h : Keeps w r s) : Keeps w r s.closeSaved := Keeps.ite h (Keeps.ite h h.gvEvent).frame

theorem Keeps.beginQuiet (h : Keeps w r s) : Keeps w r s.beginQuiet := Keeps.ite h h.frame

theorem Keeps.save {cause : Nat} {reason : BitVec 8} {removal : Bool} (h : Keeps w r s) :
    Keeps w r (s.save cause reason removal) := by
  unfold State.save
  extract_lets alert
  have hd := h.draw
  generalize s.draw = x at hd ⊢
  obtain ⟨d, s₀⟩ := x
  dsimp -zeta only
  extract_lets s₁ s₂ s₃ sec s₄ s₅ s₆ bring
  have h₁ : Keeps w r s₁ := hd.departure.dropOwed.saveEntries
  have h₂ : Keeps w r s₂ := Keeps.ite h₁.logFaultQuiet h₁
  have h₃ : Keeps w r s₃ := h₂.errorQps
  have h₄ : Keeps w r s₄ := h₃.noCtxs.frame
  have h₅ : Keeps w r s₅ := h₄.foldNat fun _ _ h => h.modPart
  have h₆ : Keeps w r s₆ := h₅.diesOff.closeSaved.halted.beginQuiet
  clear_value s₆
  exact h₆.frame

theorem Keeps.powerOff (h : Keeps w r s) : Keeps w r s.powerOff := h.dropStream.endSessions.frame

theorem Keeps.createPart {p : Nat} (h : Keeps w r s) : Keeps w r (s.createPart p) := by
  unfold State.createPart
  split
  rename_i d s₁ e₁
  have h₁ := h.draw.snd e₁
  exact h₁.modPart

theorem Keeps.createLayout {n : Nat} (h : Keeps w r s) : Keeps w r (s.createLayout n) := by
  have h₁ : Keeps w r { s with ctxs := [], images := [], cst := { s.cst with split := [], hbm := [], transit := [] } } :=
    h.noCtxs.noImages.split (fun _ => rfl) fun _ => rfl
  exact ((h₁.frame.foldNat fun _ _ h => h.modStn fun _ _ => .empty).foldNat fun _ _ h => h.createPart)

theorem Keeps.powerDies (h : Keeps w r s) : Keeps w r s.powerDies :=
  ((h.foldNat fun _ _ h => h.modStn).foldNat fun _ _ h => h.modStk).frame

theorem Keeps.tryDies (h : Keeps w r s) : Keeps w r s.tryDies := Keeps.ite h.powerDies h

theorem mget_arch_filterMap {l : Sparse Stn} {f : Nat × Stn → Option (Nat × Stn)}
    (hf : ∀ p q, f p = some q → q.2.arch = {}) (j : Nat) : (mget {} (l.filterMap f) j).arch = {} := by
  induction l with
  | nil => rfl
  | cons p l ih =>
    rw [List.filterMap_cons]
    split
    · exact ih
    · rename_i q e
      rw [mget]
      split
      · exact hf p q e
      · exact ih

theorem Keeps.reinit (h : Keeps w r s) : Keeps w r s.reinit := by
  refine h.trans ⟨rfl, fun _ => .ofEmpty rfl rfl rfl rfl fun j => ?_, .inr fun _ => rfl⟩
  have hj : (s.reinit.arch j) = {} := mget_arch_filterMap (fun p q e => by
    obtain ⟨i, t⟩ := p
    dsimp only at e
    split at e
    · cases e
    · obtain ⟨⟩ := e
      rfl) j
  rw [hj]
  rfl

theorem Keeps.warmReset (h : Keeps w r s) : Keeps w r s.warmReset :=
  Keeps.ite h (Keeps.ite h.departure.dropOwed.tearDownAll.endSessions.diesOff.reinit.toFallback.setMode
    h.departure.dropOwed.tearDownAll.endSessions.diesOff.reinit.toFallback).frame

theorem Keeps.enterSplit (h : Keeps w r s) : Keeps w r s.enterSplit :=
  Keeps.ite h.createLayout.frame.frame.seEvent h.createLayout.frame

theorem Keeps.trySplit (h : Keeps w r s) : Keeps w r s.trySplit := Keeps.ite h.enterSplit h

/-! ### Machine/Alarm.lean -/

theorem Keeps.logAlarm {source level action part : Nat} {detail : Word} (h : Keeps w r s) :
    Keeps w r (s.logAlarm source level action part detail) := h.frame.seEvent.postEvent

theorem Keeps.revoke (h : Keeps w r s) : Keeps w r s.revoke := h.frame

theorem Keeps.actAlarm {level : Nat} (h : Keeps w r s) : Keeps w r (s.actAlarm level) := by
  unfold State.actAlarm
  refine Keeps.ite h ?_
  dsimp only
  exact Keeps.ite (Keeps.ite h.frame.seEvent h.frame.seEvent).contain.draw.frame.revoke (Keeps.ite h.frame.seEvent
    h.frame.seEvent).contain.draw.frame

theorem Keeps.alarmDuring {source level part : Nat} {detail : Word} (h : Keeps w r s) :
    Keeps w r (s.alarmDuring source level part detail) := Keeps.ite h.logAlarm.frame.seEvent.revoke h.logAlarm

theorem Keeps.fireAlarm {source part : Nat} {detail : Word} (h : Keeps w r s) : Keeps w r (s.fireAlarm source part detail) :=
  Keeps.ite h.logAlarm.frame (Keeps.ite (Keeps.ite h.logAlarm.revoke h.logAlarm) (Keeps.ite h.alarmDuring
    (Keeps.ite h.logAlarm h.logAlarm.actAlarm)))

theorem Keeps.applyDeferred (h : Keeps w r s) : Keeps w r s.applyDeferred := h.frame.actAlarm

theorem Keeps.trip {who : Requester} {detail : Word} (h : Keeps w r s) : Keeps w r (s.trip who detail) := by
  unfold State.trip
  dsimp only
  split
  · exact h.frame.seEvent.beginTeardown
  · exact h.frame.seEvent

theorem Stays.alarmFire {source : Nat} {partition : Requester} {detail : Word} (h : Keeps w r s) :
    Stays w r (execAlarmFire source partition detail s) :=
  Stays.ite (.next h) (Stays.ite (.next (Keeps.ite h.frame h)) (Stays.ite (.next h.frame.fireAlarm)
    (Stays.ite (.next h.trip.fireAlarm) (Stays.ite (.next h.frame.fireAlarm) (.next h.fireAlarm)))))

theorem Stays.fwIntegrityCheck {digest : BitVec 512} (h : Keeps w r s) : Stays w r (execFwIntegrityCheck digest s) :=
  .next (Keeps.ite h.fireAlarm h)

theorem Keeps.alarmPolicy {p : Pkt} {x : Slot} (h : Keeps w r s) : Keeps w r (s.alarmPolicy p x) := h.withParams fun _ h => by
  split
  · exact h.reply
  · exact Keeps.ite h.reply h.frame.reply

theorem Stays.alarmPolicy {p : Pkt} (h : Keeps True r s) : Stays True r (execAlarmPolicy p s) :=
  .next (h.receive fun _ _ _ h => h.alarmPolicy)

theorem Stays.attest {p : Pkt} (h : Keeps True r s) : Stays True r (execAttest p s) :=
  .next (h.receive fun _ _ _ h => h.withParams fun _ h => by
  refine Keeps.ite h.reply ?_
  split
  · exact h.reply
  · exact h.reply)

theorem Keeps.beginFw {owed : Option Owed} {img : Bytes} (h : Keeps w r s) : Keeps w r (s.beginFw owed img) := by
  unfold State.beginFw
  split
  rename_i d s₁ e₁
  have h₁ := h.draw.snd e₁
  split
  rename_i e s₂ e₂
  have h₂ := h₁.draw.snd e₂
  exact h₂.frame

/-! ### Machine/HostPort.lean -/

theorem Keeps.onFrame {f : Frame} {g : State → State} (h : Keeps w r s) (hg : ∀ s, Keeps w r s → Keeps w r (g s)) :
    Keeps w r (s.onFrame f g) := Keeps.ite h (Keeps.ite (hg _ h.heardBytes) h.heardBytes.missed)

theorem Stays.frameDiscard {f : Frame} (h : Keeps w r s) : Stays w r (execFrameDiscard f s) :=
  .next (h.onFrame fun _ h => h.dropFrame)

theorem Stays.arp {f : Frame} {m : ArpMsg} (h : Keeps w r s) : Stays w r (execArp f m s) :=
  .next (h.onFrame fun _ h => Keeps.ite h.emit h)

theorem Stays.neighborDiscovery {f : Frame} {m : NdMsg} (h : Keeps w r s) : Stays w r (execNeighborDiscovery f m s) :=
  .next (h.onFrame fun _ h => by
  split
  · exact Keeps.ite h.emit h
  · exact h
  · exact Keeps.ite h.hpEvent.frame h)

theorem Stays.icmpEcho {f : Frame} {v6 : Bool} {src dst : BitVec 128} {body : Bytes} (h : Keeps w r s) :
    Stays w r (execIcmpEcho f v6 src dst body s) := .next (h.onFrame fun _ h => Keeps.ite h.emit h)

theorem Keeps.probeAddrs (h : Keeps w r s) : Keeps w r s.probeAddrs := Keeps.ite h.emit.emit h.emit

theorem Stays.hostLinkUp (h : Keeps w r s) : Stays w r (execHostLinkUp s) :=
  Stays.ite (.next h) (.next h.frame.hpEvent.probeAddrs)

theorem Stays.hostLinkDown (h : Keeps w r s) : Stays w r (execHostLinkDown s) := Stays.ite (.next h) (.next h.frame.hpEvent)

theorem Stays.plouthDiscard {payload : Datagram} (h : Keeps w r s) : Stays w r (execPlouthDiscard payload s) :=
  Stays.ite (.next h.heardBytes.dropFrame) (.next h)

theorem Stays.eventRetransmit {slot : Slot} (h : Keeps w r s) : Stays w r (execEventRetransmit slot s) := by
  unfold execEventRetransmit
  dsimp only
  split
  · exact .next h
  · exact Stays.ite (.next h) (.next h.modSession.sendEvent)

theorem Keeps.roce {q : RdmaReq} {z : Roce} (h : Keeps w r s) : Keeps w r (s.roce q z) := h.emit

theorem Keeps.roceData {q : RdmaReq} {bs : Bytes} (h : Keeps w r s) : Keeps w r (s.roceData q bs) := h.roceSent.roce

theorem Keeps.ceMark {p : Qp} {ce : Bool} (h : Keeps w r s) : Keeps w r (s.ceMark p ce) := Keeps.ite h.modQp.emit.frame h

theorem Keeps.onQp {q : RdmaReq} {n header : Nat} {f again : State → Qp → State} (h : Keeps w r s)
    (hf : ∀ s x, Keeps w r s → Keeps w r (f s x)) (hagain : ∀ s x, Keeps w r s → Keeps w r (again s x)) :
    Keeps w r (s.onQp q n header f again) := by
  unfold State.onQp
  refine Keeps.ite h ?_
  refine Keeps.ite h.heardBytes.missed ?_
  refine Keeps.ite h.heardBytes ?_
  split
  · exact h.heardBytes
  · exact Keeps.ite h.heardBytes.ceMark.roce (Keeps.ite h.heardBytes.ceMark.roce
      (Keeps.ite (hagain _ _ h.heardBytes.ceMark) (Keeps.ite h.heardBytes.ceMark.roce
      (Keeps.ite h.heardBytes.ceMark.roce (hf _ _ h.heardBytes.ceMark)))))

theorem Keeps.advancePsn {p : Qp} {n : Nat} (h : Keeps w r s) : Keeps w r (s.advancePsn p n) := h.modQp

theorem Keeps.roceDone {p : Qp} {q : RdmaReq} {n : Nat} (h : Keeps w r s) : Keeps w r (s.roceDone p q n) :=
  h.gateEvent.advancePsn.roce

theorem Keeps.imageWrite {c : Nat} {g : Image} {o : Nat} {bs : Bytes} (h : Keeps w r s) : Keeps w r (s.imageWrite c g o bs) :=
  h.foldl fun _ _ h => h.inbound

theorem Keeps.notResident {c : Nat} {q : RdmaReq} (h : Keeps w r s) : Keeps w r (s.notResident c q) := h.modCtx.roce

theorem Keeps.ctxWrite {p : Qp} {q : RdmaReq} {data : Bytes} (h : Keeps w r s) : Keeps w r (s.ctxWrite p q data) := by
  unfold State.ctxWrite
  refine Keeps.ite (Keeps.ite h.notResident (Keeps.ite h.roce h.remoteStore.roceDone)) ?_
  split
  · exact h.roce
  · exact Keeps.ite h.roce h.imageWrite.roceDone

theorem Stays.rdmaWrite {q : RdmaReq} {data : Bytes} (h : Keeps w r s) : Stays w r (execRdmaWrite q data s) :=
  .next (h.onQp (fun _ _ h => Keeps.ite h.ctxWrite (Keeps.ite h.roce h.splitWrite.roceDone)) fun _ _ h => h.roce)

theorem Keeps.ctxRead {p : Qp} {q : RdmaReq} {n : Nat} (h : Keeps w r s) : Keeps w r (s.ctxRead p q n) := by
  unfold State.ctxRead
  refine Keeps.ite (Keeps.ite h.notResident (Keeps.ite h.roce h.seenStore.storeTraffic.advancePsn.roceData)) ?_
  split
  · exact h.roce
  · exact Keeps.ite h.roce h.imageTraffic.advancePsn.roceData

theorem Keeps.doRead {q : RdmaReq} {n : Nat} {p : Qp} (h : Keeps w r s) : Keeps w r (s.doRead q n p) :=
  Keeps.ite h.ctxRead (Keeps.ite h.roce h.splitTraffic.advancePsn.roceData)

theorem Stays.rdmaRead {q : RdmaReq} {len : Nat} (h : Keeps w r s) : Stays w r (execRdmaRead q len s) :=
  .next (h.onQp (fun _ _ h => h.doRead) fun _ _ h => Keeps.ite h.roce h.doRead.modQp)

theorem Keeps.sendRefused {p : Qp} {q : RdmaReq} (h : Keeps w r s) : Keeps w r (s.sendRefused p q) := h.errorQps.roce

theorem Stays.rdmaSend {q : RdmaReq} {data : Bytes} (h : Keeps w r s) : Stays w r (execRdmaSend q data s) :=
  .next (h.onQp (fun _ _ h => Keeps.ite h.sendRefused (Keeps.ite h.notResident
    (Keeps.ite h.roce h.remoteStore.modQp.roceDone.incToken))) fun _ _ h => h.roce)

theorem Stays.cnpReceive {qpn : Nat} (h : Keeps w r s) : Stays w r (execCnpReceive qpn s) :=
  Stays.ite (.next h) (.next h.modQp.heardBytes.frame)

theorem Stays.rateRecovery {qpn : Nat} (h : Keeps w r s) : Stays w r (execRateRecovery qpn s) := .next h.modQp

theorem Keeps.sentOn {qpn : Nat} (h : Keeps w r s) : Keeps w r (s.sentOn qpn) := h.modQp

theorem Keeps.emitFetch {o : Owed} (h : Keeps w r s) : Keeps w r (s.emitFetch o) := h.emit.modQp

theorem Keeps.emitFwRead {q : FwRead} (h : Keeps w r s) : Keeps w r (s.emitFwRead q) := h.emit.modQp

theorem Keeps.fwReturns {q : FwRead} {img : Bytes} (h : Keeps w r s) : Keeps w r (s.fwReturns q img) := by
  unfold State.fwReturns
  refine Keeps.ite h.heardBytes.gateEvent.sentOn.frame.beginFw ?_
  split
  · exact h.heardBytes.gateEvent.sentOn.frame.replyOwed
  · exact h.heardBytes.gateEvent.sentOn.frame

theorem Stays.rdmaCompletion {qpn : Nat} {data : ReadData} (h : Keeps w r s) : Stays w r (execRdmaCompletion qpn data s) := by
  unfold execRdmaCompletion
  refine Stays.ite (.next h) ?_
  extract_lets s₁
  have h₁ : Keeps w r s₁ := by
    unfold s₁
    split
    · exact h.ceMark
    · exact h
  clear_value s₁
  split
  · exact .next h₁.heardBytes.gateEvent.sentOn.frame
  · split
    · exact .next h₁.fwReturns
    · exact Stays.ite (.next h₁.heardBytes.recordWritten.sentOn) (.next h₁)

theorem Keeps.requesterFails {qpn : Nat} (h : Keeps w r s) : Keeps w r (s.requesterFails qpn) := by
  unfold State.requesterFails
  split
  dsimp only
  split
  · exact (h.frame.foldl fun _ ⟨_, _, _⟩ h => h.replyOwed).streamFails
  · split
    · exact (h.frame.foldl fun _ ⟨_, _, _⟩ h => h.replyOwed).frame.replyOwed.streamFails
    · exact (h.frame.foldl fun _ ⟨_, _, _⟩ h => h.replyOwed).frame.streamFails

/-! ### Machine/Stream.lean -/

theorem Keeps.streamStart {p : Pkt} {k : Slot} (h : Keeps w r s) : Keeps w r (s.streamStart p k) :=
  Keeps.ite h.reply (Keeps.ite h.reply (Keeps.ite h.reply (Keeps.ite h.reply
    (Keeps.ite h.reply (Keeps.ite h.reply (Keeps.ite h.reply (Keeps.ite h.reply h.frame.reply)))))))

theorem Keeps.streamStop {p : Pkt} {k : Slot} (h : Keeps w r s) : Keeps w r (s.streamStop p k) := by
  unfold State.streamStop
  split
  · exact h.reply
  · exact Keeps.ite h.reply h.stopStream

theorem Keeps.streamCmd {p : Pkt} (h : Keeps True r s) : Keeps True r (s.streamCmd p) :=
  h.receive fun _ _ _ h => h.withParams fun _ h => by
  split
  · exact h.streamStart
  · exact h.withZeros fun _ h => h.streamStop
  · exact h.reply

theorem Stays.tallyStreamStart {p : Pkt} (h : Keeps True r s) : Stays True r (execTallyStreamStart p s) :=
  .next (Keeps.ite h h.streamCmd)

theorem Stays.tallyStreamStop {p : Pkt} (h : Keeps True r s) : Stays True r (execTallyStreamStop p s) :=
  .next (Keeps.ite h.streamCmd h)

theorem Stays.tallyPeriodPulse (h : Keeps w r s) : Stays w r (execTallyPeriodPulse s) := by
  unfold execTallyPeriodPulse
  split
  · exact .next h
  · exact Stays.ite (.next h) (.next h.frame.pulse)

theorem Stays.tallyCollectDone (h : Keeps w r s) : Stays w r (execTallyCollectDone s) := by
  unfold execTallyCollectDone
  split
  · exact .next h
  · exact .next h.collected

theorem Stays.tallyRecordWritten (h : Keeps w r s) : Stays w r (execTallyRecordWritten s) := by
  unfold execTallyRecordWritten
  split
  · exact .next h.recordWritten.sentOn
  · exact .next h

/-! ### Machine/Commands.lean -/

theorem Keeps.makeQp {p : Pkt} {k : Slot} {kind c : Nat} (h : Keeps w r s) : Keeps w r (s.makeQp p k kind c) := by
  unfold State.makeQp
  dsimp only
  exact h.draw.draw.frame.reply

theorem Keeps.createQp {p : Pkt} {k : Slot} (h : Keeps w r s) : Keeps w r (s.createQp p k) :=
  Keeps.ite h.reply (Keeps.ite h.reply (Keeps.ite (Keeps.ite h.reply
    (h.withZeros fun _ h => Keeps.ite h.reply (Keeps.ite h.reply h.makeQp))) (h.withCtx fun _ _ h => Keeps.ite h.reply
    (Keeps.ite h.reply (Keeps.ite h.reply (Keeps.ite h.reply (Keeps.ite h.reply h.makeQp)))))))

theorem Stays.qpCreate {p : Pkt} (h : Keeps True r s) : Stays True r (execQpCreate p s) :=
  .next (h.receive fun _ _ _ h => h.withLength fun _ h => Keeps.ite h.reply (h.withZeros fun _ h => h.createQp))

theorem Keeps.partLayout {p : Pkt} {x : Slot} (h : Keeps w r s) : Keeps w r (s.partLayout p x) :=
  h.withLength fun _ h => Keeps.ite h.reply (h.withZeros fun _ h => Keeps.ite h.reply
    (Keeps.ite h.reply (Keeps.ite h.reply h.tearDownAll.createLayout.frame.reply)))

theorem Stays.partLayout {p : Pkt} (h : Keeps True r s) : Stays True r (execPartLayout p s) :=
  .next (h.receive fun _ _ _ h => h.partLayout)

theorem Keeps.partKey {p : Pkt} {x : Slot} (h : Keeps w r s) : Keeps w r (s.partKey p x) :=
  h.withParams fun _ h => Keeps.ite h.reply h.modPart.reply

theorem Stays.partKey {p : Pkt} (h : Keeps True r s) : Stays True r (execPartKey p s) :=
  .next (h.receive fun _ _ _ h => h.partKey)

theorem Keeps.replan {old : Option Plan} {new : Plan} {q : Nat} (h : Keeps w r s) : Keeps w r (s.replan old new q) :=
  Keeps.ite h.modPort h.modPort.railLeaves.modPort

theorem Keeps.wiringPlan {p : Pkt} {x : Slot} (h : Keeps w r s) : Keeps w r (s.wiringPlan p x) := h.withLength fun _ h => by
  split
  · exact h.reply
  · exact Keeps.ite h.reply (Keeps.ite h.reply (h.frame.foldNat fun _ _ h => h.replan).reply)

theorem Stays.wiringPlan {p : Pkt} (h : Keeps True r s) : Stays True r (execWiringPlan p s) :=
  .next (h.receive fun _ _ _ h => h.wiringPlan)

theorem Stays.jobTeardown {p : Pkt} (h : Keeps True r s) : Stays True r (execJobTeardown p s) :=
  .next (h.receive fun _ _ _ h => h.withParams fun _ h => by
  refine Keeps.ite h.reply ?_
  split
  · exact h.frame.reply
  · exact h.frame.beginTeardown.modCtx)

theorem Keeps.netConfig {p : Pkt} {x : Slot} (h : Keeps w r s) : Keeps w r (s.netConfig p x) :=
  h.withLength fun _ h => Keeps.ite h.reply (h.withZeros fun _ h => Keeps.ite h.reply
    (Keeps.ite h.reply (Keeps.ite h.reply (Keeps.ite h.reply h.reply.frame.probeAddrs))))

theorem Stays.netConfig {p : Pkt} (h : Keeps True r s) : Stays True r (execNetConfig p s) :=
  .next (h.receive fun _ _ _ h => h.netConfig)

theorem Keeps.serviceReply {o : Owed} (h : Keeps w r s) : Keeps w r (s.serviceReply o) := h.replyOwed

theorem Keeps.toUnified (h : Keeps w r s) : Keeps w r s.toUnified := (h.errorQps.foldNat fun _ _ h => h.drainAll).setMode

theorem Keeps.toSplit (h : Keeps w r s) : Keeps w r s.toSplit := by
  unfold State.toSplit
  extract_lets s₁
  have h₁ : Keeps w r s₁ := h.foldNat fun _ _ h => h.clearLedger.modPart
  clear_value s₁
  exact (h₁.split (cst := { s₁.cst with split := [], hbm := [], transit := [] })
    (fun _ => rfl) fun _ => rfl).noImages.frame.setMode

theorem Keeps.runService {o : Owed} (h : Keeps w r s) : Keeps w r (s.runService o) :=
  Keeps.ite h.replyOwed (Keeps.ite h.replyOwed (Keeps.ite h.serviceReply
    (Keeps.ite h.toUnified.serviceReply (Keeps.ite h.replyOwed h.toSplit.serviceReply))))

theorem Keeps.runLoad {o : Owed} (h : Keeps w r s) : Keeps w r (s.runLoad o) := by
  unfold State.runLoad
  dsimp only
  split
  · exact h.replyOwed
  · exact Keeps.ite h.replyOwed h.frame.emitFetch

theorem Keeps.runQueue {n : Nat} (h : Keeps w r s) : Keeps w r (State.runQueue n s) := by
  induction n generalizing s with
  | zero => exact h
  | succ n ih =>
    unfold State.runQueue
    split
    · exact h
    · exact Keeps.ite (ih h.frame.runLoad) (Keeps.ite (ih h.frame.runService) h)

theorem Keeps.runServices (h : Keeps w r s) : Keeps w r s.runServices := h.runQueue

theorem Keeps.enqueueService {p : Pkt} {k : Slot} (h : Keeps w r s) : Keeps w r (s.enqueueService p k) := h.frame.runServices

theorem Keeps.serviceCmd {p : Pkt} (h : Keeps True r s) : Keeps True r (s.serviceCmd p) :=
  h.receive fun _ _ _ h => h.withParams fun _ h => h.enqueueService

theorem Stays.serviceStartUnified {p : Pkt} (h : Keeps True r s) : Stays True r (execServiceStartUnified p s) :=
  .next (Keeps.ite h h.serviceCmd)

theorem Stays.serviceStartSplit {p : Pkt} (h : Keeps True r s) : Stays True r (execServiceStartSplit p s) :=
  .next (Keeps.ite h.serviceCmd h)

theorem Stays.rdmaRetryTimeout {qpn : NoAnswer} (h : Keeps w r s) : Stays w r (execRdmaRetryTimeout qpn s) := by
  unfold execRdmaRetryTimeout
  extract_lets rnr q read busy
  clear_value read
  split
  · exact .next h
  · refine Stays.ite (.next h) ?_
    extract_lets s₁ s₂ s₃ s₄
    have h₁ : Keeps w r s₁ := Keeps.ite h.heardBytes h
    have h₂ : Keeps w r s₂ := h₁.modQp
    have h₃ : Keeps w r s₃ := Keeps.ite h₂.writeHead h₂
    have h₄ : Keeps w r s₄ := by
      unfold s₄
      split
      · exact h₃.emitFwRead
      · exact h₃
    exact Stays.ite (.next (h₄.foldl fun _ _ h => h.emitFetch)) (.next h₁.errorQps.requesterFails.runServices)

theorem Stays.qpDestroy {p : Pkt} (h : Keeps True r s) : Stays True r (execQpDestroy p s) :=
  .next (h.receive fun _ _ _ h => h.withParams fun _ h => Keeps.ite h.reply h.requesterFails.frame.reply.runServices)

theorem Keeps.fwUpdate {p : Pkt} {k : Slot} {answer : Option ReadData} (h : Keeps w r s) : Keeps w r (s.fwUpdate p k answer) :=
  h.withParams fun _ h => by
    dsimp only
    split
    · exact h.reply
    · refine Keeps.ite h.reply (Keeps.ite h.reply ?_)
      split
      · exact h.frame.emitFwRead
      · exact Keeps.ite h.frame.emitFwRead h.frame.emitFwRead.ceMark.fwReturns

theorem Stays.fwUpdate {p : Pkt} {answer : Option ReadData} (h : Keeps True r s) : Stays True r (execFwUpdate p answer s) :=
  .next (h.receive fun _ _ _ h => h.fwUpdate)

theorem Stays.faultLogRead {p : Pkt} (h : Keeps True r s) : Stays True r (execFaultLogRead p s) :=
  .next (h.receive fun _ _ _ h => h.withParams fun _ h => Keeps.ite h.reply (Keeps.ite h.reply (Keeps.ite h.reply h.reply)))

/-! ### Machine/RegWrite.lean -/

theorem Writes.withBaton {k : Slot} {f : RegOut} (h : Writes w r f) : Writes w r (s.withBaton k f) := by
  unfold State.withBaton
  split
  · exact h
  · exact .error

theorem Keeps.stnCtrl {i v : Nat} (h : Keeps w r s) : Keeps w r (s.stnCtrl i v) :=
  Keeps.ite (Keeps.ite h.modStn h).modStn.failStation (Keeps.ite h.modStn h)

theorem Keeps.hbCtrl {n v : Nat} (h : Keeps w r s) : Keeps w r (s.hbCtrl n v) :=
  Keeps.ite h (Keeps.ite h.modStk.removeChannel h.modStk)

theorem Keeps.csScrub {v : Nat} (h : Keeps w r s) : Keeps w r (s.csScrub v) := h.frame

theorem Keeps.hbScrub {n v : Nat} (h : Keeps w r s) : Keeps w r (s.hbScrub n v) := h.modStk

theorem Keeps.portDisable {i : Nat} {on : Bool} (h : Keeps w r s) : Keeps w r (s.portDisable i on) :=
  Keeps.ite h (Keeps.ite h.modPort (Keeps.ite (Keeps.ite h.railLeaves.modPort.portDrained h.railLeaves.modPort.modPort)
    h.modPort.modPort))

theorem Keeps.portForce {q : Nat} {on : Bool} (h : Keeps w r s) : Keeps w r (s.portForce q on) :=
  Keeps.ite h.modPort.toCredits h.modPort

theorem Keeps.portRetrain {q : Nat} (h : Keeps w r s) : Keeps w r (s.portRetrain q) := Keeps.ite h.modPort h.railLeaves.modPort

theorem Writes.portCtrl {q v : Nat} (h : Keeps w r s) : Writes w r (s.portCtrl q v) :=
  Writes.ite .error (.ok (Keeps.ite h.portDisable.portForce.portRetrain h.portDisable.portForce))

theorem Keeps.setReach {i v : Nat} (h : Keeps w r s) : Keeps w r (s.setReach i v) :=
  h.foldNat fun _ _ h => h.frame.foldNat fun _ _ h => h.railLeaves

theorem Keeps.tlCtrl {v : Nat} (h : Keeps w r s) : Keeps w r (s.tlCtrl v) := Keeps.ite h h.pulse

theorem Writes.setRing {v : Nat} (h : Keeps w r s) : Writes w r (s.setRing v) := Writes.ite .error (.ok h.frame)

theorem Writes.select {ok : Bool} {f : State → State} (h : Keeps w r s) (hf : ∀ s, Keeps w r s → Keeps w r (f s)) :
    Writes w r (s.select ok f) := .ite (.ok (hf _ h).frame) .error

theorem Finds.writeSel {o v : Nat} (h : Keeps w r s) : Finds w r (s.writeSel o v) := by
  unfold State.writeSel
  dsimp only
  split
  · exact .some (.select h fun _ h => h.frame)
  · exact .some (.select h fun _ h => h.frame)
  · split
    · exact .some (.select h fun _ h => h.modStn)
    · exact .some (.select h fun _ h => h.modStn)
    · exact .some (.select h fun _ h => h.modStk)
    · exact .some (.select h fun _ h => h.modDrover)
    · exact .none

theorem Writes.setWays {p : Nat} {m : BitVec 8} (h : Keeps w r s) : Writes w r (s.setWays p m) :=
  Writes.ite .error (.ok (h.foldl fun _ _ h => h.removeLedger).modPart)

theorem Writes.setPages {p n : Nat} (h : Keeps w r s) : Writes w r (s.setPages p n) :=
  Writes.ite (Writes.ite .error (.ok h.modPart)) (Writes.ite .error (.ok h.evictTo.modPart))

theorem Finds.writeGate {k : Slot} {block o v : Nat} (h : Keeps w r s) : Finds w r (s.writeGate k block o v) := by
  unfold State.writeGate
  dsimp only
  split
  · exact .some (.ok h.frame)
  · exact .some (.withBaton (.ok h.frame))
  · exact .some (.ok h.frame)
  · exact .some (.ok h.frame)
  · exact .some (.withBaton (.ok h.frame))
  · exact .some (.ok h.frame)
  · exact .some (.ok h.frame)
  · exact .some (.ok h.frame)
  · exact .some (.withBaton (.ok h.frame))
  · exact .some (.ok h.frame)
  · exact .some (.ok h.frame)
  · exact .some (.ok h.frame)
  · exact .some (.ok h.frame)
  · exact .some (.withBaton (.ok h.frame))
  · exact .some (.ok h.frame)
  · exact .some (.withBaton (.ok h.csScrub))
  · exact .none

theorem Finds.writeTally {k : Slot} {o v : Nat} (h : Keeps w r s) : Finds w r (s.writeTally k o v) := by
  unfold State.writeTally
  dsimp only
  split
  · exact .some (.ok h.tlCtrl)
  · exact .some (.ok h.frame)
  · exact .some (.withBaton (.setRing h))
  · split
    · exact .some (.ok h.frame)
    · exact .some .error
  · exact .writeSel h

theorem Finds.writeFab {k : Slot} {o v : Nat} (h : Keeps w r s) : Finds w r (s.writeFab k o v) := by
  unfold State.writeFab
  split
  · exact .some (.ok h.frame)
  · exact .some (.withBaton (.ok h.frame))
  · split
    · exact .some (.withBaton (.ok h.setReach))
    · exact .some (.ok h.frame)
    · exact .some (.withBaton (.portCtrl h))
    · exact .none

theorem Finds.writePart {k : Slot} {block o v : Nat} (h : Keeps w r s) : Finds w r (s.writePart k block o v) := by
  unfold State.writePart
  split
  · split
    · exact .some (.withBaton (.ok h.modPart))
    · exact .some .error
  · split
    · exact .some (.withBaton (.setWays h))
    · exact .some .error
  · split
    · exact .some (.withBaton (.setPages h))
    · exact .some .error
  · exact .none

theorem Finds.writeUnit {k : Slot} {off v : Nat} (h : Keeps w r s) : Finds w r (s.writeUnit k off v) := by
  unfold State.writeUnit
  split
  · exact .some (.withBaton (.ok h.hbScrub))
  · exact .some (.ok h.modStk)
  · exact .some (.withBaton (.ok h.hbCtrl))
  · exact .some (.ok h.modStn)
  · exact .some (.withBaton (.ok h.stnCtrl))
  · exact .none

/-- A register that no block finds is written without effect. -/
theorem Finds.getD {o : Option RegOut} (h : Keeps w r s) (ho : Finds w r o) : Writes w r (o.getD (.ok s)) := by
  rcases o with _ | x
  · exact .ok h
  · exact ho x rfl

theorem Finds.ite {q : Prop} {d : Decidable q} {a b : Option RegOut} (ha : Finds w r a) (hb : Finds w r b) :
    Finds w r (if q then a else b) := by
  split
  · exact ha
  · exact hb

theorem Writes.regWrite {k : Slot} {off v : Nat} (h : Keeps w r s) : Writes w r (s.regWrite k off v) := by
  refine .ite .error (Finds.getD h (.ite (.writeTally h) (.ite (.writeFab h) (.ite ?_ (.writeUnit h)))))
  split
  · rename_i e
    exact .some (Finds.writeGate h _ e)
  · exact .writePart h

theorem Keeps.applyWrites {k : Slot} {bs : Bytes} {n i : Nat} (h : Keeps w r s) : Keeps w r (State.applyWrites k bs n i s).1 := by
  induction n generalizing i s with
  | zero => exact h
  | succ n ih =>
    unfold State.applyWrites
    split
    · exact h
    · rename_i e
      exact ih (Writes.regWrite h _ e)

theorem Keeps.applyRegWrite {p : Pkt} {k : Slot} (h : Keeps w r s) : Keeps w r (s.applyRegWrite p k) := by
  unfold State.applyRegWrite
  split
  · rename_i s₁ e₁
    have h₁ := h.applyWrites.fst e₁
    exact h₁.reply
  · rename_i s₁ i e e₁
    have h₁ := h.applyWrites.fst e₁
    exact h₁.reply

theorem Keeps.doRegWrite {p : Pkt} {k : Slot} (h : Keeps True r s) : Keeps True r (s.doRegWrite p k) :=
  Keeps.ite h.reply (Keeps.ite h.reply (h.withZeros fun _ h => Keeps.ite h.waitBaton h.applyRegWrite))

theorem Stays.regWrite {p : Pkt} (h : Keeps True r s) : Stays True r (execRegWrite p s) :=
  .next (h.receive fun _ _ _ h => h.doRegWrite)

theorem Keeps.doRegRead {p : Pkt} {x : Slot} (h : Keeps w r s) : Keeps w r (s.doRegRead p x) := h.withParams fun _ h => by
  refine Keeps.ite h.reply ?_
  dsimp only
  split
  · exact h.reply
  · exact h.reply

theorem Stays.regRead {p : Pkt} (h : Keeps True r s) : Stays True r (execRegRead p s) :=
  .next (h.receive fun _ _ _ h => h.doRegRead)

theorem Keeps.onWrite {p : Pkt} {f : Nat → Nat → Bool} (h : Keeps True r s) : Keeps True r (s.onWrite p f) :=
  Keeps.ite (h.receive fun _ _ _ h => h.doRegWrite) h

theorem Stays.clrMin {p : Pkt} (h : Keeps True r s) : Stays True r (execClrMin p s) := .next h.onWrite

theorem Stays.markFailed {p : Pkt} (h : Keeps True r s) : Stays True r (execMarkFailed p s) := .next h.onWrite

theorem Stays.remove {p : Pkt} (h : Keeps True r s) : Stays True r (execRemove p s) := .next h.onWrite

theorem Stays.csScrub {p : Pkt} (h : Keeps True r s) : Stays True r (execCsScrub p s) := .next h.onWrite

theorem Stays.hbScrub {p : Pkt} (h : Keeps True r s) : Stays True r (execHbScrub p s) := .next h.onWrite

theorem Stays.retrain {p : Pkt} (h : Keeps True r s) : Stays True r (execRetrain p s) := .next h.onWrite

theorem Stays.forceUp {p : Pkt} (h : Keeps True r s) : Stays True r (execForceUp p s) := .next h.onWrite

theorem Stays.disable {p : Pkt} (h : Keeps True r s) : Stays True r (execDisable p s) := .next h.onWrite

theorem Stays.fbReach {p : Pkt} (h : Keeps True r s) : Stays True r (execFbReach p s) := .next h.onWrite

theorem Stays.freeze {p : Pkt} (h : Keeps True r s) : Stays True r (execFreeze p s) := .next h.onWrite

theorem Stays.clear {p : Pkt} (h : Keeps True r s) : Stays True r (execClear p s) := .next h.onWrite

theorem Stays.tlRing {p : Pkt} (h : Keeps True r s) : Stays True r (execTlRing p s) := .next h.onWrite

theorem Stays.tlSel {p : Pkt} (h : Keeps True r s) : Stays True r (execTlSel p s) := .next h.onWrite

theorem Stays.pxWays {p : Pkt} (h : Keeps True r s) : Stays True r (execPxWays p s) := .next h.onWrite

theorem Stays.pxPages {p : Pkt} (h : Keeps True r s) : Stays True r (execPxPages p s) := .next h.onWrite

theorem Stays.gvCtrl {p : Pkt} (h : Keeps True r s) : Stays True r (execGvCtrl p s) := .next h.onWrite

theorem Stays.gvEvent {p : Pkt} (h : Keeps True r s) : Stays True r (execGvEvent p s) := .next h.onWrite

/-! ### Machine/Sessions.lean -/

theorem Keeps.bind {k : Slot} {q : OpenReq} (h : Keeps w r s) : Keeps w r (s.bind k q) :=
  (Keeps.ite h.endSession h).modBinding.seEvent

theorem Keeps.openSession {p : Pkt} {k : Slot} {q : OpenReq} {priv at_ : Bytes} (h : Keeps w r s) :
    Keeps w r (s.openSession p k q priv at_) := by
  unfold State.openSession
  extract_lets s₁ s₂
  have h₁ : Keeps w r s₁ := Keeps.ite h.bind h
  have h₂ : Keeps w r s₂ := Keeps.ite h₁.endSession h₁
  clear_value s₂
  exact h₂.modBinding.modSession.reply

theorem Keeps.openTail {p : Pkt} (h : Keeps w r s) : Keeps w r (s.openTail p) := by
  unfold State.openTail
  refine Keeps.ite h.reply ?_
  split
  · exact h.reply
  · refine Keeps.ite h.reply ?_
    refine Keeps.ite h.reply ?_
    refine Keeps.ite h.reply ?_
    refine Keeps.ite h.reply ?_
    split
    · exact h.reply
    · dsimp only
      split
      · exact h.reply
      · refine Keeps.ite h.reply ?_
        exact Keeps.ite h.draw.reply h.draw.openSession

theorem Keeps.receiveOpenOwn {p : Pkt} (h : Keeps w r s) : Keeps w r (s.receiveOpenOwn p) :=
  Keeps.ite h.reply (Keeps.ite h.reply (Keeps.ite h.reply (Keeps.ite h.reply
    (Keeps.ite h.spend.openTail (Keeps.ite h.spend.reply h.spend.waitFw)))))

theorem Keeps.receiveOpen {p : Pkt} (h : Keeps True r s) : Keeps True r (s.receiveOpen p) :=
  Keeps.ite (h.receive fun _ _ _ h => h) (Keeps.ite h.hearPkt.missed h.hearPkt.receiveOpenOwn)

theorem Stays.sessionOpen {p : Pkt} (h : Keeps True r s) : Stays True r (execSessionOpen p s) := .next (Keeps.ite h h.receiveOpen)

theorem Stays.enrol {p : Pkt} (h : Keeps True r s) : Stays True r (execEnrol p s) := .next (Keeps.ite h.receiveOpen h)

theorem Keeps.runWaiting (h : Keeps w r s) : Keeps w r s.runWaiting := by
  unfold State.runWaiting
  split
  exact h.frame.foldl fun _ _ h => h.openTail

theorem Stays.fwClaimTimeout (h : Keeps w r s) : Stays w r (execFwClaimTimeout s) := by
  unfold execFwClaimTimeout
  split
  exact .next (h.frame.foldl fun _ _ h => h.cmEvent.reply)

theorem Stays.sessionClose {p : Pkt} (h : Keeps True r s) : Stays True r (execSessionClose p s) :=
  .next (h.receive fun _ _ _ h => h.withParams fun _ h => h.reply.endSession)

theorem Stays.eventAck {p : Pkt} (h : Keeps True r s) : Stays True r (execEventAck p s) :=
  .next (h.receive fun _ _ _ h => h.withParams fun _ h => h.modSession.reply)

theorem Keeps.lease {k : Slot} {gen : Bool} (h : Keeps w r s) : Keeps w r (s.lease k gen) := h.frame

theorem Keeps.grantLease {p : Pkt} {k : Slot} {gen : Bool} (h : Keeps w r s) : Keeps w r (s.grantLease p k gen) := h.lease.reply

theorem Stays.batonTake {p : Pkt} (h : Keeps True r s) : Stays True r (execBatonTake p s) :=
  .next (h.receive fun _ _ _ h => h.withParams fun _ h => by
  split
  · exact h.grantLease
  · exact Keeps.ite h.grantLease h.reply)

theorem Stays.batonRenew {p : Pkt} (h : Keeps True r s) : Stays True r (execBatonRenew p s) :=
  .next (h.receive fun _ _ _ h => h.withParams fun _ h => Keeps.ite h.grantLease h.reply)

theorem Stays.batonRelease {p : Pkt} (h : Keeps True r s) : Stays True r (execBatonRelease p s) :=
  .next (h.receive fun _ _ _ h => h.withParams fun _ h => Keeps.ite h.freeBaton.reply h.reply)

theorem Stays.batonExpire (h : Keeps w r s) : Stays w r (execBatonExpire s) := by
  unfold execBatonExpire
  split
  · exact .next h
  · exact Stays.ite (.next h) (.next h.frame.cmEvent.batonEvent)

theorem Stays.batonBreak {p : Pkt} (h : Keeps True r s) : Stays True r (execBatonBreak p s) :=
  .next (h.receive fun _ _ _ h => h.withParams fun _ h => by
  split
  · exact h.reply
  · exact Keeps.ite h.reply (Keeps.ite h.reply h.lease.cmEvent.reply.batonEvent))

theorem Stays.statusMin {p : Pkt} (h : Keeps True r s) : Stays True r (execStatusMin p s) :=
  .next (h.receive fun _ _ _ h => h.withParams fun _ h => by
  split
  rename_i v s₁ e₁
  have h₁ := h.newChallenge.snd e₁
  exact h₁.reply)

theorem Stays.reset {p : Pkt} (h : Keeps True r s) : Stays True r (execReset p s) :=
  .next (h.receive fun _ _ _ h => h.withParams fun _ h => h.reply.warmReset)

theorem Stays.halt {p : Pkt} (h : Keeps True r s) : Stays True r (execHalt p s) :=
  .next (h.receive fun _ _ _ h => h.withParams fun _ h => h.reply.doHalt)

theorem Stays.zeroize {p : Pkt} (h : Keeps True r s) : Stays True r (execZeroize p s) :=
  .next (h.receive fun _ _ _ h => h.withParams fun _ h => Keeps.ite h.reply h.reply.zeroizeBegin)

theorem Stays.zeroizeComplete (h : Keeps w r s) : Stays w r (execZeroizeComplete s) := .next (Keeps.ite h.zeroizeEnd h)

/-! ### Machine/Hold.lean -/

theorem Keeps.stationsEnter {c : Nat} {code : BitVec 8} (h : Keeps w r s) : Keeps w r (s.stationsEnter c code) :=
  h.foldNat fun _ _ h => h.modStn fun _ h => h.noteHeld

theorem Keeps.beginSlice {c : Nat} (h : Keeps w r s) : Keeps w r (s.beginSlice c) := h.modCtx

theorem Keeps.loadStations {c : Nat} {f : Nat → Arch} (h : Keeps w r s) (hf : Canon r → ∀ rel, CanonArch (f rel)) :
    Keeps w r (s.loadStations c f) := h.foldNat fun _ rel h => h.setArch fun hr => hf hr rel

theorem Keeps.startSave {c : Nat} (h : Keeps w r s) : Keeps w r (s.startSave c) :=
  (h.modPart.modCtx fun _ h => by exact h.account).stationsEnter

theorem Keeps.saveStations {c : Nat} (h : Keeps w r s) : Keeps w r (s.saveStations c) :=
  h.foldNat fun _ _ h => h.modCtxOf fun hs _ hk => hk.save (hs.2.1 _)

theorem Keeps.unshelf {c : Nat} (h : Keeps w r s) : Keeps w r (s.unshelf c) := h.modCtx.foldl fun _ _ h => h.incToken

theorem Keeps.nowRuns {c : Nat} (h : Keeps w r s) : Keeps w r (s.nowRuns c) :=
  (h.modCtx fun _ h => by exact h.unsaved).stationsEnter

theorem Keeps.recordTraffic {c : Nat} (h : Keeps w r s) : Keeps w r (s.recordTraffic c) := h.hamperTraffic

theorem Keeps.shelfTraffic {c : Nat} (h : Keeps w r s) : Keeps w r (s.shelfTraffic c) := h.foldNat fun _ _ h => h.modStn.charge

theorem Keeps.footprintTraffic {c : Nat} (h : Keeps w r s) : Keeps w r (s.footprintTraffic c) :=
  h.foldNat fun _ _ h => h.modStn.charge

theorem Keeps.swapTraffic {c : Nat} (h : Keeps w r s) : Keeps w r (s.swapTraffic c) := h.hamperTraffic.footprintTraffic

theorem Keeps.restage {c : Nat} (h : Keeps w r s) : Keeps w r (s.restage c) :=
  Keeps.ite h (h.modCtx.foldl fun _ _ h => by
    dsimp only
    split
    · exact Keeps.ite h.pageFails h.pageFetch.put
    · exact h.pageFails)

/-! ### Machine/Steps.lean -/

theorem Keeps.beginStep {c : Nat} (h : Keeps w r s) : Keeps w r (s.beginStep c) :=
  (h.modCtx fun _ h => by exact .of h.account rfl rfl).foldNat fun _ _ h => h.modArch

theorem Keeps.writeSummary {c : Nat} (h : Keeps w r s) : Keeps w r (s.writeSummary c) := by
  unfold State.writeSummary
  dsimp only
  split
  · exact h
  · exact h.put

theorem Keeps.writeHist {c : Nat} (h : Keeps w r s) : Keeps w r (s.writeHist c) := by
  unfold State.writeHist
  dsimp only
  split
  · exact h
  · exact Keeps.ite h h.put.postEvent

theorem Keeps.sendStatus {c : Nat} (h : Keeps w r s) : Keeps w r (s.sendStatus c) := Keeps.ite h.postEvent h

theorem Keeps.endStep {c : Nat} (h : Keeps w r s) : Keeps w r (s.endStep c) :=
  have h₁ := h.modCtx (c := c) (f := (·.account s.now)) fun _ h => h.account
  (Keeps.ite h₁.modPart h₁).writeSummary.writeHist.sendStatus

theorem Keeps.checkStep {c : Nat} (h : Keeps w r s) : Keeps w r (s.checkStep c) := by
  unfold State.checkStep
  refine Keeps.ite ?_ h
  split
  · exact h.lateFault
  · exact h

theorem Keeps.streamEnd {c rel : Nat} (h : Keeps w r s) : Keeps w r (s.streamEnd c rel) := Keeps.ite h.programFault h

theorem Keeps.freeRead {c : Nat} (h : Keeps w r s) : Keeps w r (s.freeRead c) := Keeps.ite h (h.modCtx fun _ h => h.freeFrames)

theorem Keeps.releaseStep {c bound : Nat} (h : Keeps w r s) : Keeps w r (s.releaseStep c bound) := by
  unfold State.releaseStep
  extract_lets s₁ busy s₂ s₃ s₄
  have h₂ : Keeps w r s₂ := (h.endStep.modCtx fun _ h => by exact .of h rfl rfl).beginStep
  have h₃ : Keeps w r s₃ := h₂.foldNat fun _ _ h => h.modStn fun t h => by
    split
    · exact h
    · exact h
  have h₄ : Keeps w r s₄ := h₃.foldNat fun _ _ h => h.streamEnd
  exact Keeps.ite h₄.startSave h₄

theorem Stays.stepRelease {c : Nat} (h : Keeps w r s) : Stays w r (execStepRelease c s) :=
  Stays.ite (.next h) (.next h.releaseStep)

theorem Keeps.settleStores {c : Nat} (h : Keeps w r s) : Keeps w r (s.settleStores c) :=
  h.foldNat fun _ _ h => h.foldl fun _ _ h => by
  split
  · dsimp only
    exact h.race.put.ringBytes
  · exact h

theorem Keeps.completeCtx {c : Nat} (h : Keeps w r s) : Keeps w r (s.completeCtx c) :=
  (h.settleStores.endStep.leaveStations.modCtx fun _ h => by exact h.unsaved).postEvent

theorem Keeps.afterFinish {c : Nat} (h : Keeps w r s) : Keeps w r (s.afterFinish c) := Keeps.ite h.completeCtx h.checkStep

theorem Keeps.releaseBarrier {c : Nat} {d : BarrierDecl} (h : Keeps w r s) : Keeps w r (s.releaseBarrier c d) :=
  h.modCtx.foldl fun _ _ h => h.incToken

theorem Stays.barrierRelease {c : Nat} {g : BitVec 4} (h : Keeps w r s) : Stays w r (execBarrierRelease c g s) := by
  unfold execBarrierRelease
  split
  · exact .next h
  · exact .next (Keeps.ite h.releaseBarrier h)

theorem Stays.watchdogExpire {c : Nat} (h : Keeps w r s) : Stays w r (execWatchdogExpire c s) :=
  Stays.ite (.next h) (.next h.beginTeardown)

theorem Stays.teardownComplete {c : Nat} (h : Keeps w r s) : Stays w r (execTeardownComplete c s) :=
  .next (Keeps.ite h.finishTeardown.serveWaiting h)

/-! ### Machine/Operands.lean -/

theorem Keeps.sourced {a : Arch} (h : Keeps w r s) : Keeps w r (s.sourced a) := Keeps.ite h h.frame

/-! ### Machine/SlotS.lean -/

theorem Keeps.tinc {x : Site} {t : Tok} {n : BitVec 16} (h : Keeps w r s) : Keeps w r (x.tinc t n s) := h.incToken

theorem Keeps.bar {x : Site} {t : Tok} {g : BitVec 4} (h : Keeps w r s) : Keeps w r (x.bar t g s) := h.modCtx

theorem Keeps.sAfter {x : Site} {op : SOp} (h : Keeps w r s) : Keeps w r (x.sAfter op s) := by
  cases op with
  | tinc t n => exact h.tinc
  | bar t g => exact h.bar
  | step b => exact h.modArch.modCtx
  | finish => exact h.modArch.afterFinish
  | _ => exact h

/-! ### Machine/Caravan.lean -/

theorem Keeps.askGroup {c : Nat} {v : Caravan} {q : GroupRun} (h : Keeps w r s) : Keeps w r (s.askGroup c v q) :=
  Keeps.ite h (h.modCtx.foldl fun _ _ h => h.engineSend)

theorem Keeps.homeTraffic {c o n : Nat} (h : Keeps w r s) : Keeps w r (s.homeTraffic c o n) := by
  unfold State.homeTraffic
  split
  · exact h
  · exact h.foldl fun _ _ h => Keeps.ite h.imageTraffic h

theorem Keeps.fill {c o dst n : Nat} {wide : Bool} (h : Keeps w r s) : Keeps w r (s.fill c o dst n wide) := by
  unfold State.fill
  split
  · exact h
  · exact Keeps.ite h.beginTeardown (h.draw.homeTraffic.put.modCtx fun _ h => .ite h h)

theorem Keeps.fillGroup {c : Nat} {v : Caravan} {q : GroupRun} (h : Keeps w r s) : Keeps w r (s.fillGroup c v q) :=
  h.foldl fun _ _ h => h.fill

theorem Keeps.completeGroup {c : Nat} {v : Caravan} {q : GroupRun} (h : Keeps w r s) : Keeps w r (s.completeGroup c v q) := by
  unfold State.completeGroup
  refine Keeps.ite h.fillGroup ?_
  dsimp only
  split
  · exact h.fillGroup.modCtx
  · exact Keeps.ite h.fillGroup.modCtx h.fillGroup.modCtx.incEach

theorem Stays.caravanGroupBegin {c : Nat} (h : Keeps w r s) : Stays w r (execCaravanGroupBegin c s) := by
  unfold execCaravanGroupBegin
  dsimp only
  split
  · exact .next h
  · split
    · exact .next h
    · refine Stays.ite (.next h) ?_
      split
      · exact .next (h.seenStore.foldl fun _ _ h => h.shapeTraffic).programFault
      · refine .next (Keeps.ite (Keeps.completeGroup ?_) (Keeps.askGroup ?_))
        · exact (h.seenStore.foldl fun _ _ h => h.shapeTraffic).modCtx
        · exact (h.seenStore.foldl fun _ _ h => h.shapeTraffic).modCtx

theorem Stays.caravanGroupComplete {c i : Nat} (h : Keeps w r s) : Stays w r (execCaravanGroupComplete c i s) := by
  unfold execCaravanGroupComplete
  dsimp only
  split
  · exact Stays.ite (.next h) (.next h.completeGroup)
  · exact .next h

theorem Keeps.askAgain {c : Nat} (h : Keeps w r s) : Keeps w r (s.askAgain c) := by
  unfold State.askAgain
  split
  · exact h
  · exact h.modCtx.foldl fun _ _ h => h.askGroup

theorem Keeps.refetch {c : Nat} (h : Keeps w r s) : Keeps w r (s.refetch c) := by
  unfold State.refetch
  split
  · exact h
  · exact h.foldl fun _ _ h => h.fillGroup

/-! ### Machine/Routing.lean -/

theorem Keeps.dispFault {c : Nat} {q : DispReq} {code : Nat} (h : Keeps w r s) : Keeps w r (s.dispFault c q code) :=
  h.moEvent.lateFault

theorem Keeps.modMoe {c : Nat} {f : MoeRun → MoeRun} (h : Keeps w r s) : Keeps w r (s.modMoe c f) := h.modCtx

theorem Keeps.takeReq {c : Nat} {q : DispReq} (h : Keeps w r s) : Keeps w r (s.takeReq c q) := h.modMoe

theorem Keeps.dispToken {c : Nat} {rels : List Nat} {t : Nat} (h : Keeps w r s) : Keeps w r (s.dispToken c rels t) := h.incEach

theorem Keeps.dispDone {c : Nat} {q : DispReq} (h : Keeps w r s) : Keeps w r (s.dispDone c q) := h.incToken

theorem Keeps.routeGroup {c : Nat} {p : StepPlan} {g : ExpertGroup} {q : DispReq} (h : Keeps w r s) :
    Keeps w r (s.routeGroup c p g q) := by
  unfold State.routeGroup
  refine Keeps.ite h.takeReq.dispFault ?_
  dsimp only
  split
  · exact h.takeReq.seenStore.shapeTraffic.dispFault
  · refine Keeps.ite h.takeReq.seenStore.shapeTraffic.dispFault (Keeps.ite h.takeReq.seenStore.shapeTraffic.dispFault ?_)
    split
    · exact h.takeReq.seenStore.shapeTraffic.storeTraffic.dispFault
    · exact h.takeReq.seenStore.shapeTraffic.storeTraffic.modMoe

theorem Stays.route {c group : Nat} (h : Keeps w r s) : Stays w r (execRoute c group s) := by
  unfold execRoute
  split
  · exact .next h
  · split
    · exact .next h.routeGroup
    · exact .next h

theorem Keeps.takePlan {c : Nat} (h : Keeps w r s) (e : s.takePlan c = some t) : Keeps w r t := by
  unfold State.takePlan at e
  dsimp only at e
  split at e
  · obtain ⟨⟩ := e
    exact h
  · split at e
    · obtain ⟨⟩ := e
      exact h.modMoe
    · split at e
      · cases e
      · obtain ⟨⟩ := e
        exact h.modPart.modMoe.modMoe

theorem Stays.planDeadline {c : Nat} (h : Keeps w r s) : Stays w r (execPlanDeadline c s) := by
  unfold execPlanDeadline
  split
  · exact .next h
  · exact Stays.ite (.next h) (.next h.modMoe.moEvent.modPart)

theorem Keeps.listLocal {c : Nat} {p : StepPlan} {g : ExpertGroup} {run : RouteRun} {l : List (Nat × Decision)} {group j e : Nat}
    (h : Keeps w r s) : Keeps w r (s.listLocal c p g run l group j e) := h.put.put.modMoe.putShape.putShape

theorem Keeps.listGroup {c : Nat} {p : StepPlan} {run : RouteRun} {l : List (Nat × Decision)} {group : Nat} (h : Keeps w r s) :
    Keeps w r (s.listGroup c p run l group) := by
  unfold State.listGroup
  split
  · exact ((h.foldl fun _ _ h => h.listLocal).foldNat fun _ _ h => h.putShape.putShape).putShape.putShape.modCtx.dispToken.foldl
      fun _ _ h => h.dispToken
  · exact h

theorem Keeps.listLayer {c : Nat} {p : StepPlan} {run : RouteRun} (h : Keeps w r s) : Keeps w r (s.listLayer c p run) := by
  unfold State.listLayer
  dsimp only
  split
  · exact h.dispFault
  · exact h.modMoe.foldNat fun _ _ h => h.listGroup

theorem Keeps.shipPair {c : Nat} {p : StepPlan} {run : RouteRun} {x : Pair} {home n : Nat} (h : Keeps w r s) :
    Keeps w r (s.shipPair c p run x home n) := h.seenStore.storeTraffic.modMoe.modPart.engineSend

theorem Keeps.shipLayer {c : Nat} {p : StepPlan} {run : RouteRun} (h : Keeps w r s) : Keeps w r (s.shipLayer c p run) :=
  ((h.foldl fun _ _ h => h.shipPair).foldNat fun _ _ h => h.engineSend).modMoe.foldl fun _ _ h => h.dispDone

theorem Stays.routeProceed {c : Nat} (h : Keeps w r s) : Stays w r (execRouteProceed c s) := by
  unfold execRouteProceed
  split
  · exact .next h
  · dsimp only
    split
    · split
      · exact .next h
      · rename_i e
        exact .next (Keeps.ite (h.takePlan e).listLayer.shipLayer (h.takePlan e).listLayer)
    · split
      · exact .next h.shipLayer
      · exact .next h

theorem Stays.borrowRequestSend {c layer expert : Nat} (h : Keeps w r s) :
    Stays w r (execBorrowRequestSend c layer expert s) := by
  unfold execBorrowRequestSend
  split
  · exact .next h
  · dsimp only
    split
    · exact Stays.ite (.next h) (.next h.modMoe.modPart.engineSend)
    · exact .next h

/-! ### Machine/SlotV.lean -/

theorem Keeps.checkStorm {c : Nat} (h : Keeps w r s) : Keeps w r (s.checkStorm c) :=
  Keeps.ite h (Keeps.ite h.modCtx.frame.gateEvent.postEvent h.modCtx.frame.gateEvent)

theorem Keeps.vq {x : Site} {q : VqOp} (h : Keeps w r s) : Keeps w r (x.vq q s) := by
  delta Site.vq
  extract_lets a f hd tr vals mv p sh old n sum closes t rest ws s₁
  have h₁ : Keeps w r s₁ := h.modArch fun b hb =>
    (CanonArch.foldl (a := b.over tr ws) (CanonArch.of hb rfl) fun _ _ h => h.store).of rfl
  exact Keeps.ite h₁.modCtx.checkStorm h₁

theorem Keeps.vEffect {x : Site} {op : VOp} (h : Keeps w r s) : Keeps w r (x.vEffect op s) := by
  cases op with
  | nop => exact h
  | vr f y => exact h.modArch fun _ h => h.setV
  | vrdacc v acc seg sr => exact h.modArch fun _ h => h.setV
  | vwracc v acc seg sr => exact h.modArch fun _ h => .of h rfl
  | vq q => exact h.vq
  | vdq d ar fmt half => exact h.modArch fun _ h => h.setV

/-! ### Machine/SlotM.lean -/

theorem Keeps.mEffect {x : Site} {op : MOp} (h : Keeps w r s) : Keeps w r (x.mEffect op s) := by
  cases op with
  | nop => exact h
  | wv o => exact Keeps.ite (h.modArch fun _ h => h.accept).modCtx (h.modArch fun _ h => h.accept)

/-! ### Machine/Walker.lean -/

theorem Keeps.modWalker {v : Nat} {f : Walker → Walker} (h : Keeps w r s) : Keeps w r (s.modWalker v f) := h.frame

theorem Keeps.lookAside {c q addr : Nat} (h : Keeps w r s) : Keeps w r (s.lookAside c q addr) :=
  Keeps.ite h.frame.modWalker h.frame.modWalker.storeTraffic

theorem Keeps.walkLens {f : Walk → Len → Walk} {l : List Len} {v : Walk} (h : Keeps w r v.s)
    (hf : ∀ v e, Keeps w r v.s → Keeps w r (f v e).s) : Keeps w r (walkLens f l v).s := by
  induction l generalizing v with
  | nil => exact h
  | cons e l ih =>
    unfold Machine.walkLens
    split
    · exact h
    · split
      · exact h
      · split
        · exact ih h
        · exact ih (hf _ _ h)

theorem Keeps.walkBlocks {f : Walk → Nat → Nat → Walk} {l : List Nat} {i : Nat} {v : Walk} (h : Keeps w r v.s)
    (hf : ∀ v i b, Keeps w r v.s → Keeps w r (f v i b).s) : Keeps w r (walkBlocks f l i v).s := by
  induction l generalizing i v with
  | nil => exact h
  | cons b l ih =>
    unfold Machine.walkBlocks
    split
    · exact h
    · exact ih (hf _ _ _ h)

theorem Keeps.lensTraffic {c : Nat} {q : WalkReq} {n : Nat} (h : Keeps w r s) : Keeps w r (s.lensTraffic c q n) := h.storeTraffic

theorem Keeps.walkFault {c : Nat} {q : WalkReq} {code : Nat} (h : Keeps w r s) : Keeps w r (s.walkFault c q code) :=
  (Keeps.ite h.kwEvent.kwEvent h.kwEvent).lateFault

theorem Keeps.walkDone {c : Nat} {q : WalkReq} (h : Keeps w r s) : Keeps w r (s.walkDone c q) := h.modCtx.incToken

theorem Keeps.walk {c op : Nat} {f : KvConf → WalkReq → State} (h : Keeps w r s) (hf : ∀ x y, Keeps w r (f x y)) :
    Keeps w r (s.walk c op f) := by
  unfold State.walk
  dsimp only
  split
  · exact Keeps.ite (hf _ _) h
  · exact h

theorem Keeps.walkEach {c : Nat} {q : WalkReq} {f : Walk → Len → Walk} (h : Keeps w r s)
    (hf : ∀ v x, Keeps w r v.s → Keeps w r (f v x).s) : Keeps w r (s.walkEach c q f) := by
  unfold State.walkEach
  split
  · exact h.walkFault
  · dsimp only
    split
    · exact (h.seenStore.lensTraffic.walkLens hf).walkFault
    · exact (h.seenStore.lensTraffic.walkLens hf).walkDone

theorem Keeps.flushOpen {n c rel : Nat} (h : Keeps w r s) : Keeps w r (State.flushOpen n c rel s) := by
  induction n generalizing s with
  | zero => exact h
  | succ n ih =>
    unfold State.flushOpen
    split
    · exact Keeps.ite (ih h.modCtx.incToken) h
    · exact h

theorem Keeps.putItem {c : Nat} {v : KvConf} {q : WalkReq} {mine : List Item} {n : Nat} (h : Keeps w r s) :
    Keeps w r (s.putItem c v q mine n) := by
  unfold State.putItem
  split
  · exact h
  · dsimp only
    split
    · exact h.put.modCtx
    · exact h.put.modCtx

theorem Keeps.deliver {c : Nat} {v : KvConf} {q : WalkReq} {items : List Item} {j : Nat} (h : Keeps w r s) :
    Keeps w r (s.deliver c v q items j) := (h.foldNat fun _ _ h => h.putItem).putShape.incToken.flushOpen

theorem Keeps.list {v : Walk} {k : Ctx} {v' : KvConf} {q : WalkReq} {i : Item} (h : Keeps w r v.s) :
    Keeps w r (v.list k v' q i).s := by
  unfold Walk.list
  dsimp only
  split
  · exact h
  · exact h

theorem Keeps.finishList {v : Walk} {c : Nat} {v' : KvConf} {q : WalkReq} (h : Keeps w r v.s) :
    Keeps w r (finishList c v' q v) := by
  unfold Machine.finishList
  split
  · exact h.walkFault
  · exact ((h.foldl fun _ _ h => h.modWalker).foldNat fun _ _ h => h.deliver).walkDone

theorem Keeps.readBlock {v : Walk} {c : Nat} {v' : KvConf} {q : WalkReq} {e : Len} {n i b : Nat} (h : Keeps w r v.s) :
    Keeps w r (readBlock c v' q e n v i b).s := by
  unfold Machine.readBlock
  dsimp only
  split
  · exact h.lookAside
  · exact h.lookAside.list

theorem Keeps.readEntry {v : Walk} {c : Nat} {v' : KvConf} {q : WalkReq} {e : Len} (h : Keeps w r v.s) :
    Keeps w r (readEntry c v' q v e).s := by
  unfold Machine.readEntry
  split
  · exact h
  · exact h.walkBlocks fun _ _ _ h => h.readBlock

theorem Keeps.runRead {c : Nat} {v : KvConf} {q : WalkReq} (h : Keeps w r s) : Keeps w r (s.runRead c v q) := by
  unfold State.runRead
  split
  · exact h.walkFault
  · exact (h.seenStore.lensTraffic.walkLens fun _ _ h => h.readEntry).finishList

theorem Keeps.pickGroup {c : Nat} {v : KvConf} (h : Keeps w r s) : Keeps w r (s.pickGroup c v).2 := by
  unfold State.pickGroup
  dsimp only
  split
  · exact h.draw
  · exact h.draw

theorem Keeps.openBlock {c : Nat} {v : KvConf} {q b : Nat} (h : Keeps w r s) (e : s.openBlock c v q b = some t) : Keeps w r t := by
  unfold State.openBlock at e
  split at e
  · cases e
  · split at e
    · cases e
    · rename_i e₁
      obtain ⟨⟩ := e
      exact (h.pickGroup.snd e₁).pickSpn.storeTraffic.storeTraffic.modCtx fun k hk =>
        (CanonCtx.setEntry (k := { k with walk := _ }) hk).setSeqHead

theorem Keeps.appendBlock {v : Walk} {c : Nat} {v' : KvConf} {q : WalkReq} {e : Len} {n i b : Nat} (h : Keeps w r v.s) :
    Keeps w r (appendBlock c v' q e n v i b).s := by
  unfold Machine.appendBlock
  dsimp only
  split
  · exact h.lookAside
  · rename_i s₁ e₁
    have h₁ : Keeps w r s₁ := by
      split at e₁
      · exact h.lookAside.openBlock e₁
      · obtain ⟨⟩ := e₁
        exact h.lookAside
    split
    · exact h₁
    · exact h₁.list

theorem Keeps.appendEntry {v : Walk} {c : Nat} {v' : KvConf} {q : WalkReq} {e : Len} (h : Keeps w r v.s) :
    Keeps w r (appendEntry c v' q v e).s := by
  unfold Machine.appendEntry
  split
  · exact h
  · split
    · exact h
    · exact (Keeps.ite h (h.modCtx fun _ h => h.setSeqHead).storeTraffic).walkBlocks fun _ _ _ h => h.appendBlock

theorem Keeps.runAppend {c : Nat} {v : KvConf} {q : WalkReq} (h : Keeps w r s) : Keeps w r (s.runAppend c v q) := by
  unfold State.runAppend
  split
  · exact h.walkFault
  · exact (h.seenStore.lensTraffic.walkLens fun _ _ h => h.appendEntry).finishList

theorem Keeps.sealPoint {c : Nat} {v : KvConf} {q b l : Nat} {t : Entry} (h : Keeps w r s) : Keeps w r (s.sealPoint c v q b l t) :=
  (h.modCtx fun _ h => by exact .of h.setEntry rfl rfl).storeTraffic.frame.storeTraffic

theorem Keeps.commitBlock {v : Walk} {c : Nat} {v' : KvConf} {q : WalkReq} {e : Len} {x b : Nat} (h : Keeps w r v.s) :
    Keeps w r (commitBlock c v' q e v x b).s := by
  unfold Machine.commitBlock
  dsimp only
  split
  · exact h.lookAside
  · split
    · exact h.lookAside
    · split
      · exact h.lookAside
      · exact h.lookAside.sealPoint

theorem Keeps.commitEntry {v : Walk} {c : Nat} {v' : KvConf} {q : WalkReq} {e : Len} (h : Keeps w r v.s) :
    Keeps w r (commitEntry c v' q v e).s := by
  unfold Machine.commitEntry
  split
  · exact h
  · exact h.walkBlocks fun _ _ _ h => h.commitBlock

theorem Keeps.runCommit {c : Nat} {v : KvConf} {q : WalkReq} (h : Keeps w r s) : Keeps w r (s.runCommit c v q) :=
  h.walkEach fun _ _ h => h.commitEntry

theorem Keeps.decline {p : Nat} (h : Keeps w r s) : Keeps w r (s.decline p) := h.modPart

theorem Keeps.offer {c : Nat} {v : KvConf} {q b : Nat} (h : Keeps w r s) : Keeps w r (s.offer c v q b) := by
  unfold State.offer
  extract_lets p k hd key s₁ s₂ up parent parentOk set s₃ s₄ t e
  have h₂ : Keeps w r s₂ := (h.tokenTraffic.modCtx fun _ h => by exact h.setSeqHead).storeTraffic
  have h₃ : Keeps w r s₃ := h₂.evictTo
  have h₄ : Keeps w r s₄ := by
    refine Keeps.ite h₃ ?_
    split
    · exact h₃.evict
    · exact h₃
  refine Keeps.ite h (Keeps.ite h₂ (Keeps.ite h₂.decline (Keeps.ite h₃.pxEvent.decline ?_)))
  clear_value parent
  split
  · exact h₄.decline
  · extract_lets s₅ s₆ s₇ s₈
    have h₅ : Keeps w r s₅ := h₄.setLedger.nextStamp
    have h₆ : Keeps w r s₆ := by
      unfold s₆
      split
      · split
        · exact h₅.setLedger
        · exact h₅
      · exact h₅
    exact h₆.modPart.storeTraffic.modCtx fun _ h => by exact .of h.setEntry rfl rfl

theorem Keeps.bundleSealed {c : Nat} {v : KvConf} {l : Seal} (h : Keeps w r s) : Keeps w r (s.bundleSealed c v l) := by
  refine Keeps.ite (Keeps.ite (Keeps.ite (Keeps.offer ?_) ?_) h) h
  · exact h.storeTraffic.modCtx fun _ h => by exact .of h.setEntry rfl rfl
  · exact h.storeTraffic.modCtx fun _ h => by exact .of h.setEntry rfl rfl

theorem Keeps.sealDone {l : Seal} (h : Keeps w r s) : Keeps w r (s.sealDone l) := by
  unfold State.sealDone
  dsimp only
  split
  · exact h.frame.gateEvent.pageTraffic
  · refine Keeps.ite h.frame.gateEvent.pageTraffic ?_
    refine Keeps.ite h.frame.gateEvent.pageTraffic.frame ?_
    split
    · exact h.frame.gateEvent.pageTraffic.frame.bundleSealed
    · exact h.frame.gateEvent.pageTraffic.frame

theorem Keeps.sealEnds {l : Seal} (h : Keeps w r s) : Keeps w r (s.sealEnds l) := h.sealDone.serveWaiting

theorem Keeps.probes {c : Nat} {v : KvConf} {q : Nat} {l : List Word} {n : Nat} {last : Word} (h : Keeps w r s) :
    Keeps w r (State.probes c v q l n last s).2.2 := by
  induction l generalizing n last s with
  | nil => exact h
  | cons key l ih =>
    unfold State.probes
    dsimp only
    split
    · exact h.modPart
    · exact ih (h.addRef.modPart.modCtx fun _ h => h.setEntry).storeTraffic

theorem Keeps.lookupEntry {v : Walk} {c : Nat} {v' : KvConf} {q : WalkReq} {e : Len} (h : Keeps w r v.s) :
    Keeps w r (lookupEntry c v' q v e).s := by
  unfold Machine.lookupEntry
  dsimp only
  split
  · exact h
  · exact h.tokenTraffic.probes.storeTraffic.storeTraffic.modCtx fun _ h => h.setSeqHead.write

theorem Keeps.blockTraffic {c : Nat} {v : KvConf} {t : Entry} {n l : Nat} (h : Keeps w r s) :
    Keeps w r (s.blockTraffic c v t n l) := Keeps.ite h.pageFetch h.storeTraffic

theorem Writes.copyOpen {c : Nat} {v : KvConf} {q b n : Nat} {t : Entry} (h : Keeps w r s) :
    Writes w r (s.copyOpen c v q b n t) := by
  unfold State.copyOpen
  split
  · exact .error
  · split
    · exact .error
    · rename_i e
      exact .ok ((h.openBlock e).foldNat fun _ _ h => h.blockTraffic.put)

theorem Writes.copySealed {c : Nat} {v : KvConf} {q b : Nat} {t : Entry} (h : Keeps w r s) :
    Writes w r (s.copySealed c v q b t) := by
  unfold State.copySealed
  split
  · exact .error
  · refine .ite .error ?_
    extract_lets p
    have hp := h.pickSpn (p := p) (n := v.layers)
    generalize s.pickSpn p v.layers = x at hp ⊢
    obtain ⟨spn, s₀⟩ := x
    dsimp -zeta only
    extract_lets new cst s₁ s₂ s₃ s₄
    have h₂ : Keeps w r s₂ := hp.frame.gateEvent.foldNat fun _ _ h => h.blockTraffic.pageTraffic
    have h₄ : Keeps w r s₄ := h₂.storeTraffic.storeTraffic.modCtx fun k h => by
      exact (CanonCtx.setEntry (.of h rfl rfl)).setSeqHead
    exact .ok (Keeps.ite h₄.offer h₄)

theorem Writes.forkBlock {c : Nat} {v : KvConf} {q b : Nat} {t : Entry} (h : Keeps w r s) :
    Writes w r (s.forkBlock c v q b t) :=
  .ite .error (.ite (.copyOpen h)
    (.ite (.ok (h.addRef.storeTraffic.storeTraffic.modCtx fun _ h => h.setEntry.setSeqHead)) (.copySealed h)))

theorem Keeps.forkStep {v : Walk} {c : Nat} {v' : KvConf} {e : Len} {i b : Nat} (h : Keeps w r v.s) :
    Keeps w r (forkStep c v' e v i b).s := by
  unfold Machine.forkStep
  dsimp only
  split
  · rename_i e₁
    split at e₁
    · exact Writes.forkBlock h _ e₁
    · split at e₁
      · cases e₁
      · exact Writes.copyOpen h _ e₁
  · exact h

theorem Keeps.forkEntry {v : Walk} {c : Nat} {v' : KvConf} {e : Len} (h : Keeps w r v.s) : Keeps w r (forkEntry c v' v e).s := by
  unfold Machine.forkEntry
  dsimp only
  split
  · exact h
  · exact ((Keeps.ite h h.tokenTraffic).modCtx fun _ h => h.setSeqHead).storeTraffic.walkBlocks fun _ _ _ h => h.forkStep

theorem Keeps.runFork {c : Nat} {v : KvConf} {q : WalkReq} (h : Keeps w r s) : Keeps w r (s.runFork c v q) := by
  unfold State.runFork
  split
  · exact h.walkFault
  · dsimp only
    split
    · exact Keeps.ite (h.seenStore.lensTraffic.walkLens fun _ _ h => h.forkEntry).walkFault (h.seenStore.lensTraffic.walkLens
        fun _ _ h => h.forkEntry).pageFails
    · exact (h.seenStore.lensTraffic.walkLens fun _ _ h => h.forkEntry).walkDone

theorem Keeps.releaseEntry {v : Walk} {c : Nat} {v' : KvConf} {e : Len} (h : Keeps w r v.s) :
    Keeps w r (releaseEntry c v' v e).s := by
  unfold Machine.releaseEntry
  split
  · exact h
  · split
    · exact h.releaseSeq
    · exact h

theorem Keeps.runAck {c : Nat} {q : WalkReq} (h : Keeps w r s) : Keeps w r (s.runAck c q) :=
  Keeps.ite h.walkFault h.modCtx.walkDone

theorem Keeps.stageArrive {c : Nat} {v : KvConf} {g : Staging} {f spn : Nat} {data : Bytes} (h : Keeps w r s) :
    Keeps w r (s.stageArrive c v g f spn data) := h.pageFetch.put.modCtx.modWalker.incToken.flushOpen

theorem Stays.walkRead {c : Nat} (h : Keeps w r s) : Stays w r (execWalkRead c s) := .next (h.walk fun _ _ => h.runRead)

theorem Stays.walkAppend {c : Nat} (h : Keeps w r s) : Stays w r (execWalkAppend c s) := .next (h.walk fun _ _ => h.runAppend)

theorem Stays.walkCommit {c : Nat} (h : Keeps w r s) : Stays w r (execWalkCommit c s) := .next (h.walk fun _ _ => h.runCommit)

theorem Stays.walkLookup {c : Nat} (h : Keeps w r s) : Stays w r (execWalkLookup c s) :=
  .next (h.walk fun _ _ => h.walkEach fun _ _ h => h.lookupEntry)

theorem Stays.walkFork {c : Nat} (h : Keeps w r s) : Stays w r (execWalkFork c s) := .next (h.walk fun _ _ => h.runFork)

theorem Stays.walkRelease {c : Nat} (h : Keeps w r s) : Stays w r (execWalkRelease c s) :=
  .next (h.walk fun _ _ => h.walkEach fun _ _ h => h.releaseEntry)

theorem Stays.walkAck {c : Nat} (h : Keeps w r s) : Stays w r (execWalkAck c s) := .next (h.walk fun _ _ => h.runAck)

theorem Stays.sealComplete {i : Nat} (h : Keeps w r s) : Stays w r (execSealComplete i s) := by
  unfold execSealComplete
  split
  · exact .next h
  · exact .next h.sealEnds

theorem Stays.walkStageArrive {c : Nat} {crcOk : Bool} (h : Keeps w r s) : Stays w r (execWalkStageArrive c crcOk s) := by
  unfold execWalkStageArrive
  dsimp only
  split
  · exact .next h
  · split
    · exact .next h
    · split
      · exact .next h
      · refine Stays.ite (.next h) ?_
        split
        · exact Stays.ite (.next h.pageFails) (.next h.stageArrive)
        · exact .next h.pageFails

/-! ### Machine/SlotX.lean -/

theorem Keeps.begin_ {x : Site} {kind : XferKind} (h : Keeps w r s) : Keeps w r (x.begin_ kind s) := h.modArch

theorem Keeps.xEffect {x : Site} {op : XOp} (h : Keeps w r s) : Keeps w r (x.xEffect op s) := by
  cases op with
  | nop => exact h
  | xld o => exact h.begin_.modArch
  | xst o => exact h.sourced.begin_.modArch
  | vld v a off => exact h.modArch fun _ h => h.setV
  | vst v a off => exact h.modArch fun _ h => h.store
  | xvs v a lane => exact h.modArch fun _ h => h.setS
  | xsv v a lane => exact h.modArch fun _ h => h.setV
  | xsend l rs rd rl tl tr => exact h.sourced.begin_.modArch
  | desc f a off =>
    cases f with
    | halo => exact (Keeps.ite h.modArch h).begin_
    | _ => exact Keeps.ite h.modArch h
  | xnote a t n => exact h.begin_

theorem Keeps.xAfter {x : Site} {op : XOp} (h : Keeps w r s) : Keeps w r (x.xAfter op s) := by
  unfold Site.xAfter
  split
  · dsimp only
    split
    · exact h.lateFault
    · exact h.frame.modDrover
  · exact Keeps.ite h.walkFault h.modCtx
  · exact Keeps.ite h.dispFault h.modMoe
  · exact h

/-! ### Machine/Issue.lean -/

theorem Keeps.seen {c st : Nat} (h : Keeps w r s) : Keeps w r (s.seen c st) := Keeps.ite h h.frame

theorem Keeps.noteCause {st : Nat} (h : Keeps w r s) : Keeps w r (s.noteCause st) := by
  unfold State.noteCause
  split
  · exact h.modStn
  · exact h

theorem Keeps.issueAt {x : Site} {b : Bundle} (h : Keeps w r s) : Keeps w r (s.issueAt x b) :=
  (h.modStn.charge.modCtx.mEffect.vEffect.modArch fun _ h => h.sWrites).xEffect.sAfter.xAfter.streamEnd

theorem Keeps.alsoFaults {st : Nat} {b : Bundle} (h : Keeps w r s) : Keeps w r (s.alsoFaults st b) := by
  unfold State.alsoFaults
  split
  · exact h
  · refine Keeps.ite h ?_
    split
    · exact h.programFault
    · exact h

theorem Keeps.issue {st : Nat} {b : Bundle} (h : Keeps w r s) : Keeps w r (s.issue st b) := by
  unfold State.issue
  split
  · exact h.alsoFaults
  · refine Keeps.ite h ?_
    dsimp only
    split
    · exact h.seen.programFault
    · exact h.seen.issueAt

/-! ### Machine/Completion.lean -/

theorem Keeps.alsoLate {c : Nat} {f : State → State} (h : Keeps w r s) : Keeps w r (s.alsoLate c f) := by
  unfold State.alsoLate
  dsimp only
  split
  · exact (Keeps.ite h.frame.modStn h.frame).modCtx.programFault
  · exact h.frame.modCtx

theorem Keeps.atStn {st : Nat} {f : State → State} (h : Keeps w r s) (hf : ∀ s, Keeps w r s → Keeps w r (f s)) :
    Keeps w r (s.atStn st f) := by
  unfold State.atStn
  refine Keeps.ite (hf _ h) ?_
  split
  · exact h.alsoLate
  · exact h

theorem Keeps.onXfer {st i : Nat} {f : State → Nat → Xfer → State} (h : Keeps w r s)
    (hf : ∀ s x y, Keeps w r s → Keeps w r (f s x y)) : Keeps w r (s.onXfer st i f) := h.atStn fun _ h => by
  split
  · exact hf _ _ _ h
  · exact h

theorem Keeps.endXfer {st : Nat} {x : Xfer} (h : Keeps w r s) : Keeps w r (s.endXfer st x) := h.noteCause.modArch

theorem Keeps.setXfer {st : Nat} {x : Xfer} {k : XferKind} (h : Keeps w r s) : Keeps w r (s.setXfer st x k) := h.modArch

theorem Stays.pendingMarkClear {st : Nat} {mark : Mark} (h : Keeps w r s) : Stays w r (execPendingMarkClear st mark s) :=
  .next (Keeps.ite h.modArch h)

theorem Stays.lineFetchArrive {st line : Nat} (h : Keeps w r s) : Stays w r (execLineFetchArrive st line s) := by
  unfold execLineFetchArrive
  split
  · exact .next h
  · exact Stays.ite (.next h) (.next (Keeps.ite h.modStn h).modArch.storeTraffic.ringBytes)

theorem Stays.xldComplete {st i : Nat} (h : Keeps w r s) : Stays w r (execXldComplete st i s) :=
  .next (h.onXfer fun _ _ _ h => by
    split
    · exact Keeps.ite h (h.race.endXfer.modArch fun _ h => by exact h.store).storeTraffic.ringBytes.freeRead.incToken
    · exact h)

theorem Stays.xstComplete {st i : Nat} (h : Keeps w r s) : Stays w r (execXstComplete st i s) := .next (h.onXfer fun _ _ _ h => by
  split
  · refine Keeps.ite h ?_
    refine Keeps.ite h.lateFault ?_
    split
    rename_i bs s₁ e₁
    have h₁ := h.race.snd e₁
    dsimp only
    split
    · exact h₁.endXfer.put.modCtx.ringBytes.modArch.incToken
    · exact h₁.endXfer.put.modCtx.ringBytes.incToken
  · exact h)

theorem Stays.xstNotifyDeliver {st i : Nat} (h : Keeps w r s) : Stays w r (execXstNotifyDeliver st i s) :=
  .next (h.atStn fun _ h => by
  split
  · exact h.modArch.incToken
  · exact h)

theorem Stays.xnoteDeliver {st i : Nat} (h : Keeps w r s) : Stays w r (execXnoteDeliver st i s) :=
  .next (h.onXfer fun _ _ _ h => by
  split
  · exact Keeps.ite h h.endXfer.incToken
  · exact h)

theorem Stays.xsendSourceRead {st i : Nat} (h : Keeps w r s) : Stays w r (execXsendSourceRead st i s) :=
  .next (h.onXfer fun _ _ _ h => by
  split
  · refine Keeps.ite h ?_
    split
    rename_i bs s₁ e₁
    have h₁ := h.race.snd e₁
    exact h₁.setXfer.chan.incToken
  · exact h)

theorem Stays.xsendDeliver {st i : Nat} (h : Keeps w r s) : Stays w r (execXsendDeliver st i s) :=
  .next (h.onXfer fun _ _ _ h => by
    split
    · split
      · exact h
      · exact Keeps.ite h (h.endXfer.modArch fun _ h => by exact h.store).incToken
    · exact h)

theorem Stays.haloDescriptorCopy {st i : Nat} (h : Keeps w r s) : Stays w r (execHaloDescriptorCopy st i s) :=
  .next (h.onXfer fun _ _ _ h => by
  split
  · dsimp only
    split
    · exact h.lateFault
    · exact h.sourced.setXfer
  · exact h)

theorem Keeps.readRows {c st since : Nat} {b : Halo} {rows : List Bytes} {lo hi : Nat} (h : Keeps w r s) :
    Keeps w r (s.readRows c st since b rows lo hi).2 := h.foldlSnd fun _ _ h => by
  dsimp only
  split
  · exact h.race
  · exact h

theorem Stays.haloSourceRead {st i : Nat} (h : Keeps w r s) : Stays w r (execHaloSourceRead st i s) :=
  .next (h.onXfer fun _ _ _ h => by
  split
  · refine Keeps.ite h ?_
    split
    rename_i rows s₁ e₁
    have h₁ := h.readRows.snd e₁
    exact h₁.setXfer.chan.incToken
  · exact h)

theorem Keeps.putRows {st : Nat} {wide : List (Nat × Nat)} {b : Halo} {rows : List Bytes} {lo hi : Nat} (h : Keeps w r s) :
    Keeps w r (s.putRows st wide b rows lo hi) := h.modArch fun _ h => h.foldl fun _ _ h => h.store

theorem Stays.haloDeliver {st i : Nat} (h : Keeps w r s) : Stays w r (execHaloDeliver st i s) :=
  .next (h.onXfer fun _ _ _ h => by
    split
    · split
      · exact h
      · refine Keeps.ite h ?_
        split
        rename_i rows s₁ e₁
        have h₁ : Keeps w r s₁ := by
          split at e₁
          · obtain ⟨⟩ := e₁
            exact h
          · exact h.readRows.snd e₁
        exact (Keeps.ite h₁.endXfer h₁.setXfer).putRows.incToken
    · exact h)

theorem Stays.ldshpArrive {st i : Nat} (h : Keeps w r s) : Stays w r (execLdshpArrive st i s) := .next (h.atStn fun _ h => by
  split
  · exact Keeps.ite h.storeTraffic.ringBytes.lateFault (Keeps.ite h.storeTraffic.ringBytes.lateFault
      (h.storeTraffic.ringBytes.modArch fun _ h => by exact .ite (.of h rfl) (.of h rfl)).incToken)
  · exact h)

/-! ### Machine/Weave.lean -/

theorem Stays.wvStart {st : Nat} (h : Keeps w r s) : Stays w r (execWvStart st s) :=
  .next (Keeps.ite (h.noteCause.modArch fun _ h => h.startWeave) h)

theorem Keeps.fetchTopups {c : Nat} {j : WvJob} {chunk : Nat} (h : Keeps w r s) : Keeps w r (s.fetchTopups c j chunk) := by
  unfold State.fetchTopups
  split
  · exact Keeps.ite h.beginTeardown (h.foldl fun _ _ h => h.imageTraffic)
  · exact h

theorem Keeps.askTopups {c st : Nat} {l : List (Nat × Nat)} (h : Keeps w r s) : Keeps w r (s.askTopups c st l) :=
  h.modCtx.foldl fun _ _ h => h.engineSend

theorem Keeps.takeTopups {c st n : Nat} (h : Keeps w r s) : Keeps w r (s.takeTopups c st n) := h.modCtx.modStn.charge

theorem Keeps.bringTopups {c st : Nat} {j : WvJob} {chunk : Nat} (h : Keeps w r s) :
    Keeps w r (s.bringTopups c st j chunk).2 := by
  unfold State.bringTopups
  dsimp only
  split
  · exact Keeps.ite (Keeps.ite h h.fetchTopups) (Keeps.ite h h.fetchTopups).takeTopups
  · split
    · exact h
    · exact h.askTopups

theorem Stays.topupArrive {st : Nat} (h : Keeps w r s) : Stays w r (execTopupArrive st s) := by
  unfold execTopupArrive
  split
  · exact .next h
  · dsimp only
    split
    · refine Stays.ite (.next h) ?_
      split
      · rename_i s₁ e₁
        have h₁ := h.bringTopups.snd e₁
        exact .next h₁
      · rename_i l s₁ e₁
        have h₁ := h.bringTopups.snd e₁
        refine Stays.ite (.next h₁) ?_
        exact .next (Keeps.ite h₁.draw.modArch.modStn h₁.draw.modArch)
    · split
      · exact .next h
      · refine Stays.ite (.next h) ?_
        split
        · rename_i s₁ e₁
          have h₁ := h.bringTopups.snd e₁
          exact .next h₁
        · rename_i l s₁ e₁
          have h₁ := h.bringTopups.snd e₁
          exact .next (Keeps.ite h₁ h₁.noteCause.modArch)

theorem Keeps.busyWeave {c st n m : Nat} (h : Keeps w r s) : Keeps w r (s.busyWeave c st n m) := h.modStn.charge

theorem Keeps.weaveSoFar {st : Nat} (h : Keeps w r s) : Keeps w r (s.weaveSoFar st) := by
  unfold State.weaveSoFar
  split
  · refine Keeps.ite h ?_
    split
    rename_i d s₁ e₁
    have h₁ := h.draw.snd e₁
    split
    rename_i e s₂ e₂
    have h₂ := h₁.draw.snd e₂
    exact h₂.busyWeave.modArch
  · exact h

theorem Keeps.countWeave {c st : Nat} {j : WvJob} (h : Keeps w r s) : Keeps w r (s.countWeave c st j) := h.busyWeave.modStn

theorem Keeps.writeAccs {c st : Nat} {j : WvJob} (h : Keeps w r s) : Keeps w r (s.writeAccs c st j) :=
  h.draw.draw.modArch fun a h => CanonArch.foldl (a := { a with accs := _, weaveRun := _ }) h fun _ _ h => h

theorem Stays.wvComplete {st : Nat} (h : Keeps w r s) : Stays w r (execWvComplete st s) := .next (h.atStn fun _ h => by
  split
  · exact Keeps.ite h (Keeps.ite h.writeAccs.countWeave.freeRead.incToken h.writeAccs.countWeave.freeRead)
  · exact h)

/-! ### Machine/Supply.lean -/

theorem Keeps.grantNow {p : Pkt} {left : State → Nat} (h : Keeps w r s) : Keeps w r (s.grantNow p left) :=
  h.withParams fun _ h => Keeps.ite h.reply (Keeps.ite h.reply (Keeps.ite h.reply (Keeps.ite h h.frame).setEnvelope.frame.reply))

theorem Keeps.grant {p : Pkt} {left : State → Nat} (h : Keeps True r s) : Keeps True r (s.grant p left) :=
  h.receive fun _ _ _ h => h.grantNow

theorem Keeps.drop {p : Pkt} (h : Keeps w r s) : Keeps w r (s.drop p) := h.reply.toFallback.frame.gvEvent.powerEvent

theorem Stays.envelopeDrop {p : Pkt} (h : Keeps True r s) : Stays True r (execEnvelopeDrop p s) :=
  .next (h.receive fun _ _ _ h => h.withParams fun _ h => Keeps.ite h.frame h.drop)

theorem Keeps.dropAfter (h : Keeps w r s) : Keeps w r s.dropAfter :=
  Keeps.ite h (Keeps.ite h.toFallback (h.frame.foldl fun _ _ h => h.drop))

theorem Stays.envelopeGrant {p : Pkt} (h : Keeps True r s) : Stays True r (execEnvelopeGrant p s) :=
  .next (Keeps.ite h.grant.dropAfter h.grant)

theorem Stays.leaseExpire (h : Keeps w r s) : Stays w r (execLeaseExpire s) := by
  unfold execLeaseExpire
  split
  · exact .next h
  · exact Stays.ite (.next h) (.next h.toFallback.gvEvent.powerEvent)

theorem Keeps.replyRecords {p : Pkt} {l : List LedgerRec} (h : Keeps w r s) : Keeps w r (s.replyRecords p l) :=
  Keeps.ite h.reply h.reply

theorem Stays.ledgerRead {p : Pkt} (h : Keeps True r s) : Stays True r (execLedgerRead p s) :=
  .next (h.receive fun _ _ _ h => h.withLength fun _ h => Keeps.ite h.reply (Keeps.ite h.replyRecords
    (Keeps.ite h.reply h.replyRecords)))

theorem Stays.ledgerWindowClose (h : Keeps w r s) : Stays w r (execLedgerWindowClose s) :=
  Stays.ite (.next h) (.next (Keeps.ite h.frame h.frame.gvEvent).powerEvent)

theorem Keeps.thermalEvent {kind : Nat} {x : Sensor} {i : Nat} {temp : ℤ} (h : Keeps w r s) :
    Keeps w r (s.thermalEvent kind x i temp) := h.postEvent

theorem Keeps.reportSide {x : Sensor} {i : Nat} (h : Keeps w r s) : Keeps w r (s.reportSide x i) := h.modSens.thermalEvent

theorem Keeps.crossed {x : Sensor} {i : Nat} (h : Keeps w r s) : Keeps w r (s.crossed x i) := by
  unfold State.crossed
  dsimp only
  split
  · exact Keeps.ite h.modSens h.reportSide
  · exact h.reportSide

theorem Stays.thermalCrossing {x : Sensor} {i : Nat} {temp : ℤ} (h : Keeps w r s) :
    Stays w r (execThermalCrossing x i temp s) := by
  unfold execThermalCrossing
  refine Stays.ite (.next h) ?_
  refine Stays.ite ?_ (Stays.ite (.next h.modSens.modSens.crossed) (.next h.modSens))
  dsimp only
  refine .next ?_
  split
  · exact h.modSens.modSens.gvEvent.hbEvent.crossed
  · exact h.modSens.modSens.gvEvent.crossed

theorem Stays.thermalReportHoldoff {x : Sensor} {i : Nat} (h : Keeps w r s) : Stays w r (execThermalReportHoldoff x i s) := by
  unfold execThermalReportHoldoff
  refine Stays.ite (.next h) ?_
  split
  · exact .next h
  · exact Stays.ite (.next h) (Stays.ite (.next h.modSens) (.next h.reportSide))

theorem Stays.thermalTrip {x : Sensor} {i : Nat} {temp : ℤ} (h : Keeps w r s) : Stays w r (execThermalTrip x i temp s) :=
  Stays.ite (.next h) (.next h.modSens.frame.departure.dropOwed.thermalEvent.tearDownAll.diesOff.halted.beginQuiet)

theorem Stays.hbmDoubledRefresh {stack : Nat} {temp : ℤ} (h : Keeps w r s) : Stays w r (execHbmDoubledRefresh stack temp s) :=
  Stays.ite (.next h) (.next (Keeps.ite h.modSens.modStk.hbEvent h.modSens.modStk))

theorem Keeps.leaveRange {mv : Nat} (h : Keeps w r s) : Keeps w r (s.leaveRange mv) :=
  Keeps.ite h.frame h.frame.frame.gvEvent.powerEvent

theorem Keeps.beginShed {mv : Nat} (h : Keeps w r s) : Keeps w r (s.beginShed mv) :=
  Keeps.ite h (h.frame.foldNat fun _ _ h => h.weaveSoFar.modStn).gvEvent.powerEvent

theorem Keeps.inputMoves {mv : Nat} (h : Keeps w r s) : Keeps w r (s.inputMoves mv) :=
  Keeps.ite h (Keeps.ite h.frame.powerOff h.leaveRange.beginShed)

theorem Stays.supplyOut {mv : Nat} (h : Keeps w r s) : Stays w r (execSupplyOut mv s) := .next (Keeps.ite h h.inputMoves)

theorem Stays.supplyOutClear {mv : Nat} (h : Keeps w r s) : Stays w r (execSupplyOutClear mv s) :=
  Stays.ite (.next h) (.next h.frame.powerEvent)

theorem Stays.shed {mv : Nat} (h : Keeps w r s) : Stays w r (execShed mv s) := .next (Keeps.ite h h.inputMoves)

theorem Stays.shedEnd {mv : Nat} (h : Keeps w r s) : Stays w r (execShedEnd mv s) :=
  Stays.ite (.next h) (.next h.frame.powerEvent)

theorem Stays.lastGaspSave {mv : InputDip} (h : Keeps w r s) : Stays w r (execLastGaspSave mv s) :=
  Stays.ite (.next h) (Stays.ite (.next h.inputMoves) (.next
    (Keeps.ite (Keeps.ite h.inputMoves h.inputMoves.save).frame.powerOff (Keeps.ite h.inputMoves h.inputMoves.save).frame)))

/-! ### Machine/Serial.lean -/

theorem Keeps.runBaton {k : Slot} {p : Pkt} (h : Keeps w r s) : Keeps w r (s.runBaton k p) := by
  unfold State.runBaton
  split
  · exact h.applyRegWrite
  · exact h.partLayout
  · exact h.partKey
  · exact h.wiringPlan
  · exact Keeps.ite h.grantNow.dropAfter h.grantNow
  · exact h.alarmPolicy
  · exact h.fwUpdate
  · exact h.netConfig
  · exact h

theorem Keeps.startSerial {k : Slot} {p : Pkt} (h : Keeps w r s) : Keeps w r (s.startSerial k p) :=
  Keeps.ite h (Keeps.ite h.reply h.runBaton)

theorem Keeps.runSerial {n : Nat} (h : Keeps w r s) : Keeps w r (State.runSerial n s) := by
  induction n generalizing s with
  | zero => exact h
  | succ n ih =>
    unfold State.runSerial
    split
    · exact h
    · rename_i e
      refine Keeps.ite h (ih (Keeps.startSerial (h.trans ⟨rfl, id, .inr fun hs => ?_⟩)))
      rw [e] at hs
      cases hs

/-! ### Machine/Serving.lean -/

theorem Keeps.staleResult {c : Nat} (h : Keeps w r s) : Keeps w r (s.staleResult c) := h.moEvent.modPart

theorem Stays.serve {c : Nat} (h : Keeps w r s) : Stays w r (execServe c s) := by
  unfold execServe
  split
  · exact .next h
  · dsimp only
    split
    · exact .next h
    · exact Stays.ite (.next h.takeReq.dispFault) (.next h.takeReq.modMoe)

theorem Keeps.sendReturn {c : Nat} {p : StepPlan} {a : ArrivalRec} {flags : Nat} {res : Bytes} (h : Keeps w r s) :
    Keeps w r (s.sendReturn c p a flags res) := h.sendMsg

theorem Keeps.listServe {c : Nat} {p : StepPlan} {g : ExpertGroup} {j : Nat} {x : HomeDecl × Nat × List ArrivalRec}
    (h : Keeps w r s) : Keeps w r (s.listServe c p g j x) := by
  unfold State.listServe
  split
  exact h.put.put.putShape.putShape

theorem Keeps.serveGroup {c : Nat} {p : StepPlan} {q : DispReq} {rows : List ArrivalRec} {group : Nat} (h : Keeps w r s) :
    Keeps w r (s.serveGroup c p q rows group) := by
  unfold State.serveGroup
  split
  · exact h
  · exact ((h.foldl fun _ _ h => h.listServe).foldNat fun _ _ h => h.putShape.putShape).putShape.modCtx.dispToken.foldl
      fun _ _ h => h.dispToken

theorem Keeps.refuseRow {c : Nat} {p : StepPlan} {a : ArrivalRec} (h : Keeps w r s) : Keeps w r (s.refuseRow c p a) :=
  h.sendReturn.modPart

theorem Stays.serveProceed {c : Nat} (h : Keeps w r s) : Stays w r (execServeProceed c s) := by
  unfold execServeProceed
  dsimp only
  split
  · exact Stays.ite (.next h.dispFault) (.next ((h.modMoe.foldl fun _ _ h => h.refuseRow).foldNat fun _ _ h =>
      h.serveGroup).dispDone)
  · exact .next h

theorem Keeps.returnRow {c : Nat} {p : StepPlan} {table i : Nat} {a : ArrivalRec} (h : Keeps w r s) :
    Keeps w r (s.returnRow c p table i a) := Keeps.ite h h.seenStore.storeTraffic.sendReturn.modPart

theorem Stays.dispatchReturn {c : Nat} (h : Keeps w r s) : Stays w r (execDispatchReturn c s) := by
  unfold execDispatchReturn
  split
  · exact .next h
  · dsimp only
    split
    · exact .next h
    · split
      · exact .next h.takeReq.dispFault
      · exact Stays.ite (.next h.takeReq.dispFault) (.next (h.takeReq.modMoe.foldl fun _ _ h => h.returnRow).dispDone)

theorem Keeps.applyArrival {c source addr slot : Nat} {bs : Bytes} {rail : Nat} (h : Keeps w r s) :
    Keeps w r (s.applyArrival c source addr slot bs rail) := h.put.modMoe

theorem Keeps.writeReturn {c : Nat} {p : StepPlan} {group pair : Nat} {bs : Bytes} (h : Keeps w r s) :
    Keeps w r (s.writeReturn c p group pair bs) := by
  unfold State.writeReturn
  split
  · exact h
  · exact h.put.dispToken

theorem Keeps.applyReturn {c : Nat} {bs : Bytes} (h : Keeps w r s) : Keeps w r (s.applyReturn c bs) := by
  unfold State.applyReturn
  dsimp only
  split
  · exact h.discard
  · refine Keeps.ite h.staleResult ?_
    split
    · exact h.discard
    · exact (Keeps.ite h.modMoe.moEvent h.modMoe).writeReturn

theorem Keeps.applyBlock {c : Nat} {p : StepPlan} {v : Caravan} {b : BorrowRun} {block : Nat} {bs : Bytes} (h : Keeps w r s) :
    Keeps w r (s.applyBlock c p v b block bs) :=
  Keeps.ite (h.foldl fun _ _ h => h.put).modMoe ((h.foldl fun _ _ h => h.put).modMoe.foldl fun _ x h => by
    obtain ⟨g, y, t⟩ := x
    dsimp only
    split
    · exact h.dispToken
    · exact h)

theorem Keeps.applyRelay {c layer expert block epoch : Nat} {bs : Bytes} (h : Keeps w r s) :
    Keeps w r (s.applyRelay c layer expert block epoch bs) := by
  unfold State.applyRelay
  dsimp only
  split
  · exact h.applyBlock
  · exact h.moEvent.modPart

theorem Keeps.applyMsg {c kind : Nat} {m : Msg} {a b d e : Nat} (h : Keeps w r s) : Keeps w r (s.applyMsg c kind m a b d e) := by
  unfold State.applyMsg
  split
  · exact h.applyArrival
  · exact h.modMoe
  · exact h.modMoe
  · exact h.modMoe
  · exact h.applyReturn
  · exact h.applyRelay

theorem Keeps.reachCtx {c kind : Nat} {m : Msg} {a b d e : Nat} (h : Keeps w r s) : Keeps w r (s.reachCtx c kind m a b d e) :=
  Keeps.ite h.logArrival h.applyMsg

theorem Keeps.onDispatch {t : BitVec 8} {m : Msg} {f : Nat → Option (State → State)} (h : Keeps w r s)
    (hf : ∀ c g, f c = some g → ∀ s, Keeps w r s → Keeps w r (g s)) : 
    Keeps w r (s.onDispatch t m f) := h.onMsg fun _ h => by
  split
  · exact Keeps.ite h.discard h.respond
  · refine Keeps.ite h.respond ?_
    split
    · exact h.respond
    · rename_i g e
      exact (hf _ g e _ h).respond

theorem Stays.arrival {m : Msg} (h : Keeps w r s) : Stays w r (execArrival m s) := .next (h.onDispatch fun c g e s h => by
  dsimp only at e
  split at e
  · split at e
    · split at e
      · obtain ⟨⟩ := e
        exact h.reachCtx
      · cases e
    · cases e
  · cases e)

theorem Stays.shipDone {m : Msg} {stepNo layer count : Nat} (h : Keeps w r s) : Stays w r (execShipDone m stepNo layer count s) :=
  .next (h.onDispatch fun c g e s h => by
    obtain ⟨i, _, rfl⟩ := Option.map_eq_some_iff.1 e
    exact h.reachCtx)

theorem Stays.borrow {m : Msg} {stepNo layer expert epoch : Nat} (h : Keeps w r s) :
    Stays w r (execBorrow m stepNo layer expert epoch s) := .next (h.onDispatch fun c g e s h => by
  dsimp only at e
  split at e
  · split at e
    · obtain ⟨⟩ := e
      exact h.applyMsg
    · cases e
  · cases e)

theorem Stays.cancel {m : Msg} {epoch : Nat} (h : Keeps w r s) : Stays w r (execCancel m epoch s) :=
  .next (h.onDispatch fun c g e s h => by
    obtain ⟨i, _, rfl⟩ := Option.map_eq_some_iff.1 e
    exact h.reachCtx)

theorem Stays.returnRec {m : Msg} (h : Keeps w r s) : Stays w r (execReturnRec m s) := .next (h.onMsg fun _ h => by
  split
  · exact h.discard
  · exact h.reachCtx)

theorem Keeps.relayTo {job : BitVec 32} {q : RelayHdr} {pos : Nat} {bs : Bytes} (h : Keeps w r s) :
    Keeps w r (s.relayTo job q pos bs) := by
  unfold State.relayTo
  split
  · exact h
  · exact h.plainSend

theorem Keeps.forward {m : Msg} {q : RelayHdr} {bs : Bytes} (h : Keeps w r s) : Keeps w r (s.forward m q bs) :=
  h.foldNat fun _ _ h => by
  dsimp only
  split
  · exact h.relayTo.modPart
  · exact h.relayTo

theorem Stays.relayBlock {m : Msg} {q : RelayHdr} (h : Keeps w r s) : Stays w r (execRelayBlock m q s) :=
  .next (h.onMsg fun _ h => by
  refine Keeps.ite h.discard ?_
  dsimp only
  split
  · exact h.forward.reachCtx
  · exact h.forward)

theorem Keeps.sendBlocks {c : Nat} {g : Image} {t : Tensor} {q : RelayHdr} (h : Keeps w r s) : Keeps w r (s.sendBlocks c g t q) :=
  h.foldNat fun _ _ h => h.imageTraffic.relayTo.modPart

theorem Stays.relayTreeStart {c layer expert : Nat} (h : Keeps w r s) : Stays w r (execRelayTreeStart c layer expert s) := by
  unfold execRelayTreeStart
  dsimp only
  split
  · exact .next h
  · split
    · split
      · exact .next h
      · exact Stays.ite (.next h) (Stays.ite (.next h.modMoe.beginTeardown) (.next h.modMoe.modPart.sendBlocks))
    · exact .next h

theorem Keeps.loosenLanes {c : Nat} {p : StepPlan} {b : BorrowRun} (h : Keeps w r s) : Keeps w r (s.loosenLanes c p b) := by
  unfold State.loosenLanes
  split
  · exact h
  · exact h.foldl fun _ _ h => h.race.modCtx fun _ h => h.write

theorem Keeps.batchCancel {c : Nat} (h : Keeps w r s) : Keeps w r (s.batchCancel c) := by
  unfold State.batchCancel
  dsimp only
  split
  · exact (h.modMoe.foldNat fun _ _ h => h.engineSend).modMoe.moEvent
  · exact ((h.modMoe.foldNat fun _ _ h => h.engineSend).modMoe.moEvent.foldl fun _ _ h => h.writeReturn).foldl fun _ _ h =>
      h.loosenLanes.foldl fun _ _ h => by
      split
      · exact h.dispToken
      · exact h

theorem Keeps.applyLog {c : Nat} (h : Keeps w r s) : Keeps w r (s.applyLog c) :=
  Keeps.ite h (h.hamperTraffic.modCtx.foldl fun _ _ h => by
  split
  · exact h.incToken
  · exact h.put
  · exact h.applyMsg)

/-! ### Machine/Scheduler.lean -/

theorem Keeps.askPreempt {p : Nat} (h : Keeps w r s) : Keeps w r (s.askPreempt p) := h.modPart

theorem Keeps.runs {c : Nat} (h : Keeps w r s) : Keeps w r (s.runs c) := Keeps.ite h.nowRuns.scEvent h.nowRuns

theorem Keeps.firstRun {c : Nat} (h : Keeps w r s) : Keeps w r (s.firstRun c) :=
  (h.loadStations fun _ _ => by exact rfl).runs.unshelf.applyLog.beginStep

theorem Keeps.takeHold {p c : Nat} (h : Keeps w r s) : Keeps w r (s.takeHold p c) :=
  Keeps.ite h.modPart.modCtx (Keeps.ite (Keeps.ite h.modPart.modPart.beginSlice.modCtx.stationsEnter.askAgain
    h.modPart.modPart.beginSlice.firstRun).askPreempt (Keeps.ite h.modPart.modPart.beginSlice.modCtx.stationsEnter.askAgain
    h.modPart.modPart.beginSlice.firstRun))

theorem Stays.takeStations {p : Nat} (h : Keeps w r s) : Stays w r (execTakeStations p s) := by
  unfold execTakeStations
  refine Stays.ite (.next h) ?_
  split
  · exact .next h
  · exact .next (Keeps.ite h.takeHold h)

theorem Stays.restoreDone {p : Nat} (h : Keeps w r s) : Stays w r (execRestoreDone p s) := by
  unfold execRestoreDone
  split
  · exact .next h
  · refine Stays.ite (.next h) ?_
    rename_i c _
    have h₁ := (h.recordTraffic (c := c).shelfTraffic (c := c).loadStations (c := c) (f := fun rel => mget {} (s.ctx c).saved rel)
      (fun hr => ((h.2.1 hr).1 c).2)).refetch (c := c).restage (c := c)
    exact .next (Keeps.ite h₁.runs.unshelf.applyLog h₁)

theorem Stays.sliceExpire {p : Nat} (h : Keeps w r s) : Stays w r (execSliceExpire p s) := by
  unfold execSliceExpire
  split
  · exact .next h
  · exact .next (Keeps.ite h (Keeps.ite h.askPreempt h.beginSlice))

theorem Stays.preemptStart {p : Nat} (h : Keeps w r s) : Stays w r (execPreemptStart p s) := by
  unfold execPreemptStart
  split
  · exact .next h
  · exact .next (Keeps.ite h.startSave h)

theorem Stays.preemptSaved {p : Nat} (h : Keeps w r s) : Stays w r (execPreemptSaved p s) := by
  unfold execPreemptSaved
  split
  · exact .next h
  · exact Stays.ite (.next h) (.next (h.saveStations.recordTraffic.shelfTraffic.leaveStations.modPart.gateEvent.modCtx
      fun k h => .ite h (CanonCtx.becomesReady (k := { k with window := _ }) h)))

theorem Stays.blockExpectedEnd {c : Nat} (h : Keeps w r s) : Stays w r (execBlockExpectedEnd c s) := .next (Keeps.ite h.modCtx h)

theorem Stays.reservedWindowLead {c : Nat} (h : Keeps w r s) : Stays w r (execReservedWindowLead c s) := by
  unfold execReservedWindowLead
  dsimp only
  split
  · exact .next h
  · split
    · exact .next h
    · exact Stays.ite (.next h) (.next (Keeps.ite h.modCtx (Keeps.ite h.modCtx.modPart h.modCtx.askPreempt)))

theorem Stays.reservedWindowEnd {c : Nat} (h : Keeps w r s) : Stays w r (execReservedWindowEnd c s) := by
  unfold execReservedWindowEnd
  dsimp only
  split
  · exact Stays.ite (.next h) (.next (Keeps.ite h.modCtx.askPreempt h.modCtx))
  · exact .next h

theorem Keeps.evictCtx {c : Nat} (h : Keeps w r s) : Keeps w r (s.evictCtx c) := Keeps.ite h.modCtx.askPreempt h.modCtx

theorem Stays.swapInStart {p : Nat} (h : Keeps w r s) : Stays w r (execSwapInStart p s) := by
  unfold execSwapInStart
  split
  · exact .next h
  · refine Stays.ite (.next h) ?_
    refine Stays.ite (.next (Keeps.ite h.modCtx.askAgain h.modCtx)) ?_
    refine Stays.ite ?_ (.next h)
    split
    · exact .next (Keeps.ite h.evictCtx h)
    · exact .next h

theorem Stays.swapAgeExpire {p : Nat} (h : Keeps w r s) : Stays w r (execSwapAgeExpire p s) := by
  unfold execSwapAgeExpire
  split
  · exact .next h
  · refine Stays.ite (.next h) ?_
    split
    · exact .next (Keeps.ite h.evictCtx.scEvent h)
    · exact .next h

theorem Stays.swapInDone {c : Nat} (h : Keeps w r s) : Stays w r (execSwapInDone c s) := by
  unfold execSwapInDone
  extract_lets k s₁ s₂ s₃
  refine Stays.ite (.next h) ?_
  have h₁ : Keeps w r s₁ := h.modCtx fun k h =>
    .ite (.of h rfl rfl) (.ite (.of h rfl rfl) (.ite (.of h rfl rfl) (.of h rfl rfl)))
  have h₂ : Keeps w r s₂ := by
    unfold s₂
    split
    · exact h₁.modImage
    · exact h₁
  exact .next (Keeps.ite h₂.swapTraffic.refetch.restage h₂.swapTraffic).serveWaiting

theorem Stays.swapOutDone {c : Nat} (h : Keeps w r s) : Stays w r (execSwapOutDone c s) :=
  Stays.ite (.next h) (.next (h.swapTraffic.dropLab.modCtx fun _ h => by exact .of h.dropCopies rfl rfl).gateEvent.modPart)

/-! ### Machine/Waits.lean -/

theorem Stays.blockDetect {p : Nat} (h : Keeps w r s) : Stays w r (execBlockDetect p s) := by
  unfold execBlockDetect
  split
  · exact .next h
  · dsimp only
    split
    · exact .next h
    · exact Stays.ite (.next h) (.next (Keeps.ite h.modCtx.askPreempt h.modCtx))

theorem Keeps.noteHolder {p : Nat} (h : Keeps w r s) : Keeps w r (s.noteHolder p) := by
  unfold State.noteHolder
  split
  · exact h
  · exact h.foldNat fun _ _ h => h.noteCause

theorem Keeps.holderWaits {p : Nat} (h : Keeps w r s) : Keeps w r (s.holderWaits p) := by
  unfold State.holderWaits
  split
  · exact h
  · exact h.modCtx

/-! ### Machine/Clock.lean -/

theorem Keeps.writeFw (h : Keeps w r s) : Keeps w r s.writeFw := by
  unfold State.writeFw
  split
  · exact h
  · exact Keeps.ite h.endFw h.frame

theorem Keeps.beat (h : Keeps w r s) : Keeps w r s.beat := Keeps.ite h.frame h

theorem Keeps.countTime (h : Keeps w r s) : Keeps w r s.countTime := ((h.foldNat fun _ _ h => by
  refine Keeps.ite ?_ h
  split
  rename_i d s₁ e₁
  have h₁ := h.draw.snd e₁
  exact h₁.modStn).foldNat fun _ _ h => h.foldNat fun _ _ h => by
  refine Keeps.ite ?_ h
  split
  rename_i d s₁ e₁
  have h₁ := h.draw.snd e₁
  exact h₁.modStk).foldNat fun _ _ h => Keeps.ite h.modDrover h

theorem Keeps.tick (h : Keeps w r s) : Keeps w r s.tick := by
  have h₁ : Keeps w r (s.foldNat (List.range s.sched.count) State.holderWaits) := h.foldNat fun _ _ h => h.holderWaits
  exact Keeps.ite ((Keeps.ite ((h₁.foldNat fun _ _ h => h.noteHolder).foldNat fun _ _ h => h.chargeHolding).countTime
    h₁).frame.beat.writeFw.runSerial.endDrains fun _ _ h => h.portDrained) h

/-! ### Machine/BringUp.lean -/

theorem Stays.powerApplied {mv : Nat} (h : Keeps w r s) : Stays w r (execPowerApplied mv s) :=
  Stays.ite (.next h) (.next (h.trans ⟨rfl, fun _ => .ofEmpty rfl rfl rfl rfl fun _ => .empty, .inr fun _ => rfl⟩))

theorem Keeps.bootFrom {bank : Bool} (h : Keeps w r s) : Keeps w r (s.bootFrom bank) := by
  unfold State.bootFrom
  refine Keeps.ite h.frame ?_
  split
  exact h.frame.frame

theorem Keeps.startFirmware (h : Keeps w r s) : Keeps w r s.startFirmware :=
  (h.foldNat fun _ _ h => h.modPort).startMetering.applyDeferred.runWaiting.tryDies

theorem Stays.bootRom (h : Keeps w r s) : Stays w r (execBootRom s) :=
  Stays.ite (.next h) (Stays.ite (.next h.frame.frame.bootFrom.startFirmware) (Stays.ite
    (.next h.frame.frame.frame.seEvent.bootFrom.startFirmware) (.next h.frame.frame.frame)))

theorem Stays.reservoirCharged (h : Keeps w r s) : Stays w r (execReservoirCharged s) :=
  Stays.ite (.next h.frame.tryDies) (.next h)

theorem Keeps.channelOut {n ch : Nat} (h : Keeps w r s) : Keeps w r (s.channelOut n ch) :=
  Keeps.ite h h.modStk.hbEvent.logFaultQuiet

theorem Stays.hbmTrainingDone {failed : List (Nat × Nat)} (h : Keeps w r s) : Stays w r (execHbmTrainingDone failed s) := by
  unfold execHbmTrainingDone
  extract_lets s₁ s₂ s₃ s₄
  have h₁ : Keeps w r s₁ := h.foldNat fun _ _ h => h.modStk
  have h₂ : Keeps w r s₂ := h₁.foldl fun _ _ h => h.channelOut
  have h₃ : Keeps w r s₃ := h₂.foldNat fun _ _ h => h.modStk
  have h₄ : Keeps w r s₄ := h₃.foldNat fun _ _ h => h.modStn
  clear_value s₄
  exact Stays.ite (.next h) (.next h₄.frame)

theorem Keeps.testStation {i : Nat} {bits : BitVec 7} (h : Keeps w r s) : Keeps w r (s.testStation i bits) :=
  Keeps.ite h h.modStn.logFaultQuiet

theorem Keeps.testSlice {i : Nat} (h : Keeps w r s) : Keeps w r (s.testSlice i) :=
  Keeps.ite h h.frame.csEvent.logFaultQuiet.testStation

theorem Keeps.testLink {st l : Nat} (h : Keeps w r s) : Keeps w r (s.testLink st l) := by
  unfold State.testLink
  split
  · exact h
  · exact h.modStn.modStn.logFaultQuiet

theorem Stays.selfTestDone {q : SelfTest} (h : Keeps w r s) : Stays w r (execSelfTestDone q s) := by
  unfold execSelfTestDone
  extract_lets s₁ s₂ s₃ s₄ s₅ s₆ s₇
  have h₁ : Keeps w r s₁ := h.foldl fun _ _ h => h.testStation
  have h₂ : Keeps w r s₂ := h₁.foldNat fun _ _ h => h.testSlice
  have h₃ : Keeps w r s₃ := h₂.foldNat fun _ _ h => h.testStation
  have h₄ : Keeps w r s₄ := h₃.foldl fun _ _ h => h.testLink
  have h₅ : Keeps w r s₅ := h₄.foldl fun _ _ h => h.channelOut
  have h₆ : Keeps w r s₆ := h₅.foldNat fun _ _ h => h.modStk
  have h₇ : Keeps w r s₇ := h₆.foldNat fun _ _ h => h.modStn fun _ _ => CanonArch.empty
  clear_value s₇
  exact Stays.ite (.next h) (.next h₇.frame.trySplit)

theorem Stays.rstNLow (h : Keeps w r s) : Stays w r (execRstNLow s) :=
  Stays.ite (.next h) (.next (Keeps.ite h.frame h.frame.warmReset))

theorem Stays.rstNRelease (h : Keeps w r s) : Stays w r (execRstNRelease s) := .next h.frame

theorem Stays.resetTemperatureOk {maxTemp : ℤ} (h : Keeps w r s) : Stays w r (execResetTemperatureOk maxTemp s) :=
  Stays.ite (.next h) (.next h.setMode.frame)

theorem Stays.hbmZeroDone (h : Keeps w r s) : Stays w r (execHbmZeroDone s) := Stays.ite (.next h.frame.trySplit) (.next h)

theorem Keeps.removeInSave (h : Keeps w r s) : Keeps w r s.removeInSave := by
  unfold State.removeInSave
  refine Keeps.ite h ?_
  split
  rename_i d s₁ e₁
  have h₁ := h.draw.snd e₁
  exact Keeps.ite h₁.logFaultQuiet h₁

theorem Stays.trayRemoval (h : Keeps w r s) : Stays w r (execTrayRemoval s) :=
  Stays.ite (.next h) (Stays.ite (.next h.frame) (.next (Keeps.ite h.frame.removeInSave h.frame.save).frame))

theorem Stays.presenceClose (h : Keeps w r s) : Stays w r (execPresenceClose s) :=
  Stays.ite (.next h.frame.warmReset) (.next h.frame.tryDies)

theorem Stays.jtagInstruction {op : JtagOp} (h : Keeps w r s) : Stays w r (execJtagInstruction op s) := by
  unfold execJtagInstruction
  refine Stays.ite (.next h) ?_
  refine Stays.ite (.next h) ?_
  split
  rename_i d s₁ e₁
  have h₁ := h.draw.snd e₁
  exact .next h₁.frame

/-! ### Machine/Loader.lean -/

theorem Keeps.createImage {p : Nat} {it : Itin} (h : Keeps w r s) : Keeps w r (s.createImage p it) := by
  unfold State.createImage
  split
  · exact h
  · refine Keeps.ite h (h.images (l := s.images ++ _) fun g hg => ?_).frame
    rcases List.mem_append.1 hg with hg | hg
    · exact .inl hg
    · rw [List.mem_singleton.1 hg]
      exact .inr rfl

theorem Keeps.createContext {p c : Nat} {f : Bytes} (h : Keeps w r s) : Keeps w r (s.createContext p c f) :=
  h.createImage.modCtx fun _ _ => ⟨wf_initialStore _, fun _ => rfl⟩

theorem Keeps.loadFile {j : LoadJob} (h : Keeps w r s) : Keeps w r (s.loadFile j) := by
  unfold State.loadFile
  split
  · exact h.createContext.gateEvent.hamperTraffic.replyOwed
  · exact h.frame.replyOwed
  · exact h.replyOwed

theorem Stays.itinCheck {file : Bytes} (h : Keeps w r s) : Stays w r (execItinCheck file s) := by
  unfold execItinCheck
  split
  · exact .next h
  · exact Stays.ite (.next h) (.next h.frame.loadFile.runServices)

theorem Stays.itinLoad {p : Pkt} (h : Keeps True r s) : Stays True r (execItinLoad p s) :=
  .next (h.receive fun _ _ _ h => h.withParams fun _ h => Keeps.ite h.reply (Keeps.ite h.reply
    (Keeps.ite h.reply h.enqueueService)))

/-! ### Machine/CtxCmds.lean -/

theorem Keeps.ctxCmd {op : Nat} {p : Pkt} {n : Nat} {l : List (Nat × Nat)} {f : State → Nat → Slot → State} (h : Keeps True r s)
    (hf : ∀ s x y, Keeps True r s → Keeps True r (f s x y)) : Keeps True r (s.ctxCmd op p n l f) :=
  h.receive fun _ _ _ h => h.withParams fun _ h => h.withCtx fun _ _ h => h.serial fun _ h => hf _ _ _ h

theorem Stays.ctxStart {p : Pkt} (h : Keeps True r s) : Stays True r (execCtxStart p s) :=
  .next (h.receive fun _ _ _ h => h.withLength fun _ h => Keeps.ite h.reply (h.withZeros fun _ h => h.withCtx fun _ _ h =>
    h.serial fun _ h => Keeps.ite h.reply h.modCtx.reply))

theorem Stays.ctxEnd {p : Pkt} (h : Keeps True r s) : Stays True r (execCtxEnd p s) :=
  .next (h.ctxCmd fun _ _ _ h => Keeps.ite h.releaseAll.endContext.reply h.beginTeardown.modCtx)

theorem Stays.ctxQuery {p : Pkt} (h : Keeps True r s) : Stays True r (execCtxQuery p s) := .next (h.ctxCmd fun _ _ _ h => h.reply)

theorem Keeps.schedCmd {op : Nat} {p : Pkt} {f : State → Nat → State} (h : Keeps True r s)
    (hf : ∀ s x, Keeps True r s → Keeps True r (f s x)) : Keeps True r (s.schedCmd op p f) :=
  Keeps.ite h (h.ctxCmd fun _ _ _ h => Keeps.ite h.reply (Keeps.ite h.reply (hf _ _ h)))

theorem Stays.ctxSchedSlice {p : Pkt} (h : Keeps True r s) : Stays True r (execCtxSchedSlice p s) :=
  .next (h.schedCmd fun _ _ h => Keeps.ite h.reply h.modCtx.reply)

theorem Stays.ctxSchedReserve {p : Pkt} (h : Keeps True r s) : Stays True r (execCtxSchedReserve p s) :=
  .next (h.schedCmd fun _ _ h => Keeps.ite h.reply (Keeps.ite h.reply (Keeps.ite h.reply h.modCtx.reply)))

theorem Stays.ctxSchedUnreserve {p : Pkt} (h : Keeps True r s) : Stays True r (execCtxSchedUnreserve p s) :=
  .next (h.schedCmd fun _ _ h => h.modCtx.reply)

theorem Stays.ctxSchedPark {p : Pkt} (h : Keeps True r s) : Stays True r (execCtxSchedPark p s) :=
  .next (h.schedCmd fun _ _ h => Keeps.ite h.reply (Keeps.ite h.modCtx.reply h.modCtx.reply))

theorem Stays.ctxSchedUnpark {p : Pkt} (h : Keeps True r s) : Stays True r (execCtxSchedUnpark p s) :=
  .next (h.schedCmd fun _ _ h => Keeps.ite h.reply (h.modCtx fun _ h => h.unpark).reply)

theorem Stays.ctxSchedInterval {p : Pkt} (h : Keeps True r s) : Stays True r (execCtxSchedInterval p s) :=
  .next (h.schedCmd fun _ _ h => Keeps.ite h.reply h.modCtx.reply)

theorem Stays.ctxPolicy {p : Pkt} (h : Keeps True r s) : Stays True r (execCtxPolicy p s) :=
  .next (h.receive fun _ _ _ h => h.withLength fun _ h => Keeps.ite h.reply (h.withZeros fun _ h => h.withCtx fun _ _ h =>
    h.serial fun _ h => Keeps.ite h.reply (Keeps.ite h.reply h.modCtx.reply)))

theorem Keeps.refusePost {p : Pkt} {c : Nat} {st : BitVec 16} (h : Keeps w r s) : Keeps w r (s.refusePost p c st) :=
  h.moEvent.modPart.reply

theorem Stays.planPost {p : Pkt} (h : Keeps True r s) : Stays True r (execPlanPost p s) := .next (h.ctxCmd fun _ _ _ h => by
  dsimp only
  split
  · exact h.refusePost
  · refine Keeps.ite h.refusePost ?_
    split
    · exact h.refusePost
    · exact Keeps.ite h.refusePost h.modMoe.reply)

theorem Stays.batchCancel {p : Pkt} (h : Keeps True r s) : Stays True r (execBatchCancel p s) :=
  .next (h.ctxCmd fun _ _ _ h => Keeps.ite h.reply h.batchCancel.reply)

/-! ### Machine/Messages.lean -/

theorem Stays.read {m : Msg} (h : Keeps w r s) : Stays w r (execRead m s) := .next h.onReq

theorem Stays.write {m : Msg} (h : Keeps w r s) : Stays w r (execWrite m s) := .next h.onReq

theorem Stays.bulkRead {m : Msg} (h : Keeps w r s) : Stays w r (execBulkRead m s) := .next h.onReq

theorem Stays.bulkWrite {m : Msg} (h : Keeps w r s) : Stays w r (execBulkWrite m s) := .next h.onReq

theorem Stays.atomicAdd {m : Msg} (h : Keeps w r s) : Stays w r (execAtomicAdd m s) := .next (Keeps.ite h.onReq h)

theorem Stays.atomicMax {m : Msg} (h : Keeps w r s) : Stays w r (execAtomicMax m s) := .next (Keeps.ite h.onReq h)

theorem Stays.atomicCas {m : Msg} (h : Keeps w r s) : Stays w r (execAtomicCas m s) := .next (Keeps.ite h.onReq h)

theorem Stays.atomicFadd {m : Msg} (h : Keeps w r s) : Stays w r (execAtomicFadd m s) := .next (Keeps.ite h.onReq h)

theorem Stays.notify {m : Msg} (h : Keeps w r s) : Stays w r (execNotify m s) := .next h.onReq

/-! ### Machine/Flits.lean -/

theorem Keeps.left {o : Res} (h : Keeps w r s) (ho : Stays w r o) : Keeps w r (s.left o) := by
  unfold State.left
  split
  · exact ho _ rfl
  · exact h

theorem Keeps.takeMsg {t : BitVec 8} {m : Msg} (h : Keeps w r s) : Keeps w r (s.takeMsg t m) := by
  unfold State.takeMsg
  split
  · exact h.left (.read h)
  · exact h.left (.write h)
  · exact h.left (.bulkRead h)
  · exact h.left (.bulkWrite h)
  · exact h.onReq
  · exact h.left (.notify h)
  · exact h.left (.response h)
  · exact h.left (.arrival h)
  · exact h.left (.shipDone h)
  · exact h.left (.borrow h)
  · exact h.left (.cancel h)
  · exact h.left (.returnRec h)
  · exact h.left (.relayBlock h)
  · exact h.left (.departure h)
  · exact h.discard

theorem Stays.flitReceive {q : Nat} {f : Flit} (h : Keeps w r s) : Stays w r (execFlitReceive q f s) := by
  unfold execFlitReceive
  refine Stays.ite (.next h) ?_
  split
  rename_i l s₁ e₁
  have h₁ := h.takeFlit.snd e₁
  exact .next (h₁.foldl fun _ _ h => h.takeMsg)

/-! ### Machine/Governor.lean -/

theorem Keeps.setTargets {p f : Nat} (h : Keeps w r s) : Keeps w r (s.setTargets p f) := h.foldNat fun _ _ h => h.modStn

theorem Keeps.closePeriod {p v : Nat} (h : Keeps w r s) : Keeps w r (s.closePeriod p v) := h.modPart.frame

theorem Keeps.runLoop {p v : Nat} (h : Keeps w r s) : Keeps w r (s.runLoop p v).1 := by
  unfold State.runLoop
  exact h.modPart

theorem Keeps.excursion {p v : Nat} (h : Keeps w r s) : Keeps w r (s.excursion p v) := Keeps.ite h.modPart.gateEvent h.modPart

theorem Keeps.governPart {p : Nat} (h : Keeps w r s) : Keeps w r (s.governPart p) := by
  unfold State.governPart
  extract_lets s₁ g v
  have h₁ : Keeps w r s₁ := h.foldNat fun _ _ h => h.weaveSoFar
  split
  rename_i s₂ f e
  have h₂ : Keeps w r s₂ := by
    split at e
    · obtain ⟨⟩ := e
      exact h₁
    · exact h₁.runLoop.fst e
  exact h₂.excursion.closePeriod.setTargets

theorem Stays.governorTick (h : Keeps w r s) : Stays w r (execGovernorTick s) :=
  Stays.ite (.next h) (.next (h.foldNat fun _ _ h => Keeps.ite h.governPart h.closePeriod).frame)

theorem Keeps.sendBreach {p : Nat} (h : Keeps w r s) : Keeps w r (s.sendBreach p) := h.modPart.powerEvent

theorem Keeps.floorBreach {st : Nat} (h : Keeps w r s) : Keeps w r (s.floorBreach st) := by
  unfold State.floorBreach
  dsimp only
  split
  · refine Keeps.ite ?_ ?_
    · split
      · exact h.frame.gvEvent.modPart.modCtx
      · exact h.frame.gvEvent.modPart
    · split
      · exact h.frame.gvEvent.modPart.modCtx.sendBreach
      · exact h.frame.gvEvent.modPart.sendBreach
  · split
    · exact h.frame.gvEvent.modPart.modCtx.sendBreach
    · exact h.frame.gvEvent.modPart.sendBreach

theorem Stays.floorBreachReport {p : Nat} (h : Keeps w r s) : Stays w r (execFloorBreachReport p s) := by
  unfold execFloorBreachReport
  dsimp only
  split
  · exact .next h
  · exact .next (Keeps.ite h h.sendBreach)

theorem Keeps.modIsland {st : Nat} {f : Island → Island} (h : Keeps w r s) : Keeps w r (s.modIsland st f) := h.modStn

theorem Stays.dcoSettle {st : Nat} {locked : Bool} (h : Keeps w r s) : Stays w r (execDcoSettle st locked s) :=
  Stays.ite (.next h) (Stays.ite (.next h.modIsland) (.next h.failStation))

theorem Stays.droopDetect {st eighths : Nat} (h : Keeps w r s) : Stays w r (execDroopDetect st eighths s) :=
  Stays.ite (.next h) (.next h.modIsland)

theorem Stays.droopRecover {st : Nat} (h : Keeps w r s) : Stays w r (execDroopRecover st s) :=
  Stays.ite (.next h) (.next h.modIsland)

/-! ### Machine/Windows.lean -/

theorem Keeps.shareIdle {st : Nat} {l : List Nat} {n : Nat} (h : Keeps w r s) : Keeps w r (s.shareIdle st l n) := by
  induction l generalizing n s with
  | nil => exact h
  | cons code l ih =>
    rcases l with _ | ⟨c, l⟩
    · exact h.modStn
    · exact ih h.draw.modStn

theorem Keeps.countIdle {st rest : Nat} (h : Keeps w r s) : Keeps w r (s.countIdle st rest) := by
  unfold State.countIdle
  dsimp only
  exact h.draw.draw.modStn.shareIdle

theorem Keeps.countStretch {st cycles : Nat} (h : Keeps w r s) : Keeps w r (s.countStretch st cycles) := by
  unfold State.countStretch
  dsimp only
  exact h.draw.draw.draw.modStn

theorem Stays.islandWindowEnd {st cycles : Nat} (h : Keeps w r s) : Stays w r (execIslandWindowEnd st cycles s) :=
  Stays.ite (.next h) (.next (Keeps.ite h.countIdle.countStretch.floorBreach h.countIdle.countStretch).modStn)

/-! ### Every command -/

/-- Whatever a command answers with, the commands behind it and the canonical form of every memory are kept. -/
theorem exec_stays (c : Instr) (s : State) : Stays True s (exec c s) := by
  have h : Keeps True s s := .refl
  cases c with
  | add | sub | and | or | xor | shl | shr | sra | mul | mulhu | min | max | minu | maxu | slt | sltu | chk | addi | andi |
    ori | xori | shli | shri | srai | li | lim | lit | ld | ldw | st | stw | beq | bne | blt | bge | bltu | bgeu | jmp |
    call | ret | tinc | twait | tread | ldshp | rdspec | step | finish | bar | xld | xst | vld | vst | xvs | xsv | xsend |
    xhalo | xnote | xfab | xwalk | xdisp | vadd | vsub | vmul | vfma | vmax | vmin | vabs | vneg | vsel | vbcast | viota |
    vcvt | vexp | vlog | vrsqrt | vtanh | vrcp | vrsum | vrmax | vrmaxi | vrdacc | vwracc | vq | vdq | wv |
    nop => exact .next h.issue
  | pendingMarkClear => exact .pendingMarkClear h
  | lineFetchArrive => exact .lineFetchArrive h
  | xldComplete => exact .xldComplete h
  | xstComplete => exact .xstComplete h
  | xstNotifyDeliver => exact .xstNotifyDeliver h
  | xnoteDeliver => exact .xnoteDeliver h
  | xsendSourceRead => exact .xsendSourceRead h
  | xsendDeliver => exact .xsendDeliver h
  | haloDescriptorCopy => exact .haloDescriptorCopy h
  | haloSourceRead => exact .haloSourceRead h
  | haloDeliver => exact .haloDeliver h
  | ldshpArrive => exact .ldshpArrive h
  | wvStart => exact .wvStart h
  | topupArrive => exact .topupArrive h
  | wvComplete => exact .wvComplete h
  | stepRelease => exact .stepRelease h
  | barrierRelease => exact .barrierRelease h
  | dcoSettle => exact .dcoSettle h
  | droopDetect => exact .droopDetect h
  | droopRecover => exact .droopRecover h
  | islandWindowEnd => exact .islandWindowEnd h
  | floorBreachReport => exact .floorBreachReport h
  | stationCheckFail => exact .stationCheckFail h
  | ringStopFail => exact .ringStopFail h
  | linkFail => exact .linkFail h
  | sliceUncorrectable => exact .sliceUncorrectable h
  | hbmUncorrectable => exact .hbmUncorrectable h
  | patrolScrubStep => exact .patrolScrubStep h
  | transitWriteDown => exact .transitWriteDown h
  | caravanGroupBegin => exact .caravanGroupBegin h
  | caravanGroupComplete => exact .caravanGroupComplete h
  | walkRead => exact .walkRead h
  | walkAppend => exact .walkAppend h
  | walkCommit => exact .walkCommit h
  | sealComplete => exact .sealComplete h
  | walkLookup => exact .walkLookup h
  | walkFork => exact .walkFork h
  | walkRelease => exact .walkRelease h
  | walkAck => exact .walkAck h
  | walkStageArrive => exact .walkStageArrive h
  | route => exact .route h
  | routeProceed => exact .routeProceed h
  | borrowRequestSend => exact .borrowRequestSend h
  | planDeadline => exact .planDeadline h
  | serve => exact .serve h
  | serveProceed => exact .serveProceed h
  | dispatchReturn => exact .dispatchReturn h
  | relayTreeStart => exact .relayTreeStart h
  | droverDescriptorStart => exact .droverDescriptorStart h
  | read => exact .read h
  | write => exact .write h
  | bulkRead => exact .bulkRead h
  | bulkWrite => exact .bulkWrite h
  | atomicAdd => exact .atomicAdd h
  | atomicMax => exact .atomicMax h
  | atomicCas => exact .atomicCas h
  | atomicFadd => exact .atomicFadd h
  | notify => exact .notify h
  | response => exact .response h
  | arrival => exact .arrival h
  | shipDone => exact .shipDone h
  | borrow => exact .borrow h
  | cancel => exact .cancel h
  | returnRec => exact .returnRec h
  | relayBlock => exact .relayBlock h
  | departure => exact .departure h
  | retryResend => exact .retryResend h
  | unitTimeout => exact .unitTimeout h
  | heldUnitsRelease => exact .heldUnitsRelease h
  | holdExpire => exact .holdExpire h
  | quarantineEnd => exact .quarantineEnd h
  | flitReceive => exact .flitReceive h
  | identityFlitRx => exact .identityFlitRx h
  | portLaneLock => exact .portLaneLock h
  | creditInitDone => exact .creditInitDone h
  | trainStepTimeout => exact .trainStepTimeout h
  | laneFail => exact .laneFail h
  | portDown => exact .portDown h
  | farEndSilent => exact .farEndSilent h
  | rdmaWrite => exact .rdmaWrite h
  | rdmaRead => exact .rdmaRead h
  | rdmaSend => exact .rdmaSend h
  | rdmaCompletion => exact .rdmaCompletion h
  | rdmaRetryTimeout => exact .rdmaRetryTimeout h
  | cnpReceive => exact .cnpReceive h
  | rateRecovery => exact .rateRecovery h
  | hostLinkUp => exact .hostLinkUp h
  | hostLinkDown => exact .hostLinkDown h
  | frameDiscard => exact .frameDiscard h
  | arp => exact .arp h
  | neighborDiscovery => exact .neighborDiscovery h
  | icmpEcho => exact .icmpEcho h
  | plouthDiscard => exact .plouthDiscard h
  | eventRetransmit => exact .eventRetransmit h
  | statusMin => exact .statusMin h
  | reset => exact .reset h
  | halt => exact .halt h
  | zeroize => exact .zeroize h
  | zeroizeComplete => exact .zeroizeComplete h
  | batonBreak => exact .batonBreak h
  | envelopeDrop => exact .envelopeDrop h
  | sessionOpen => exact .sessionOpen h
  | enrol => exact .enrol h
  | sessionClose => exact .sessionClose h
  | eventAck => exact .eventAck h
  | batonTake => exact .batonTake h
  | batonRenew => exact .batonRenew h
  | batonRelease => exact .batonRelease h
  | batonExpire => exact .batonExpire h
  | fwClaimTimeout => exact .fwClaimTimeout h
  | regRead => exact .regRead h
  | regWrite => exact .regWrite h
  | qpCreate => exact .qpCreate h
  | qpDestroy => exact .qpDestroy h
  | itinLoad => exact .itinLoad h
  | itinCheck => exact .itinCheck h
  | ctxStart => exact .ctxStart h
  | ctxEnd => exact .ctxEnd h
  | ctxSchedSlice => exact .ctxSchedSlice h
  | ctxSchedReserve => exact .ctxSchedReserve h
  | ctxSchedUnreserve => exact .ctxSchedUnreserve h
  | ctxSchedPark => exact .ctxSchedPark h
  | ctxSchedUnpark => exact .ctxSchedUnpark h
  | ctxSchedInterval => exact .ctxSchedInterval h
  | ctxQuery => exact .ctxQuery h
  | ctxPolicy => exact .ctxPolicy h
  | planPost => exact .planPost h
  | batchCancel => exact .batchCancel h
  | partLayout => exact .partLayout h
  | partKey => exact .partKey h
  | wiringPlan => exact .wiringPlan h
  | jobTeardown => exact .jobTeardown h
  | envelopeGrant => exact .envelopeGrant h
  | leaseExpire => exact .leaseExpire h
  | ledgerRead => exact .ledgerRead h
  | alarmPolicy => exact .alarmPolicy h
  | attest => exact .attest h
  | fwUpdate => exact .fwUpdate h
  | tallyStreamStart => exact .tallyStreamStart h
  | tallyStreamStop => exact .tallyStreamStop h
  | netConfig => exact .netConfig h
  | serviceStartUnified => exact .serviceStartUnified h
  | serviceStartSplit => exact .serviceStartSplit h
  | faultLogRead => exact .faultLogRead h
  | clrMin => exact .clrMin h
  | markFailed => exact .markFailed h
  | remove => exact .remove h
  | csScrub => exact .csScrub h
  | hbScrub => exact .hbScrub h
  | retrain => exact .retrain h
  | forceUp => exact .forceUp h
  | disable => exact .disable h
  | fbReach => exact .fbReach h
  | freeze => exact .freeze h
  | clear => exact .clear h
  | tlRing => exact .tlRing h
  | tlSel => exact .tlSel h
  | pxWays => exact .pxWays h
  | pxPages => exact .pxPages h
  | gvCtrl => exact .gvCtrl h
  | gvEvent => exact .gvEvent h
  | tallyPeriodPulse => exact .tallyPeriodPulse h
  | tallyCollectDone => exact .tallyCollectDone h
  | tallyRecordWritten => exact .tallyRecordWritten h
  | takeStations => exact .takeStations h
  | sliceExpire => exact .sliceExpire h
  | blockDetect => exact .blockDetect h
  | blockExpectedEnd => exact .blockExpectedEnd h
  | preemptStart => exact .preemptStart h
  | preemptSaved => exact .preemptSaved h
  | restoreDone => exact .restoreDone h
  | swapInStart => exact .swapInStart h
  | swapInDone => exact .swapInDone h
  | swapOutDone => exact .swapOutDone h
  | swapAgeExpire => exact .swapAgeExpire h
  | reservedWindowLead => exact .reservedWindowLead h
  | reservedWindowEnd => exact .reservedWindowEnd h
  | watchdogExpire => exact .watchdogExpire h
  | teardownComplete => exact .teardownComplete h
  | governorTick => exact .governorTick h
  | ledgerWindowClose => exact .ledgerWindowClose h
  | thermalCrossing => exact .thermalCrossing h
  | thermalReportHoldoff => exact .thermalReportHoldoff h
  | thermalTrip => exact .thermalTrip h
  | supplyOut => exact .supplyOut h
  | supplyOutClear => exact .supplyOutClear h
  | shed => exact .shed h
  | shedEnd => exact .shedEnd h
  | lastGaspSave => exact .lastGaspSave h
  | alarmFire => exact .alarmFire h
  | fwIntegrityCheck => exact .fwIntegrityCheck h
  | powerApplied => exact .powerApplied h
  | bootRom => exact .bootRom h
  | reservoirCharged => exact .reservoirCharged h
  | hbmTrainingDone => exact .hbmTrainingDone h
  | selfTestDone => exact .selfTestDone h
  | rstNLow => exact .rstNLow h
  | resetTemperatureOk => exact .resetTemperatureOk h
  | hbmZeroDone => exact .hbmZeroDone h
  | trayRemoval => exact .trayRemoval h
  | presenceClose => exact .presenceClose h
  | hbmDoubledRefresh => exact .hbmDoubledRefresh h
  | identityFlitSend => exact .identityFlitSend h
  | trainingRestart => exact .trainingRestart h
  | rstNRelease => exact .rstNRelease h
  | jtagInstruction => exact .jtagInstruction h

theorem Stays.step (h : s.pending = []) : Stays w s (step s) := by
  unfold Machine.step
  rw [h]
  exact .next Keeps.refl.tick

/-- A command that answers a next state leaves the rest of the queue. -/
theorem step_pending {c : Instr} {l : List Instr} (h : s.pending = c :: l) (ht : step s = .next t) : t.pending = l := by
  unfold Machine.step at ht
  rw [h] at ht
  obtain ⟨hp, -⟩ := exec_stays c _ t ht
  exact hp

theorem canon_reset : Canon State.reset := .ofEmpty rfl rfl rfl rfl fun _ => rfl

theorem step_canon (h : Canon s) (ht : step s = .next t) : Canon t := by
  rcases hp : s.pending with _ | ⟨c, l⟩
  · exact (Stays.step (w := True) hp t ht).memories h
  · unfold Machine.step at ht
    rw [hp] at ht
    exact (exec_stays c _ t ht).memories h

/-- Settles O60: canonical memories are an invariant, for every operation of the model keeps them (`Keeps`). -/
theorem memoryStaysCanonical : Obligations.MemoryStaysCanonical := ⟨canon_reset, fun _ _ h ht => step_canon h ht⟩

end Sys2Proof.Laws
end

section
/-!
SUPPORT. What a tick of the empty queue counts, sends and ends (R53, R332, R343, R359, R413, R450, R452, R475): the parts of
`State.tick` in their order, and the obligation on the queue and time.
-/

-- The lemmas are short and many: elaborating them one after another keeps the threads, each with a large stack, few.
set_option Elab.async false

namespace Sys2Proof.Laws

open Sys2Proof Sys2Proof.Machine

/-! ### Time that passes on an empty queue: what the holders, waits and timed events count -/

/-- Nothing but contexts, partitions, stations, stacks, drovers and the draws moves from `s` to `t`. -/
def Counts (s t : State) : Prop :=
  ∃ ctxs parts stns stks drovers free,
    t = { s with
      ctxs := ctxs, parts := parts, stns := stns, stks := stks, free := free
      fab := { s.fab with drovers := drovers } }

/-- A station counts its timed events and its waits. -/
def StnCounts (a b : Stn) : Prop :=
  ∃ prog waited, b = { a with slice := { a.slice with prog := prog }, island := { a.island with waited := waited } }

/-- A stack counts its timed events. -/
def StkCounts (a b : Stk) : Prop := ∃ tally, b = { a with tally := tally }

/-- A drover counts its timed events. -/
def DroverCounts (a b : Drover) : Prop := ∃ tally, b = { a with tally := tally }

/-- A partition counts energy. -/
def PartCounts (a b : Part) : Prop := ∃ gov, b = { a with gov := gov }

/-- A context counts energy. -/
def CtxCharged (a b : Ctx) : Prop := ∃ energy, b = { a with energy := energy }

/-- A context counts its external wait, its blocked state and energy. -/
def CtxCounts (a b : Ctx) : Prop :=
  ∃ extNs lifeExt blockSince blocked energy,
    b = { a with extNs := extNs, lifeExt := lifeExt, blockSince := blockSince, blocked := blocked, energy := energy }

/-- What passing time counts, and that it counts waits for holders only (R53, R359, R385, R450, R452). -/
structure Idles (s t : State) : Prop where
  frame : Counts s t
  stn : ∀ j, StnCounts (s.stn j) (t.stn j)
  stk : ∀ n, StkCounts (s.stk n) (t.stk n)
  drover : ∀ d, DroverCounts (s.drover d) (t.drover d)
  part : ∀ p, PartCounts (s.part p) (t.part p)
  ctx : ∀ c, CtxCounts (s.ctx c) (t.ctx c)
  other : ∀ c, (∀ p, (s.part p).holder ≠ some c) → CtxCharged (s.ctx c) (t.ctx c)

variable {r s t : State}

theorem Counts.trans (h : Counts r s) (k : Counts s t) : Counts r t := by
  obtain ⟨_, _, _, _, _, _, rfl⟩ := h
  obtain ⟨_, _, _, _, _, _, rfl⟩ := k
  exact ⟨_, _, _, _, _, _, rfl⟩

theorem StnCounts.refl (a : Stn) : StnCounts a a := ⟨_, _, rfl⟩

theorem StnCounts.trans {a b c : Stn} (h : StnCounts a b) (k : StnCounts b c) : StnCounts a c := by
  obtain ⟨_, _, rfl⟩ := h
  obtain ⟨_, _, rfl⟩ := k
  exact ⟨_, _, rfl⟩

theorem StkCounts.refl (a : Stk) : StkCounts a a := ⟨_, rfl⟩

theorem StkCounts.trans {a b c : Stk} (h : StkCounts a b) (k : StkCounts b c) : StkCounts a c := by
  obtain ⟨_, rfl⟩ := h
  obtain ⟨_, rfl⟩ := k
  exact ⟨_, rfl⟩

theorem DroverCounts.refl (a : Drover) : DroverCounts a a := ⟨_, rfl⟩

theorem DroverCounts.trans {a b c : Drover} (h : DroverCounts a b) (k : DroverCounts b c) : DroverCounts a c := by
  obtain ⟨_, rfl⟩ := h
  obtain ⟨_, rfl⟩ := k
  exact ⟨_, rfl⟩

theorem PartCounts.refl (a : Part) : PartCounts a a := ⟨_, rfl⟩

theorem PartCounts.trans {a b c : Part} (h : PartCounts a b) (k : PartCounts b c) : PartCounts a c := by
  obtain ⟨_, rfl⟩ := h
  obtain ⟨_, rfl⟩ := k
  exact ⟨_, rfl⟩

theorem PartCounts.holder {a b : Part} (h : PartCounts a b) : b.holder = a.holder := by
  obtain ⟨_, rfl⟩ := h
  rfl

theorem CtxCharged.refl (a : Ctx) : CtxCharged a a := ⟨_, rfl⟩

theorem CtxCharged.trans {a b c : Ctx} (h : CtxCharged a b) (k : CtxCharged b c) : CtxCharged a c := by
  obtain ⟨_, rfl⟩ := h
  obtain ⟨_, rfl⟩ := k
  exact ⟨_, rfl⟩

theorem CtxCounts.refl (a : Ctx) : CtxCounts a a := ⟨_, _, _, _, _, rfl⟩

theorem CtxCounts.trans {a b c : Ctx} (h : CtxCounts a b) (k : CtxCounts b c) : CtxCounts a c := by
  obtain ⟨_, _, _, _, _, rfl⟩ := h
  obtain ⟨_, _, _, _, _, rfl⟩ := k
  exact ⟨_, _, _, _, _, rfl⟩

theorem CtxCharged.counts {a b : Ctx} (h : CtxCharged a b) : CtxCounts a b := by
  obtain ⟨_, rfl⟩ := h
  exact ⟨_, _, _, _, _, rfl⟩

theorem Idles.refl (s : State) : Idles s s :=
  ⟨⟨_, _, _, _, _, _, rfl⟩, fun _ => .refl _, fun _ => .refl _, fun _ => .refl _, fun _ => .refl _, fun _ => .refl _,
    fun _ _ => .refl _⟩

theorem Idles.trans (h : Idles r s) (k : Idles s t) : Idles r t where
  frame := h.frame.trans k.frame
  stn j := (h.stn j).trans (k.stn j)
  stk n := (h.stk n).trans (k.stk n)
  drover d := (h.drover d).trans (k.drover d)
  part p := (h.part p).trans (k.part p)
  ctx c := (h.ctx c).trans (k.ctx c)
  other c hc := (h.other c hc).trans (k.other c fun p => (h.part p).holder ▸ hc p)

theorem Idles.foldNat {l : List Nat} {f : State → Nat → State} (h : ∀ s n, Idles s (f s n)) (s : State) :
    Idles s (s.foldNat l f) := by
  show Idles s (l.foldl f s)
  induction l generalizing s with
  | nil => exact .refl s
  | cons n l ih => exact (h s n).trans (ih (f s n))

/-! One rule for each part of the state that is counted in. -/

theorem idles_draw (s : State) : Idles s s.draw.2 :=
  { Idles.refl s with frame := ⟨_, _, _, _, _, _, rfl⟩ }

theorem idles_modStn (s : State) (i : Nat) (f : Stn → Stn) (h : StnCounts (s.stn i) (f (s.stn i))) : Idles s (s.modStn i f) :=
  { Idles.refl s with
    frame := ⟨_, _, _, _, _, _, rfl⟩
    stn := fun j => by
      rw [modStn_stn]
      split
      · next e => exact e ▸ h
      · exact .refl _ }

theorem idles_modStk (s : State) (n : Nat) (f : Stk → Stk) (h : StkCounts (s.stk n) (f (s.stk n))) : Idles s (s.modStk n f) :=
  { Idles.refl s with
    frame := ⟨_, _, _, _, _, _, rfl⟩
    stk := fun j => by
      rw [modStk_stk]
      split
      · next e => exact e ▸ h
      · exact .refl _ }

theorem idles_modDrover (s : State) (d : Nat) (f : Drover → Drover) (h : DroverCounts (s.drover d) (f (s.drover d))) :
    Idles s (s.modDrover d f) :=
  { Idles.refl s with
    frame := ⟨_, _, _, _, _, _, rfl⟩
    drover := fun j => by
      by_cases e : j = d
      · subst e
        rwa [modDrover_drover_same]
      · rw [modDrover_drover_ne s f e]
        exact .refl _ }

theorem idles_modPart (s : State) (p : Nat) (f : Part → Part) (h : PartCounts (s.part p) (f (s.part p))) :
    Idles s (s.modPart p f) :=
  { Idles.refl s with
    frame := ⟨_, _, _, _, _, _, rfl⟩
    part := fun j => by
      rw [modPart_part]
      split
      · next e => exact e ▸ h
      · exact .refl _ }

/-- A context that holds a partition counts its wait. -/
theorem idles_modHolder (s : State) (p c : Nat) (f : Ctx → Ctx) (hp : (s.part p).holder = some c)
    (h : CtxCounts (s.ctx c) (f (s.ctx c))) : Idles s (s.modCtx c f) :=
  { Idles.refl s with
    frame := ⟨_, _, _, _, _, _, rfl⟩
    ctx := fun j => by
      rw [modCtx_ctx]
      split
      · next e => exact e ▸ h
      · exact .refl _
    other := fun j hj => by
      rw [modCtx_ctx_ne s f fun e => hj p (by rw [hp, e])]
      exact .refl _ }

/-- Any context is charged energy. -/
theorem idles_charge (s : State) (c : Nat) (f : Ctx → Ctx) (h : CtxCharged (s.ctx c) (f (s.ctx c))) : Idles s (s.modCtx c f) := by
  have hc (j : Nat) : CtxCharged (s.ctx j) ((s.modCtx c f).ctx j) := by
    rw [modCtx_ctx]
    split
    · next e => exact e ▸ h
    · exact .refl _
  exact { Idles.refl s with
    frame := ⟨_, _, _, _, _, _, rfl⟩
    ctx := fun j => (hc j).counts
    other := fun j _ => hc j }

/-! What each part of `State.tick` counts. -/

theorem holderWith_holder {s : State} {p c : Nat} {f : Ctx → Bool} (h : s.holderWith p f = some c) :
    (s.part p).holder = some c := by
  unfold State.holderWith at h
  split at h
  · next c' e =>
    split at h
    · exact e.trans h
    · cases h
  · cases h

theorem idles_holderWaits (s : State) (p : Nat) : Idles s (s.holderWaits p) := by
  unfold State.holderWaits
  split
  · exact .refl s
  · next e => exact idles_modHolder s p _ _ (holderWith_holder e) ⟨_, _, _, _, _, rfl⟩

theorem idles_noteCause (s : State) (st : Nat) : Idles s (s.noteCause st) := by
  unfold State.noteCause
  split
  · exact idles_modStn s st _ ⟨_, _, rfl⟩
  · exact .refl s

theorem idles_noteHolder (s : State) (p : Nat) : Idles s (s.noteHolder p) := by
  unfold State.noteHolder
  split
  · exact .refl s
  · exact .foldNat idles_noteCause s

theorem idles_chargeHold (s : State) (p : Nat) (c : Option Nat) (e : Nat) : Idles s (s.chargeHold p c e) := by
  unfold State.chargeHold
  cases c with
  | none => exact idles_modPart s p _ ⟨_, rfl⟩
  | some c => exact (idles_modPart s p _ ⟨_, rfl⟩).trans (idles_charge _ c _ ⟨_, rfl⟩)

theorem idles_chargeHolding (s : State) (ns p : Nat) : Idles s (s.chargeHolding ns p) := by
  refine .foldNat (fun s st => ?_) s
  dsimp only
  split
  · exact idles_chargeHold s p _ _
  · split
    · exact .refl s
    · exact idles_chargeHold s p _ _

theorem idles_countSlice (s : State) (i : Nat) :
    Idles s (if names (s.stn i).sliceSel 4 4 then
      s.draw.2.modStn i (·.sliceEvent 4 (Config.openValue s.draw.1).toNat) else s) := by
  split
  · exact (idles_draw s).trans (idles_modStn _ i _ ⟨_, _, rfl⟩)
  · exact .refl s

theorem idles_countStack (s : State) (n code : Nat) :
    Idles s (if names (s.stk n).sel 8 code then
      s.draw.2.modStk n (·.event_ code (Config.openValue s.draw.1).toNat) else s) := by
  split
  · exact (idles_draw s).trans (idles_modStk _ n _ ⟨_, rfl⟩)
  · exact .refl s

theorem idles_countDrover (s : State) (d : Nat) :
    Idles s (if names (s.drover d).sel 8 7 then s.modDrover d fun v => v.event 7 (2000 * v.units.length) else s) := by
  split
  · exact idles_modDrover s d _ ⟨_, rfl⟩
  · exact .refl s

theorem idles_countTime (s : State) : Idles s s.countTime :=
  ((Idles.foldNat idles_countSlice s).trans
    (.foldNat (fun s n => .foldNat (fun s code => idles_countStack s n code) s) _)).trans (.foldNat idles_countDrover _)

/-- What a tick counts before gate time advances. -/
def idled (s : State) : State :=
  let s := s.foldNat (List.range s.sched.count) State.holderWaits
  if s.bring.diesOn then
    let noted := s.foldNat (List.range s.sched.count) State.noteHolder
    (noted.foldNat (List.range s.sched.count) (·.chargeHolding (us 1))).countTime
  else s

theorem idles_idled (s : State) : Idles s (idled s) := by
  have h : Idles s (s.foldNat (List.range s.sched.count) State.holderWaits) := .foldNat idles_holderWaits s
  unfold idled
  dsimp only
  split
  · exact h.trans (((Idles.foldNat idles_noteHolder _).trans
      (.foldNat (fun s p => idles_chargeHolding s (us 1) p) _)).trans (idles_countTime _))
  · exact h

/-- Where the compute dies are off, only the holders' contexts count. -/
theorem idled_diesOff (h : s.bring.diesOn = false) : ∃ ctxs, idled s = { s with ctxs := ctxs } := by
  have hw (l : List Nat) (s : State) : ∃ ctxs, s.foldNat l State.holderWaits = { s with ctxs := ctxs } := by
    show ∃ ctxs, l.foldl State.holderWaits s = { s with ctxs := ctxs }
    induction l generalizing s with
    | nil => exact ⟨_, rfl⟩
    | cons p l ih =>
      have hp : ∃ ctxs, s.holderWaits p = { s with ctxs := ctxs } := by
        unfold State.holderWaits
        split <;> exact ⟨_, rfl⟩
      obtain ⟨x, hx⟩ := ih (s.holderWaits p)
      obtain ⟨y, hy⟩ := hp
      exact ⟨x, by rw [List.foldl_cons, hx, hy]⟩
  obtain ⟨x, hx⟩ := hw (List.range s.sched.count) s
  refine ⟨x, ?_⟩
  unfold idled
  rw [hx]
  simp [h]

/-! ### What sending a reply or an event leaves unchanged -/

/-- What is sent is added to what was sent; the heartbeat, the commands that wait and a firmware image being read stand. -/
structure Talks (s t : State) : Prop where
  out : ∃ l, t.out = l ++ s.out
  beatAt : t.cmd.beatAt = s.cmd.beatAt
  serial : t.cmd.serial = s.cmd.serial
  fwRead : t.sec.fwRead = s.sec.fwRead

theorem Talks.refl (s : State) : Talks s s := ⟨⟨[], rfl⟩, rfl, rfl, rfl⟩

theorem Talks.trans (h : Talks r s) (k : Talks s t) : Talks r t := by
  obtain ⟨⟨l, hl⟩, hb, hs, hf⟩ := h
  obtain ⟨⟨m, hm⟩, kb, ks, kf⟩ := k
  exact ⟨⟨m ++ l, by rw [hm, hl, List.append_assoc]⟩, kb.trans hb, ks.trans hs, kf.trans hf⟩

theorem Talks.emitted {o : Out} (h : Emitted r s o) (k : Talks s t) : Emitted r t o := by
  obtain ⟨l, hl, ho⟩ := h
  obtain ⟨m, hm⟩ := k.out
  exact ⟨m ++ l, by rw [hm, hl, List.append_assoc], List.mem_append_right m ho⟩

theorem emitted_after {o : Out} (h : Talks r s) (k : Emitted s t o) : Emitted r t o := by
  obtain ⟨l, hl⟩ := h.out
  obtain ⟨m, hm, ho⟩ := k
  exact ⟨m ++ l, by rw [hm, hl, List.append_assoc], List.mem_append_left l ho⟩

theorem talks_emit (s : State) (o : Out) : Talks s (s.emit o) := ⟨⟨[o], rfl⟩, rfl, rfl, rfl⟩
theorem talks_cmEvent (s : State) (i : Nat) : Talks s (s.cmEvent i) := ⟨⟨[], rfl⟩, rfl, rfl, rfl⟩
theorem talks_authFail (s : State) : Talks s s.authFail := ⟨⟨[], rfl⟩, rfl, rfl, rfl⟩
theorem talks_gateEvent (s : State) (c k : Nat) : Talks s (s.gateEvent c k) := ⟨⟨[], rfl⟩, rfl, rfl, rfl⟩

theorem talks_modSession (s : State) (k : Slot) (f : Session → Session) : Talks s (s.modSession k f) := by
  cases k <;> exact ⟨⟨[], rfl⟩, rfl, rfl, rfl⟩

/-- Counts of the command port change. -/
theorem talks_cmd (s : State) (c : Cmd) (hb : c.beatAt = s.cmd.beatAt := by rfl) (hs : c.serial = s.cmd.serial := by rfl) :
    Talks s { s with cmd := c } := ⟨⟨[], rfl⟩, hb, hs, rfl⟩

theorem talks_countReply (s : State) (st : BitVec 16) : Talks s (s.countReply st) := by
  unfold State.countReply
  dsimp only
  split
  · exact (talks_cmEvent s 3).trans (talks_authFail _)
  · have h : Talks s ((if st == 0 then { s with cmd := { s.cmd with accepted := satAdd 32 s.cmd.accepted 1 } }
        else { s with cmd := { s.cmd with refused := satAdd 32 s.cmd.refused 1 } }).gateEvent (if st == 0 then 1 else 2) 1) := by
      split
      · exact (talks_cmd s _).trans (talks_gateEvent _ _ 1)
      · exact (talks_cmd s _).trans (talks_gateEvent _ _ 1)
    split
    · exact h.trans (talks_cmEvent _ 0)
    · exact h

theorem talks_countRefusal (s : State) (st : BitVec 16) : Talks s (s.countRefusal st) := by
  unfold State.countRefusal
  split
  · exact (talks_cmd s _).trans (talks_gateEvent _ 2 1)
  · exact .refl s

section Replies
variable (s : State) (p : Pkt) (st : BitVec 16) (d : BitVec 32) (b : Bytes)

theorem talks_cacheReply : Talks s (s.cacheReply p st d b) := by
  unfold State.cacheReply
  split
  · split
    · exact talks_modSession s _ _
    · exact .refl s
  · exact .refl s

theorem talks_emitReply : Talks s (s.emitReply p st d b) := talks_emit s _

theorem talks_emitRefusal : Talks s (s.emitRefusal p st d b) := by
  unfold State.emitRefusal
  extract_lets sent
  split
  · exact talks_cmd s _
  · exact (talks_cmd s _).trans (talks_emitReply _ p st d b)

theorem talks_sendReply : Talks s (s.sendReply p st d b) := by
  unfold State.sendReply
  split
  · exact talks_emitRefusal s p st d b
  · exact talks_emitReply s p st d b

/-- A reply that is not one of the refusals of R344 is sent. -/
theorem replied_sendReply (h : authStatus st = false) :
    Replied s (s.sendReply p st d b) p st d (if st == 0 then b else []) := by
  unfold State.sendReply
  rw [h]
  exact ⟨_, [_], rfl, List.mem_singleton_self _⟩

theorem talks_copies (l : List Pkt) : Talks s (l.foldl (fun s q => s.sendReply q st d b) s) := by
  induction l generalizing s with
  | nil => exact .refl s
  | cons q l ih => exact (talks_sendReply s q st d b).trans (ih _)

/-- A command's counts and its cache entry. -/
theorem talks_recordReply : Talks s (((s.countReply st).countRefusal st).cacheReply p st d b) :=
  ((talks_countReply s st).trans (talks_countRefusal _ st)).trans (talks_cacheReply _ p st d b)

theorem talks_reply : Talks s (s.reply p st d b) :=
  ((talks_recordReply s p st d b).trans (talks_sendReply _ p st d b)).trans (talks_copies _ st d b _)

theorem replied_reply (h : authStatus st = false) : Replied s (s.reply p st d b) p st d (if st == 0 then b else []) := by
  obtain ⟨tr, hr⟩ := replied_sendReply (((s.countReply st).countRefusal st).cacheReply p st d b) p st d b h
  exact ⟨tr, Talks.emitted (emitted_after (talks_recordReply s p st d b) hr) (talks_copies _ st d b _)⟩

theorem talks_replyOwed (o : Owed) : Talks s (s.replyOwed o st d b) := by
  unfold State.replyOwed
  dsimp only
  split
  · exact talks_reply s o.pkt st d b
  · exact .refl s

theorem talks_queueEvent (k : Slot) (o x : BitVec 16) : Talks s (s.queueEvent k o x b) := by
  unfold State.queueEvent
  dsimp only
  split
  · exact .refl s
  · have h : Talks s (if 1024 ≤ (s.session k).events.length then s.cmEvent 4 else s) := by
      split
      · exact talks_cmEvent s 4
      · exact .refl s
    exact ((h.trans (talks_modSession _ k _)).trans (talks_gateEvent _ 3 1)).trans (talks_emit _ _)

theorem talks_postEvent (o x : BitVec 16) : Talks s (s.postEvent o x b) :=
  (talks_queueEvent s b .a o x).trans (talks_queueEvent _ b .b o x)

end Replies

/-! ### Ports whose drain ends (R475, R476) -/

/-- Only ports and what an event changes move from `s` to `t`. -/
def Drains (s t : State) : Prop :=
  ∃ cmd host tally out ports,
    t = { s with cmd := cmd, host := host, tally := tally, out := out, fab := { s.fab with ports := ports } }

theorem Drains.refl (s : State) : Drains s s := ⟨_, _, _, _, _, rfl⟩

theorem Drains.trans {r s t : State} (h : Drains r s) (k : Drains s t) : Drains r t := by
  obtain ⟨_, _, _, _, _, rfl⟩ := h
  obtain ⟨_, _, _, _, _, rfl⟩ := k
  exact ⟨_, _, _, _, _, rfl⟩

theorem Drains.now {s t : State} (h : Drains s t) : t.now = s.now := by
  obtain ⟨_, _, _, _, _, rfl⟩ := h
  rfl

/-- A port whose drain has ended: it is at rest, and trains where it was enabled again meanwhile. -/
def drainedPort (now : Nat) (p : FabPort) : FabPort := if (p.rest now).disable then p.rest now else (p.rest now).train now

theorem portEvent_spec (s : State) (r cause : Nat) :
    ∃ cmd host tally out, s.portEvent r cause = { s with cmd := cmd, host := host, tally := tally, out := out } :=
  postEvent_spec _ _ _ _

theorem talks_modPort (s : State) (r : Nat) (f : FabPort → FabPort) : Talks s (s.modPort r f) := ⟨⟨[], rfl⟩, rfl, rfl, rfl⟩

theorem talks_portEvent (s : State) (r cause : Nat) : Talks s (s.portEvent r cause) := talks_postEvent s _ _ _

theorem drains_portDrained (s : State) (r : Nat) : Drains s (s.portDrained r) := by
  obtain ⟨_, _, _, _, h⟩ := portEvent_spec (s.modPort r (·.rest s.now)) r 2
  unfold State.portDrained
  dsimp only
  rw [h]
  split
  · exact ⟨_, _, _, _, _, rfl⟩
  · exact ⟨_, _, _, _, _, rfl⟩

theorem talks_portDrained (s : State) (r : Nat) : Talks s (s.portDrained r) := by
  have h : Talks s ((s.modPort r (·.rest s.now)).portEvent r 2) :=
    Talks.trans (talks_modPort s r _) (talks_portEvent _ r 2)
  unfold State.portDrained
  dsimp only
  split
  · exact h
  · exact h.trans (talks_modPort _ r _)

theorem portDrained_port (s : State) (r j : Nat) :
    (s.portDrained r).port j = if j = r then drainedPort s.now (s.port r) else s.port j := by
  obtain ⟨_, _, _, _, h⟩ := portEvent_spec (s.modPort r (·.rest s.now)) r 2
  have hp (i : Nat) : ((s.modPort r (·.rest s.now)).portEvent r 2).port i = (s.modPort r (·.rest s.now)).port i := by rw [h]; rfl
  have hn : ((s.modPort r (·.rest s.now)).portEvent r 2).now = s.now := by rw [h]; rfl
  unfold State.portDrained
  dsimp only
  rw [hp, hn, modPort_port_same]
  by_cases e : j = r
  · subst e
    rw [if_pos rfl, drainedPort]
    split
    · rw [hp, modPort_port_same]
    · rw [modPort_port_same, hp, modPort_port_same]
  · rw [if_neg e]
    split
    · rw [hp, modPort_port_ne s _ e]
    · rw [modPort_port_ne _ _ e, hp, modPort_port_ne s _ e]

theorem drainEnds_some {p : FabPort} {a now : Nat} (h : p.draining = some a) :
    p.drainEnds now = true ↔ p.unacked = [] ∨ a + 100000 ≤ now := by
  unfold FabPort.drainEnds
  rw [h]
  show (p.unacked.isEmpty || decide (a + us 100 ≤ now)) = true ↔ _
  rw [Bool.or_eq_true, List.isEmpty_iff, decide_eq_true_iff]
  rfl

theorem drainEnds_none {p : FabPort} {now : Nat} (h : p.draining = none) : p.drainEnds now = false := by
  simp [FabPort.drainEnds, h]

/-- The ports of a list whose drain is over end it, one after another. -/
def drainOf (now : Nat) (l : List Nat) (s : State) : State :=
  s.foldNat l fun s r => if (s.port r).draining.isSome && (s.port r).drainEnds now then s.portDrained r else s

theorem endDrains_eq (s : State) (now : Nat) :
    s.endDrains (·.drainEnds now) State.portDrained = drainOf now (List.range 8) s := rfl

theorem drainOf_cons (s : State) (now r : Nat) (l : List Nat) :
    drainOf now (r :: l) s = drainOf now l (if (s.port r).drainEnds now then s.portDrained r else s) := by
  have h : ((s.port r).draining.isSome && (s.port r).drainEnds now) = (s.port r).drainEnds now := by
    cases e : (s.port r).draining with
    | none => rw [drainEnds_none e, Bool.and_false]
    | some a => rfl
  show drainOf now l (if (s.port r).draining.isSome && (s.port r).drainEnds now then s.portDrained r else s) = _
  rw [h]

theorem drains_drainOf (now : Nat) (l : List Nat) (s : State) : Drains s (drainOf now l s) ∧ Talks s (drainOf now l s) := by
  induction l generalizing s with
  | nil => exact ⟨.refl s, .refl s⟩
  | cons r l ih =>
    rw [drainOf_cons]
    split
    · obtain ⟨hd, ht⟩ := ih (s.portDrained r)
      exact ⟨(drains_portDrained s r).trans hd, (talks_portDrained s r).trans ht⟩
    · exact ih s

theorem drainOf_port_other (now : Nat) {j : Nat} (l : List Nat) (s : State) (h : j ∉ l) :
    (drainOf now l s).port j = s.port j := by
  induction l generalizing s with
  | nil => rfl
  | cons r l ih =>
    rw [List.mem_cons, not_or] at h
    obtain ⟨hr, hl⟩ := h
    rw [drainOf_cons, ih _ hl]
    split
    · rw [portDrained_port, if_neg hr]
    · rfl

theorem drainOf_port {j : Nat} (l : List Nat) (s : State) (hn : l.Nodup) (h : j ∈ l) :
    (drainOf s.now l s).port j = if (s.port j).drainEnds s.now then drainedPort s.now (s.port j) else s.port j := by
  induction l generalizing s with
  | nil => cases h
  | cons r l ih =>
    obtain ⟨hr, hl⟩ := List.nodup_cons.mp hn
    rw [drainOf_cons]
    by_cases e : j = r
    · subst e
      rw [drainOf_port_other _ _ _ hr]
      split
      · rw [portDrained_port, if_pos rfl]
      · rfl
    · have hj : j ∈ l := List.mem_of_ne_of_mem e h
      split
      · have := ih (s.portDrained r) hl hj
        rwa [(drains_portDrained s r).now, portDrained_port, if_neg e] at this
      · exact ih s hl hj

theorem drainOf_idle (now : Nat) (l : List Nat) (s : State) (h : ∀ r ∈ l, (s.port r).draining = none) : drainOf now l s = s := by
  induction l generalizing s with
  | nil => rfl
  | cons r l ih =>
    obtain ⟨hr, hl⟩ := List.forall_mem_cons.mp h
    rw [drainOf_cons, drainEnds_none hr]
    exact ih s hl

theorem drainedPort_spec (now : Nat) (p : FabPort) : (drainedPort now p).draining = none ∧ (drainedPort now p).unacked = [] ∧
    (drainedPort now p).state = if p.disable then 7 else 1 := by
  have hd : (p.rest now).disable = p.disable := rfl
  rw [drainedPort, hd]
  split
  · exact ⟨rfl, rfl, rfl⟩
  · exact ⟨rfl, rfl, rfl⟩

/-! ### The heartbeat and a firmware image that is being written (R343, R413) -/

theorem writeFw_none {s : State} (h : s.sec.fwWrite = none) : s.writeFw = s := by
  unfold State.writeFw
  rw [h]

theorem writeFw_later {s : State} {w : FwWrite} (h : s.sec.fwWrite = some w) (hw : 1 < w.left) :
    s.writeFw = { s with sec := { s.sec with fwWrite := some { w with left := w.left - 1 } } } := by
  unfold State.writeFw
  rw [h]
  exact if_neg (by omega)

/-- The state in which the image is selected and its event set, before the command's reply. -/
def fwSelected (s : State) (w : FwWrite) : State :=
  { s with
    sec := { s.sec with fwWrite := none }
    nv := { s.nv with
      nextBank := !s.sec.bootBank
      bankA := if !s.sec.bootBank then s.nv.bankA else ⟨w.image, 1⟩
      bankB := if !s.sec.bootBank then ⟨w.image, 1⟩ else s.nv.bankB } }.seEvent 7

/-- Where the image is written, the answer is the only change beside the selection. -/
theorem endFw_answers {s : State} {w : FwWrite} (h : s.sec.fwWrite = some w) :
    Answers (fwSelected s w) s.endFw ∧ Talks (fwSelected s w) s.endFw := by
  unfold State.endFw
  rw [h]
  dsimp only
  split
  · exact ⟨replyOwed_spec _ _ _ _ _, talks_replyOwed _ _ _ _ _⟩
  · exact ⟨.refl _, .refl _⟩

theorem talks_writeFw (s : State) : Talks s s.writeFw := by
  unfold State.writeFw
  split
  · exact .refl s
  · next w h =>
    split
    · have hs : Talks s (fwSelected s w) := ⟨⟨[], rfl⟩, rfl, rfl, rfl⟩
      exact hs.trans (endFw_answers h).2
    · exact ⟨⟨[], rfl⟩, rfl, rfl, rfl⟩

theorem writeFw_spec (s : State) : ∃ nv cmd host sec tally out,
    s.writeFw = { s with nv := nv, cmd := cmd, host := host, sec := sec, tally := tally, out := out } := by
  unfold State.writeFw
  split
  · exact ⟨_, _, _, _, _, _, rfl⟩
  · next w h =>
    split
    · obtain ⟨_, _, _, _, _, e⟩ := (endFw_answers h).1
      rw [e]
      exact ⟨_, _, _, _, _, _, rfl⟩
    · exact ⟨_, _, _, _, _, _, rfl⟩

/-! ### The tick of an empty queue -/

/-- When the firmware next beats. -/
def nextBeat (s : State) : Option Nat := if s.cmd.responsive then some (s.now + 1000) else s.cmd.beatAt

/-- Gate time has advanced and the firmware has beaten. -/
def beaten (s : State) : State := { idled s with now := s.now + 1000, cmd := { s.cmd with beatAt := nextBeat s } }

theorem beaten_eq (s : State) : beaten s = { idled s with now := (idled s).now + us 1 }.beat := by
  obtain ⟨_, _, _, _, _, _, h⟩ := (idles_idled s).frame
  unfold beaten State.beat nextBeat
  rw [h]
  dsimp only
  by_cases hr : s.cmd.responsive = true
  · rw [if_pos hr, if_pos hr]
    rfl
  · rw [if_neg hr, if_neg hr]
    rfl

/-- A tick up to the commands that wait for the baton's turn. -/
def clocked (s : State) : State := (beaten s).writeFw

/-- A tick of a powered package. -/
theorem step_tick {s u : State} (hq : s.pending = []) (hp : s.bring.powered = true)
    (hu : State.runSerial (clocked s).cmd.serial.length (clocked s) = u) : step s = .next (drainOf u.now (List.range 8) u) := by
  have ht : s.tick = drainOf u.now (List.range 8) u := by
    rw [← hu, clocked, beaten_eq]
    unfold State.tick
    rw [if_pos hp]
    exact endDrains_eq _ _
  unfold Machine.step
  rw [hq, ← ht]

theorem step_unpowered {s : State} (hq : s.pending = []) (hp : s.bring.powered = false) : step s = .next s := by
  unfold Machine.step State.tick
  rw [hq, hp]
  rfl

theorem beaten_serial (s : State) : (beaten s).cmd.serial = s.cmd.serial := rfl

theorem beaten_sec (s : State) : (beaten s).sec = s.sec := by
  obtain ⟨_, _, _, _, _, _, h⟩ := (idles_idled s).frame
  unfold beaten
  rw [h]

theorem clocked_spec (s : State) : ∃ nv cmd host sec tally out, clocked s =
    { idled s with now := s.now + 1000, nv := nv, cmd := cmd, host := host, sec := sec, tally := tally, out := out } := by
  obtain ⟨_, _, _, _, _, _, h⟩ := writeFw_spec (beaten s)
  unfold clocked
  rw [h]
  exact ⟨_, _, _, _, _, _, rfl⟩

theorem clocked_serial (s : State) : (clocked s).cmd.serial = s.cmd.serial := (talks_writeFw (beaten s)).serial

theorem clocked_quiet {s : State} (h : s.sec.fwWrite = none) : clocked s = beaten s :=
  writeFw_none (by rw [beaten_sec, h])

/-- A tick of a powered package in which no command waits for the baton's turn. -/
def ticked (s : State) : State := drainOf (s.now + 1000) (List.range 8) (clocked s)

theorem clocked_now (s : State) : (clocked s).now = s.now + 1000 := by
  obtain ⟨_, _, _, _, _, _, h⟩ := clocked_spec s
  rw [h]

theorem step_ticked {s : State} (hq : s.pending = []) (hp : s.bring.powered = true) (hs : s.cmd.serial = []) :
    step s = .next (ticked s) := by
  have hu : State.runSerial (clocked s).cmd.serial.length (clocked s) = clocked s := by
    rw [clocked_serial, hs]
    rfl
  rw [step_tick hq hp hu, clocked_now, ticked]

/-- What a tick leaves as the counting left it. -/
theorem ticked_spec (s : State) : ∃ nv cmd host sec tally out ports, ticked s =
    { idled s with
      now := s.now + 1000, nv := nv, cmd := cmd, host := host, sec := sec, tally := tally, out := out
      fab := { (idled s).fab with ports := ports } } := by
  obtain ⟨_, _, _, _, _, h⟩ := (drains_drainOf (s.now + 1000) (List.range 8) (clocked s)).1
  obtain ⟨_, _, _, _, _, _, h'⟩ := clocked_spec s
  unfold ticked
  rw [h, h']
  exact ⟨_, _, _, _, _, _, _, rfl⟩

theorem talks_ticked (s : State) : Talks (beaten s) (ticked s) :=
  (talks_writeFw (beaten s)).trans (drains_drainOf (s.now + 1000) (List.range 8) (clocked s)).2

/-- A tick in which no firmware image is written leaves what the drains do not change. -/
theorem ticked_quiet {s : State} (h : s.sec.fwWrite = none) : Drains (beaten s) (ticked s) := by
  unfold ticked
  rw [clocked_quiet h]
  exact (drains_drainOf _ _ _).1

/-- A tick in which no port drains. -/
theorem ticked_undrained {s : State} (h : ∀ r < 8, (s.port r).draining = none) : ticked s = clocked s := by
  refine drainOf_idle _ _ _ fun r hr => ?_
  obtain ⟨_, _, _, _, _, _, e⟩ := clocked_spec s
  obtain ⟨_, _, _, _, _, _, e'⟩ := (idles_idled s).frame
  rw [e, e']
  exact h r (List.mem_range.mp hr)

theorem ticked_port (s : State) {r : Nat} (hr : r < 8) : (ticked s).port r =
    if (s.port r).drainEnds (s.now + 1000) then drainedPort (s.now + 1000) (s.port r) else s.port r := by
  have hp : (clocked s).port r = s.port r := by
    obtain ⟨_, _, _, _, _, _, e⟩ := clocked_spec s
    obtain ⟨_, _, _, _, _, _, e'⟩ := (idles_idled s).frame
    rw [e, e']
    rfl
  have h := drainOf_port (List.range 8) (clocked s) List.nodup_range (List.mem_range.mpr hr)
  rwa [clocked_now, hp] at h

/-- A port that drains ends its drain in the tick, or stays as it was (R475). -/
theorem ticked_drain {s : State} {r a : Nat} (hr : r < 8) (h : (s.port r).draining = some a) :
    if (s.port r).unacked = [] ∨ a + 100000 ≤ s.now + 1000
    then ((ticked s).port r).draining = none ∧ ((ticked s).port r).unacked = [] ∧
      ((ticked s).port r).state = (if (s.port r).disable then 7 else 1)
    else (ticked s).port r = s.port r := by
  rw [ticked_port s hr]
  simp only [drainEnds_some h]
  split
  · exact drainedPort_spec _ _
  · rfl

/-! ### Commands that wait for the baton's turn (R332, log entry 47) -/

theorem runSerial_fw {s : State} (n : Nat) (h : (s.sec.fwRead.isSome || s.sec.fwWrite.isSome) = true) :
    State.runSerial n s = s := by
  cases n with
  | zero => rfl
  | succ n =>
    unfold State.runSerial
    split
    · rfl
    · rw [if_pos h]

theorem clocked_fw {s : State} (h : s.sec.fwRead ≠ none ∨ ∃ w, s.sec.fwWrite = some w ∧ 1 < w.left) :
    ((clocked s).sec.fwRead.isSome || (clocked s).sec.fwWrite.isSome) = true := by
  rw [Bool.or_eq_true]
  rcases h with h | ⟨w, hw, hl⟩
  · left
    rw [clocked, (talks_writeFw (beaten s)).fwRead, beaten_sec]
    exact Option.isSome_iff_ne_none.mpr h
  · right
    rw [clocked, writeFw_later (by rw [beaten_sec, hw]) hl]
    rfl

/-- While an image is read or written, no command's turn comes. -/
theorem step_fw {s : State} (hq : s.pending = []) (hp : s.bring.powered = true)
    (h : s.sec.fwRead ≠ none ∨ ∃ w, s.sec.fwWrite = some w ∧ 1 < w.left) :
    ∃ t, step s = .next t ∧ t.cmd.serial = s.cmd.serial := by
  exact ⟨_, step_tick hq hp (runSerial_fw _ (clocked_fw h)),
    ((drains_drainOf _ _ (clocked s)).2.serial).trans (clocked_serial s)⟩

/-- What the command whose turn comes runs in. -/
def turning (s : State) : State := { beaten s with cmd := { s.cmd with beatAt := nextBeat s, serial := [] } }

/-- The command's turn comes. -/
def turn (s : State) (k : Slot) (p : Pkt) : State := (turning s).startSerial k p

theorem step_turn {s : State} {k : Slot} {p : Pkt} (hq : s.pending = []) (hp : s.bring.powered = true)
    (hr : s.sec.fwRead = none) (hw : s.sec.fwWrite = none) (hs : s.cmd.serial = [(k, p)]) :
    step s = .next (drainOf (turn s k p).now (List.range 8) (turn s k p)) := by
  have hf : ¬ ((beaten s).sec.fwRead.isSome || (beaten s).sec.fwWrite.isSome) = true := by
    rw [beaten_sec, hr, hw]
    decide
  have he : State.runSerial (beaten s).cmd.serial.length (beaten s) = turn s k p := by
    rw [beaten_serial, hs]
    show State.runSerial 1 (beaten s) = _
    unfold State.runSerial
    rw [beaten_serial, hs]
    exact if_neg hf
  exact step_tick hq hp (by rw [clocked_quiet hw, he])

theorem turning_frame (s : State) : (turning s).out = s.out ∧ (turning s).sched = s.sched := by
  obtain ⟨_, _, _, _, _, _, h⟩ := (idles_idled s).frame
  unfold turning beaten
  rw [h]
  exact ⟨rfl, rfl⟩

theorem turning_session (s : State) (k : Slot) : (turning s).session k = s.session k := by
  cases k <;> rfl

theorem turning_hasLease (s : State) (k : Slot) :
    (turning s).hasLease k = true ↔ s.cmd.baton = some k ∧ s.now + 1000 < s.cmd.batonEnd := by
  show (s.cmd.baton == some k && decide (s.now + 1000 < s.cmd.batonEnd)) = true ↔ _
  rw [Bool.and_eq_true, beq_iff_eq, decide_eq_true_iff]

/-- No command waits after the one. -/
theorem turn_serial (s : State) (k : Slot) (p : Pkt) : (turn s k p).cmd.serial = [] := by
  obtain ⟨-, -, h⟩ := Keeps.startSerial (w := False) (r := turning s) (k := k) (p := p) .refl
  exact h.resolve_left id rfl

section Turn
variable {s : State} {k : Slot} {p : Pkt} (ho : (s.session k).open_ = true) (hn : (s.session k).number = p.session)
include ho hn

theorem turn_refused (h21 : p.opcode ≠ 0x21) (hl : ¬ (s.cmd.baton = some k ∧ s.now + 1000 < s.cmd.batonEnd)) :
    turn s k p = (turning s).reply p 0x0203 := by
  have hb : ((turning s).hasLease k) = false := by
    rw [← Bool.not_eq_true, turning_hasLease]
    exact hl
  have h : (p.opcode != 0x21) = true := bne_iff_ne.mpr h21
  rw [turn, State.startSerial, turning_session, if_neg (by simp [ho, hn]), if_pos (by rw [h, hb]; rfl)]

theorem turn_runs (hl : s.cmd.baton = some k ∧ s.now + 1000 < s.cmd.batonEnd) : turn s k p = (turning s).runBaton k p := by
  have hb : ((turning s).hasLease k) = true := (turning_hasLease s k).mpr hl
  rw [turn, State.startSerial, turning_session, if_neg (by simp [ho, hn]), if_neg (by simp [hb])]

end Turn

/-- PART_KEY with well-formed parameters sets the partition's key (R417). -/
theorem partKey_sets {s : State} {p : Pkt} (k : Slot) (hl : p.params.length = 40) (hz : zeroAt p.params 1 7 = true)
    (hp : s.hasPart (beAt p.params 0 1) = true) : s.partKey p k =
      (s.modPart (beAt p.params 0 1) fun q => { q with key := BitVec.ofNat 256 (beAt p.params 8 32) }).reply p 0 := by
  simp [State.partKey, State.withParams, State.withLength, State.withZeros, hl, hz, hp]

theorem runBaton_partKey {s : State} {p : Pkt} (k : Slot) (h : p.opcode = 0x51) : s.runBaton k p = s.partKey p k := by
  rw [State.runBaton, h]
  rfl

/-- What was sent before the turn and what the drains send after it keep the reply. -/
theorem replied_turn {s t u : State} {p : Pkt} {st : BitVec 16} {d : BitVec 32} {b : Bytes}
    (h : Replied u t p st d b) (hu : u.out = s.out) (now : Nat) (l : List Nat) : Replied s (drainOf now l t) p st d b := by
  obtain ⟨tr, e⟩ := h
  obtain ⟨m, hm, ho⟩ := (drains_drainOf now l t).2.emitted e
  exact ⟨tr, m, hu ▸ hm, ho⟩

theorem drainOf_part (now : Nat) (l : List Nat) (s : State) (n : Nat) : (drainOf now l s).part n = s.part n := by
  obtain ⟨_, _, _, _, _, h⟩ := (drains_drainOf now l s).1
  rw [h]
  rfl

theorem turn_partKey {s : State} {k : Slot} {p : Pkt} (ho : (s.session k).open_ = true)
    (hn : (s.session k).number = p.session) (hl : s.cmd.baton = some k ∧ s.now + 1000 < s.cmd.batonEnd)
    (h51 : p.opcode = 0x51) (hlen : p.params.length = 40) (hz : zeroAt p.params 1 7 = true)
    (hp : s.hasPart (beAt p.params 0 1) = true) : turn s k p =
      ((turning s).modPart (beAt p.params 0 1) fun q => { q with key := BitVec.ofNat 256 (beAt p.params 8 32) }).reply p 0 := by
  have hp' : (turning s).hasPart (beAt p.params 0 1) = true := by
    unfold State.hasPart at hp ⊢
    rw [(turning_frame s).2]
    exact hp
  rw [turn_runs ho hn hl, runBaton_partKey k h51, partKey_sets k hlen hz hp']

/-- A command whose slot does not hold the baton when its turn comes is refused (R335). -/
theorem turn_replies_refused {s : State} {k : Slot} {p : Pkt} (ho : (s.session k).open_ = true)
    (hn : (s.session k).number = p.session) (h21 : p.opcode ≠ 0x21)
    (hl : ¬ (s.cmd.baton = some k ∧ s.now + 1000 < s.cmd.batonEnd)) (now : Nat) (l : List Nat) :
    Replied s (drainOf now l (turn s k p)) p 0x0203 0 [] := by
  have h : Replied (turning s) (turn s k p) p 0x0203 0 [] := by
    rw [turn_refused ho hn h21 hl]
    exact replied_reply (turning s) p 0x0203 0 [] rfl
  exact replied_turn h (turning_frame s).1 now l

/-- A PART_KEY whose turn comes is answered, and the key is set (R417). -/
theorem turn_replies_partKey {s : State} {k : Slot} {p : Pkt} (ho : (s.session k).open_ = true)
    (hn : (s.session k).number = p.session) (hl : s.cmd.baton = some k ∧ s.now + 1000 < s.cmd.batonEnd)
    (h51 : p.opcode = 0x51) (hlen : p.params.length = 40) (hz : zeroAt p.params 1 7 = true)
    (hp : s.hasPart (beAt p.params 0 1) = true) (now : Nat) (l : List Nat) :
    Replied s (drainOf now l (turn s k p)) p 0 0 [] ∧
      ((drainOf now l (turn s k p)).part (beAt p.params 0 1)).key = BitVec.ofNat 256 (beAt p.params 8 32) := by
  have ht := turn_partKey ho hn hl h51 hlen hz hp
  constructor
  · have h : Replied ((turning s).modPart (beAt p.params 0 1) fun q =>
        { q with key := BitVec.ofNat 256 (beAt p.params 8 32) }) (turn s k p) p 0 0 [] := by
      rw [ht]
      exact replied_reply _ p 0 0 [] rfl
    exact replied_turn h (turning_frame s).1 now l
  · rw [drainOf_part, ht, reply_part, modPart_part_same]

/-! ### The obligation -/

theorem ticked_frame (s : State) :
    { ticked s with now := s.now, ctxs := s.ctxs, parts := s.parts, sec := s.sec, nv := s.nv, cmd := s.cmd, host := s.host,
                    tally := s.tally, out := s.out, fab := s.fab, stns := s.stns, stks := s.stks, free := s.free } = s := by
  obtain ⟨_, _, _, _, _, _, _, h⟩ := ticked_spec s
  obtain ⟨_, _, _, _, _, _, h'⟩ := (idles_idled s).frame
  rw [h, h']

theorem ticked_now (s : State) : (ticked s).now = s.now + 1000 := by
  obtain ⟨_, _, _, _, _, _, _, h⟩ := ticked_spec s
  rw [h]

theorem ticked_counts (s : State) : (∀ j, StnCounts (s.stn j) ((ticked s).stn j)) ∧
    (∀ n, StkCounts (s.stk n) ((ticked s).stk n)) ∧ (∀ d, DroverCounts (s.drover d) ((ticked s).drover d)) ∧
    (∀ p, PartCounts (s.part p) ((ticked s).part p)) ∧ (∀ c, CtxCounts (s.ctx c) ((ticked s).ctx c)) ∧
    ∀ c, (∀ p, (s.part p).holder ≠ some c) → CtxCharged (s.ctx c) ((ticked s).ctx c) := by
  obtain ⟨_, _, _, _, _, _, _, h⟩ := ticked_spec s
  obtain ⟨-, hstn, hstk, hdrover, hpart, hctx, hother⟩ := idles_idled s
  rw [h]
  exact ⟨hstn, hstk, hdrover, hpart, hctx, hother⟩

theorem ticked_beatAt (s : State) : (ticked s).cmd.beatAt = nextBeat s := (talks_ticked s).beatAt

theorem ticked_sec {s : State} (h : s.sec.fwWrite = none) : (ticked s).sec = s.sec ∧ (ticked s).nv = s.nv := by
  obtain ⟨_, _, _, _, _, e⟩ := ticked_quiet h
  obtain ⟨_, _, _, _, _, _, e'⟩ := (idles_idled s).frame
  rw [e, beaten, e']
  exact ⟨rfl, rfl⟩

theorem ticked_fab {s : State} (h : ∀ r < 8, (s.port r).draining = none) :
    { (ticked s).fab with drovers := s.fab.drovers } = s.fab := by
  obtain ⟨_, _, _, _, _, _, e⟩ := clocked_spec s
  obtain ⟨_, _, _, _, _, _, e'⟩ := (idles_idled s).frame
  rw [ticked_undrained h, e, e']

theorem ticked_silent {s : State} (h : ∀ r < 8, (s.port r).draining = none) (hw : s.sec.fwWrite = none) :
    { (ticked s).cmd with beatAt := s.cmd.beatAt } = s.cmd ∧ (ticked s).host = s.host ∧ (ticked s).tally = s.tally ∧
      (ticked s).out = s.out := by
  obtain ⟨_, _, _, _, _, _, e⟩ := (idles_idled s).frame
  rw [ticked_undrained h, clocked_quiet hw, beaten, e]
  exact ⟨rfl, rfl, rfl, rfl⟩

theorem ticked_diesOff {s : State} (h : s.bring.diesOn = false) :
    (ticked s).parts = s.parts ∧ (ticked s).stns = s.stns ∧ (ticked s).stks = s.stks ∧ (ticked s).free = s.free := by
  obtain ⟨_, _, _, _, _, _, _, e⟩ := ticked_spec s
  obtain ⟨_, e'⟩ := idled_diesOff h
  rw [e, e']
  exact ⟨rfl, rfl, rfl, rfl⟩

theorem StnCounts.still {a b : Stn} (h : StnCounts a b) : { b with slice := a.slice, island := a.island } = a ∧
    { b.slice with prog := a.slice.prog } = a.slice ∧ { b.island with waited := a.island.waited } = a.island := by
  obtain ⟨_, _, rfl⟩ := h
  exact ⟨rfl, rfl, rfl⟩

theorem StkCounts.still {a b : Stk} (h : StkCounts a b) : { b with tally := a.tally } = a := by
  obtain ⟨_, rfl⟩ := h
  rfl

theorem DroverCounts.still {a b : Drover} (h : DroverCounts a b) : { b with tally := a.tally } = a := by
  obtain ⟨_, rfl⟩ := h
  rfl

theorem PartCounts.still {a b : Part} (h : PartCounts a b) : { b with gov := a.gov } = a := by
  obtain ⟨_, rfl⟩ := h
  rfl

theorem CtxCounts.still {a b : Ctx} (h : CtxCounts a b) :
    { b with extNs := a.extNs, lifeExt := a.lifeExt, blockSince := a.blockSince, blocked := a.blocked,
             energy := a.energy } = a := by
  obtain ⟨_, _, _, _, _, rfl⟩ := h
  rfl

theorem CtxCharged.still {a b : Ctx} (h : CtxCharged a b) : { b with energy := a.energy } = a := by
  obtain ⟨_, rfl⟩ := h
  rfl

/-- Settles O58: a command takes itself from the queue (`step_pending`), and a tick of the empty queue is its counting (`Idles`),
its heartbeat and image, the turn of a command that waits, and the drains (`Drains`). -/
theorem queueAndTime : Obligations.QueueAndTime := by
  refine ⟨fun s t c rest h ht => step_pending h ht, fun s hq => ⟨step_unpowered hq, fun hp hs => ?_, step_fw hq, ?_⟩⟩
  · obtain ⟨hstn, hstk, hdrover, hpart, hctx, hother⟩ := ticked_counts s
    exact ⟨ticked s, step_ticked hq hp hs, ticked_now s, ticked_frame s, fun j => (hstn j).still, fun n => (hstk n).still,
      ticked_beatAt s, ticked_sec, fun hd => ⟨ticked_fab hd, fun d => (hdrover d).still, ticked_silent hd⟩,
      fun r hr a => ticked_drain hr, ticked_diesOff, fun p => (hpart p).still,
      fun c => ⟨(hctx c).still, fun hc => (hother c hc).still⟩⟩
  · intro k p hp hr hw hs ho hn leased
    exact ⟨_, step_turn hq hp hr hw hs, (drains_drainOf _ _ _).2.serial.trans (turn_serial s k p),
      fun h21 hl => turn_replies_refused ho hn h21 hl _ _,
      fun h51 hl hlen hz hpart => turn_replies_partKey ho hn hl h51 hlen hz hpart _ _⟩

end Sys2Proof.Laws
end

section
/-!
SUPPORT. The identity register of a station, the bytes that a racing read sees, and a bundle whose slots move registers (R39, R46, R57),
with the obligations on them.
-/

namespace Sys2Proof.Laws

open Sys2Proof Sys2Proof.Machine

/-! ### STN_ID (R57) -/

/-- The registers of station `i` begin at its group's base (R56). -/
theorem regRead_station (s : State) {i o : Nat} (hi : i < 1024) (ho : o < 0x10000) (h8 : o % 8 = 0) :
    s.regRead (0x1000000 + 0x10000 * i + o) = s.readStn i o := by
  have hal : ((0x1000000 + 0x10000 * i + o) % 8 != 0) = false := by simp; omega
  have hstk : inArray (0x1000000 + 0x10000 * i + o) 0xC00000 0x10000 32 = none := by
    simp [inArray]; omega
  have hstn : inArray (0x1000000 + 0x10000 * i + o) 0x1000000 0x10000 1024 = some (i, o) := by
    simp [inArray]; omega
  obtain ⟨k, hk⟩ := Nat.exists_eq_add_of_le' (show 16 ≤ (0x1000000 + 0x10000 * i + o) / 0x100000 by omega)
  unfold State.regRead
  rw [hal, hstk, hstn, hk]
  rfl

/-- Settles O55: STN_ID is the first register of the station's group, and it reads the station's number. -/
theorem stationIdentity : Obligations.StationIdentity := by
  intro s i hi
  refine ⟨i, regRead_station s hi (o := 0) (by omega) rfl, rfl, ?_, ?_, ?_, ?_⟩
  all_goals
    unfold bitsOf
    omega

/-! ### What a racing read sees (R46) -/

/-- A byte of the seen memory `m'` is the one that stands in `m`, or one that a transfer of `ws` puts there. -/
def SeenByte (m m' : Mem) (ws : List (Nat × Bytes)) (i : Nat) : Prop :=
  rdByte m' i = rdByte m i ∨ ∃ lo bs, (lo, bs) ∈ ws ∧ lo ≤ i ∧ bs[i - lo]? = some (rdByte m' i)

/-- Another byte of a transfer's range is written. -/
theorem SeenByte.wrByte {m m' : Mem} {ws : List (Nat × Bytes)} {lo k i : Nat} {bs : Bytes} {b : Byte} (h : SeenByte m m' ws i)
    (hw : (lo, bs) ∈ ws) (hb : bs[k]? = some b) : SeenByte m (wrByte m' (lo + k) b) ws i := by
  by_cases e : i = lo + k
  · subst e
    exact .inr ⟨lo, bs, hw, Nat.le_add_right lo k, by rw [rdByte_wrByte_same, Nat.add_sub_cancel_left, hb]⟩
  · rw [SeenByte, rdByte_wrByte_ne _ _ e]
    exact h

theorem seenByte_racedMem (d : Nat) (m : Mem) (ws : List (Nat × Bytes)) (i : Nat) : SeenByte m (racedMem d m ws) ws i := by
  unfold racedMem
  refine List.foldlRecOn (motive := (SeenByte m · ws i)) _ _ (.inl rfl) fun m' h w hw => ?_
  obtain ⟨⟨lo, bs⟩, j⟩ := w
  have hm : (lo, bs) ∈ ws := List.fst_mem_of_mem_zipIdx hw
  refine List.foldlRecOn (motive := (SeenByte m · ws i)) _ _ h fun m'' h' x hx => ?_
  obtain ⟨b, k⟩ := x
  have hk : bs[k]? = some b := List.mem_zipIdx_iff_getElem?.mp hx
  dsimp only
  split
  · exact h'.wrByte hm hk
  · exact h'

/-! ### Registers of a station (R38, R39, R100) -/

section Registers
variable (a : Arch)

@[simp] theorem mark_sreg (m : Mark) (r : Reg) : (a.mark m).sreg r = a.sreg r := rfl
@[simp] theorem mark_vreg (m : Mark) (v : VReg) : (a.mark m).vreg v = a.vreg v := rfl
@[simp] theorem setV_next (d : VReg) (v : BitVec 4096) : (a.setV d v).next = a.next := rfl
@[simp] theorem setV_sreg (d : VReg) (v : BitVec 4096) (r : Reg) : (a.setV d v).sreg r = a.sreg r := rfl
@[simp] theorem take_sreg (b : Bundle) (n : Nat) (r : Reg) : (a.take b n).sreg r = a.sreg r := rfl
@[simp] theorem take_vreg (b : Bundle) (n : Nat) (v : VReg) : (a.take b n).vreg v = a.vreg v := rfl

theorem setV_vreg (d e : VReg) (v : BitVec 4096) : (a.setV d v).vreg e = if e = d then v else a.vreg e := by
  show mget 0 (mset 0 a.vregs d.toNat v) e.toNat = _
  rw [mget_mset]
  simp only [BitVec.toNat_inj]
  rfl

theorem putS_sreg {d : Reg} (hd : d ≠ 0) (v : Word) (r : Reg) : (a.putS d v).sreg r = if r = d then v else a.sreg r := by
  unfold Arch.putS Arch.sreg
  rw [if_neg hd]
  dsimp only
  rw [mget_mset]
  simp only [BitVec.toNat_inj]
  by_cases h : r = 0
  · rw [if_pos h, if_pos h, if_neg (h ▸ hd.symm)]
  · rw [if_neg h, if_neg h]

theorem setS_sreg {d : Reg} (hd : d ≠ 0) (v : Word) (r : Reg) : (a.setS d v).sreg r = if r = d then v else a.sreg r := by
  rw [Arch.setS, if_neg hd, mark_sreg, putS_sreg a hd]

@[simp] theorem setS_vreg (d : Reg) (v : Word) (e : VReg) : (a.setS d v).vreg e = a.vreg e := by
  unfold Arch.setS Arch.putS
  split <;> rfl

end Registers

/-- A lane of a vector register as a word. -/
theorem ofNat_laneAt (v : BitVec 4096) (i : Nat) : BitVec.ofNat 64 (laneAt 64 v i) = v.extractLsb' (64 * i) 64 := by
  apply BitVec.eq_of_toNat_eq
  simp [laneAt, bitsOf, Nat.shiftRight_eq_div_pow]

/-! ### A bundle of a V, an S and an X operation on registers (R39) -/

/-- The state in which the slots of a ready bundle write, as the bundle's reads draw their free values. -/
def slotState (s : State) (st c : Nat) (b : Bundle) : State := atSlots (s.seen c st) (s.seenSite st c) b

theorem onlyStation_slotState (s : State) (st c : Nat) (b : Bundle) : OnlyStation st s (slotState s st c b) :=
  onlyStation_seen (atSlots_onlyStation (s.seen c st) (s.seenSite st c) b)

/-- What the station holds when the slots write: its registers are still the old ones. -/
theorem slotState_arch (s : State) (st c : Nat) (b : Bundle) :
    (slotState s st c b).arch st = (s.arch st).take b ((s.seenSite st c).next b.s) := by
  have h := atSlots_stn_same (s.seen c st) (s.seenSite st c) b
  rw [show (s.seenSite st c).st = st from rfl, seen_stn] at h
  unfold slotState State.arch
  rw [h, stnIssued_arch]

@[simp] theorem modArch_arch_same (s : State) (i : Nat) (f : Arch → Arch) : (s.modArch i f).arch i = f (s.arch i) := by
  simp [State.arch]

/-- A bundle within its stream whose V, S and X slots write `f`, `g` and `h` in their station and do nothing beyond it. -/
theorem streamEnd_slots {s : State} {st c : Nat} {b : Bundle} (hi : s.inside st c b = true) {f g h : Arch → Arch}
    (hf : ∀ a, (f a).next = a.next) (hg : ∀ a, (g a).next = a.next) (hh : ∀ a, (h a).next = a.next) :
    ((((slotState s st c b).modArch st f).modArch st g).modArch st h).streamEnd c (s.relStn c st) =
      (((slotState s st c b).modArch st f).modArch st g).modArch st h := by
  obtain ⟨hst, hn⟩ := inside_spec hi
  have ho := onlyStation_modArch (onlyStation_modArch (onlyStation_modArch (onlyStation_slotState s st c b) f) g) h
  refine streamEnd_inside ho hst ?_
  have e : (slotState s st c b).arch st = _ := slotState_arch s st c b
  show (((((slotState s st c b).modArch st f).modArch st g).modArch st h).arch st).next < _
  rw [modArch_arch_same, modArch_arch_same, modArch_arch_same, hh, hg, hf, e, take_next]
  exact hn

/-- The station's issue of a ready bundle whose slots move registers: every slot reads the registers as they stood. -/
theorem issue_registers {s : State} {st c : Nat} {b : Bundle} {f : VrOp} {y : VrArgs} {g : SrOp} {d a r e : Reg} {v : VReg}
    {lane : BitVec 6} (hm : b.m = .nop) (hv : b.v = .vr f y) (hs : b.s = .sr g d a r) (hx : b.x = .xvs v e lane)
    (h : s.issuable st c b = true) (hi : s.inside st c b = true) :
    s.issue st b = (((slotState s st c b).modArch st fun p => p.setV y.d (vrVal f y ((s.arch st).vreg y.a)
        ((s.arch st).vreg y.b) ((s.arch st).vreg y.c) ((s.arch st).vreg y.d))).modArch st
      fun p => p.setS d (srVal g ((s.arch st).sreg a) ((s.arch st).sreg r))).modArch st
      fun p => p.setS e (BitVec.ofNat 64 (laneAt 64 ((s.arch st).vreg v) lane.toNat)) := by
  rw [issue_ready h, issueAt_eq, hm, hv, hs, hx]
  dsimp only [Site.mEffect, Site.vEffect, Site.sWrites, Site.xEffect, Site.xAfter, Site.sAfter]
  exact streamEnd_slots hi (fun p => setV_next p _ _) (fun p => setS_next p _ _) (fun p => setS_next p _ _)

/-- Settles O11: the slots' effects are functions of the station as it stood (`issue_registers`), and what a read sees is the old
memory with some bytes of transfers on their way (`seenByte_racedMem`). -/
theorem slotsReadBeforeAnyWrites : Obligations.SlotsReadBeforeAnyWrites := by
  refine ⟨?_, fun s st c i => ⟨seenByte_racedMem _ _ _ i, seenByte_racedMem _ _ _ i, fun d m => seenByte_racedMem d m _ i⟩⟩
  intro s st c b f y g d a r e lane hm hv hs hx hd he hde h hi
  have ht : exec (.xvs st b y.d e lane) s = .next (s.issue st { b with x := .xvs y.d e lane }) := rfl
  rw [show { b with x := .xvs y.d e lane } = b by rw [← hx], issue_registers hm hv hs hx h hi] at ht
  refine ⟨_, ht, onlyStation_modArch (onlyStation_modArch (onlyStation_modArch (onlyStation_slotState s st c b) _) _) _, ?_⟩
  simp only [modArch_arch_same, slotState_arch, setS_sreg _ hd, setS_sreg _ he, setS_vreg, setV_sreg, setV_vreg, take_sreg,
    take_vreg, ofNat_laneAt, if_true, if_neg hde, true_and]
  refine ⟨fun x hxd hxe => ?_, fun x hx => if_neg hx⟩
  rw [if_neg hxe, if_neg hxd]

end Sys2Proof.Laws
end

section
/-!
SUPPORT. What stations' engines count as they complete an operation, and the obligation on marks, shape words and lines (R38, R41, R107).
-/

namespace Sys2Proof.Laws

open Sys2Proof Sys2Proof.Machine

/-! ### What the engines of a station change -/

/-- A station counts bytes and waits, and what it holds for its context may change. -/
def StnBooks (a b : Stn) : Prop :=
  ∃ arch tally slice waited,
    b = { a with arch := arch, tally := tally, slice := slice, island := { a.island with waited := waited } }

/-- Stations and energy accounts alone change. -/
structure Books (s t : State) : Prop where
  frame : ∃ parts ctxs stns, t = { s with parts := parts, ctxs := ctxs, stns := stns }
  part : ∀ p, PartCounts (s.part p) (t.part p)
  ctx : ∀ c, CtxCharged (s.ctx c) (t.ctx c)
  stn : ∀ j, StnBooks (s.stn j) (t.stn j)

/-- Counts and energy accounts alone change: every station holds what it held. -/
structure Counted (s t : State) : Prop extends Books s t where
  arch : ∀ j, t.arch j = s.arch j

variable {r s t : State} {c st : Nat}

theorem StnBooks.refl (a : Stn) : StnBooks a a := ⟨_, _, _, _, rfl⟩

theorem StnBooks.trans {a b d : Stn} (h : StnBooks a b) (k : StnBooks b d) : StnBooks a d := by
  obtain ⟨_, _, _, _, rfl⟩ := h
  obtain ⟨_, _, _, _, rfl⟩ := k
  exact ⟨_, _, _, _, rfl⟩

theorem Books.refl (s : State) : Books s s := ⟨⟨_, _, _, rfl⟩, fun _ => .refl _, fun _ => .refl _, fun _ => .refl _⟩

theorem Books.trans (h : Books r s) (k : Books s t) : Books r t where
  frame := by
    obtain ⟨_, _, _, rfl⟩ := h.frame
    obtain ⟨_, _, _, rfl⟩ := k.frame
    exact ⟨_, _, _, rfl⟩
  part p := (h.part p).trans (k.part p)
  ctx c := (h.ctx c).trans (k.ctx c)
  stn j := (h.stn j).trans (k.stn j)

theorem Counted.refl (s : State) : Counted s s := ⟨.refl s, fun _ => rfl⟩

theorem Counted.trans (h : Counted r s) (k : Counted s t) : Counted r t :=
  ⟨h.toBooks.trans k.toBooks, fun j => (k.arch j).trans (h.arch j)⟩

theorem Counted.foldNat {l : List Nat} {f : State → Nat → State} (h : ∀ s n, Counted s (f s n)) (s : State) :
    Counted s (s.foldNat l f) :=
  foldNat_keeps s l f (.refl s) fun t n _ ht => ht.trans (h t n)

theorem Books.bookkept (h : Books s t) : Bookkept s t := by
  refine ⟨?_, fun p => (h.part p).still, fun c => ?_, fun j => ?_, fun n => ?_⟩
  · obtain ⟨_, _, _, rfl⟩ := h.frame
    rfl
  · obtain ⟨_, e⟩ := h.ctx c
    rw [e]
  · obtain ⟨_, _, _, _, e⟩ := h.stn j
    rw [e]
  · obtain ⟨_, _, _, rfl⟩ := h.frame
    rfl

theorem Books.sameStores (h : Books s t) : SameStores s t := fun c => by
  obtain ⟨_, e⟩ := h.ctx c
  rw [e]

theorem Books.itin (h : Books s t) (c : Nat) : (t.ctx c).itin = (s.ctx c).itin := by
  obtain ⟨_, e⟩ := h.ctx c
  rw [e]

theorem Books.sched (h : Books s t) : t.sched = s.sched := by
  obtain ⟨_, _, _, rfl⟩ := h.frame
  rfl

theorem Books.stnCount (h : Books s t) (c : Nat) : t.stnCount c = s.stnCount c := by
  rw [State.stnCount, h.itin, State.stnCount]

theorem Books.stnOfCtx (h : Books s t) (c i : Nat) : t.stnOfCtx c i = s.stnOfCtx c i := by
  simp only [State.stnOfCtx, State.stnBase, State.eighths, h.itin, h.sched]

theorem Books.counting (h : Books s t) (c : Nat) : t.counting c = s.counting c := by
  obtain ⟨_, e⟩ := h.ctx c
  rw [State.counting, State.holds, (h.part _).holder, e]
  rfl

theorem books_modStn (s : State) (i : Nat) {f : Stn → Stn} (h : StnBooks (s.stn i) (f (s.stn i))) : Books s (s.modStn i f) where
  frame := ⟨_, _, _, rfl⟩
  part _ := .refl _
  ctx _ := .refl _
  stn j := by
    rw [modStn_stn]
    split
    · rename_i e
      exact e ▸ h
    · exact .refl _

/-- A station's registers, marks, counters or saddlebag change. -/
theorem books_modArch (s : State) (i : Nat) (f : Arch → Arch) : Books s (s.modArch i f) := books_modStn s i ⟨_, _, _, _, rfl⟩

theorem arch_modStn (s : State) (i : Nat) {f : Stn → Stn} (h : (f (s.stn i)).arch = s.arch i) (j : Nat) :
    (s.modStn i f).arch j = s.arch j := by
  unfold State.arch
  rw [modStn_stn]
  split
  · rename_i e
    exact e ▸ h
  · rfl

/-- A station counts bytes or waits. -/
theorem counted_modStn (s : State) (i : Nat) {f : Stn → Stn} (h : StnBooks (s.stn i) (f (s.stn i)))
    (ha : (f (s.stn i)).arch = s.arch i := by rfl) : Counted s (s.modStn i f) :=
  ⟨books_modStn s i h, arch_modStn s i ha⟩

theorem PartCounts.ofStill {a b : Part} (h : { b with gov := a.gov } = a) : PartCounts a b := ⟨b.gov, by rw [← h]⟩

theorem CtxCharged.ofStill {a b : Ctx} (h : { b with energy := a.energy } = a) : CtxCharged a b := ⟨b.energy, by rw [← h]⟩

theorem counted_charge (s : State) (p c : Nat) (pj f : Nat) : Counted s (s.charge p (some c) pj f) where
  frame := ⟨_, _, _, rfl⟩
  part j := .ofStill (charge_part s p (some c) pj f j)
  ctx j := .ofStill (charge_ctx s p (some c) pj f j)
  stn j := by
    rw [charge_stn]
    exact .refl _
  arch j := by rw [State.arch, charge_stn, State.arch]

theorem counted_chan (s : State) (c st n : Nat) : Counted s (s.chan c st n) := by
  unfold State.chan
  split
  · exact .refl s
  · exact (counted_modStn s st ⟨_, _, _, _, rfl⟩).trans (counted_charge _ _ c _ _)

theorem counted_storeTraffic (s : State) (c cls a n : Nat) : Counted s (s.storeTraffic c cls a n) := by
  refine .foldNat (fun s g => ?_) s
  dsimp only
  split
  · exact .refl s
  · exact (counted_modStn s _ ⟨_, _, _, _, rfl⟩).trans (counted_charge _ _ c _ _)

theorem counted_ringBytes (s : State) (c st a n : Nat) (out : Bool) : Counted s (s.ringBytes c st a n out) := by
  refine .foldNat (fun s g => ?_) s
  dsimp only
  split
  · exact .refl s
  · split
    · exact .refl s
    · exact counted_chan s c _ _

/-- A wait of a station is noted. -/
theorem counted_noteWaits (s : State) (st : Nat) (l : List Nat) : Counted s (s.modStn st (·.noteWaits l)) :=
  counted_modStn s st ⟨_, _, _, _, rfl⟩

theorem counted_noteHeld (s : State) (st : Nat) : Counted s (s.modStn st Stn.noteHeld) := by
  unfold Stn.noteHeld
  refine counted_modStn s st ?_ ?_
  · split
    · exact ⟨_, _, _, _, rfl⟩
    · exact .refl _
  · split <;> rfl

/-! ### Increments of counters (R44) -/

theorem modArch_arch (s : State) (i j : Nat) (f : Arch → Arch) : (s.modArch i f).arch j = if j = i then f (s.arch j) else s.arch j := by
  split
  · rename_i e
    rw [e, modArch_arch_same]
  · rename_i e
    rw [State.arch, modArch_stn_ne _ _ e, State.arch]

/-- Counter `t` of a station rises by `n`. -/
def raiseToken (a : Arch) (t n : Nat) : Arch := { a with tokens := mmod 0 a.tokens t (· + BitVec.ofNat 16 n) }

theorem raiseToken_rose (a : Arch) {t n : Nat} (h : a.token t + n ≤ 65535) : a.Rose (raiseToken a t n) t n := by
  intro k
  unfold Arch.token raiseToken at *
  dsimp only
  rw [mget_mmod]
  split
  · rename_i e
    subst e
    rw [BitVec.toNat_add, BitVec.toNat_ofNat]
    omega
  · rfl

/-- An increment of a counter that its station named and whose producer lies in the package. -/
theorem incToken_counting (s : State) {c rel t n : Nat} {k : Producer} {blame : Option (Nat × Nat × Nat)} (hr : rel < s.stnCount c)
    (hc : s.counting c = true) (ht : s.token c rel t + n ≤ 65535) (hk : k.external = false) :
    ∃ u, Counted s u ∧
      s.incToken c rel t n k false blame = u.modArch (s.stnOfCtx c rel) (raiseToken · t n) := by
  unfold State.incToken
  extract_lets x st
  rw [if_neg (Nat.not_le.mpr hr), if_pos hc, if_neg (Nat.not_lt.mpr ht)]
  rw [hk]
  refine ⟨if (s.stn st).arch.waitsOn t then s.modStn st Stn.noteHeld else s, ?_, rfl⟩
  split
  · exact counted_noteHeld s st
  · exact .refl s

/-! ### Engines at work (R38, R98) -/

/-- A station whose engines run: the context on it, its place in the context, and that its counters count. -/
theorem engineRuns_spec (h : s.engineRuns st c = true) :
    s.working st = some c ∧ s.relStn c st < s.stnCount c ∧ s.stnOfCtx c (s.relStn c st) = st ∧ s.counting c = true := by
  simp only [State.engineRuns, Bool.and_eq_true, beq_iff_eq] at h
  obtain ⟨⟨hw, hm⟩, hc⟩ := h
  have hl : s.relStn c st < s.stnCount c := by
    have := List.findIdx_lt_length_of_exists (p := (· == st)) ⟨st, List.contains_iff_mem.mp hm, beq_self_eq_true st⟩
    simpa [State.relStn, State.stnsOfCtx, State.stnCount] using this
  exact ⟨hw, hl, stnOfCtx_relStn hl, hc⟩

theorem atStn_working (f : State → State) (h : s.working st = some c) : s.atStn st f = f s := by
  rw [State.atStn, h]
  rfl

/-! ### Marks (R38) -/

theorem exec_pendingMarkClear {m : Mark} (h : s.working st = some c) (hm : (s.arch st).fixedMark m = true) :
    exec (.pendingMarkClear st m) s = .next (s.modArch st (·.unmark m)) := by
  have hm : (s.stn st).arch.fixedMark m = true := hm
  show execPendingMarkClear st m s = _
  rw [execPendingMarkClear, h, hm]
  rfl

/-! ### Shape words (R107) -/

/-- A shape word has come: D holds it and its mark clears. -/
def shapeTaken (a : Arch) (i : Nat) (l : ShapeLoad) : Arch :=
  (({ a with shapes := a.shapes.eraseIdx i } : Arch).putS l.d l.word).unmark (.s l.d)

theorem shapeTaken_token (a : Arch) (i : Nat) (l : ShapeLoad) (k : Nat) : (shapeTaken a i l).token k = a.token k := by
  unfold shapeTaken Arch.putS
  split <;> rfl

theorem shapeTaken_frame (a : Arch) (i : Nat) (l : ShapeLoad) :
    shapeTaken a i l = { a with
      sregs := (shapeTaken a i l).sregs, marks := a.marks.filter (· != .s l.d), shapes := a.shapes.eraseIdx i } := by
  unfold shapeTaken Arch.putS
  split <;> rfl

theorem shapeTaken_sreg (a : Arch) (i : Nat) (l : ShapeLoad) (r : Reg) :
    (shapeTaken a i l).sreg r = if r = l.d then (if l.d = 0 then 0 else l.word) else a.sreg r := by
  by_cases hd : l.d = 0
  · have e : (shapeTaken a i l).sreg r = a.sreg r := by rw [shapeTaken, Arch.putS, if_pos hd]; rfl
    rw [e, if_pos hd]
    split
    · rename_i h
      rw [h, hd]
      rfl
    · rfl
  · rw [if_neg hd]
    exact putS_sreg _ hd l.word r

/-- A shape word within its maximum whose counter has room. -/
theorem exec_ldshpArrive {i : Nat} {l : ShapeLoad} (h : s.engineRuns st c = true) (hl : (s.arch st).shapes[i]? = some l)
    (hw : l.word.toNat < 2 ^ 32) (hm : l.word.toNat ≤ (s.ctx c).shapeMax l.slot) (ht : (s.arch st).token l.t < 65535) :
    ∃ t, exec (.ldshpArrive st i) s = .next t ∧ Books s t ∧
      ∀ j, t.arch j = if j = st then raiseToken (shapeTaken (s.arch j) i l) l.t 1 else s.arch j := by
  obtain ⟨hwk, hrel, hst, hc⟩ := engineRuns_spec h
  have hl : (s.stn st).arch.shapes[i]? = some l := hl
  show ∃ t, execLdshpArrive st i s = .next t ∧ _
  rw [execLdshpArrive, atStn_working _ hwk]
  rw [hwk, hl]
  dsimp -zeta only
  extract_lets k rel addr u v
  have hu : Counted s u := (counted_storeTraffic s c 2 addr 8).trans (counted_ringBytes _ c st addr 8 false)
  have hv : Books s v := hu.toBooks.trans (books_modArch u st _)
  have hva (j : Nat) : v.arch j = if j = st then shapeTaken (s.arch j) i l else s.arch j := by
    rw [← hu.arch j]
    exact modArch_arch u st j _
  have hvt : v.token c rel l.t + 1 ≤ 65535 := by
    have e : v.token c rel l.t = (v.arch st).token l.t := by rw [State.token, hv.stnOfCtx, hst]; rfl
    rw [e, hva, if_pos rfl, shapeTaken_token]
    omega
  obtain ⟨w, hw', hi⟩ := incToken_counting v (k := .shape) (blame := none) ((hv.stnCount c).symm ▸ hrel) ((hv.counting c).trans hc)
    hvt rfl
  rw [Nat.div_eq_of_lt hw, bne_self_eq_false, if_neg Bool.false_ne_true, if_neg (Nat.not_lt.mpr hm), hi, hv.stnOfCtx, hst]
  refine ⟨_, rfl, (hv.trans hw'.toBooks).trans (books_modArch w st _), fun j => ?_⟩
  rw [modArch_arch, hw'.arch, hva]
  split <;> rfl

/-! ### Lines (R41) -/

/-- A choice made element by element is one of the elements, or the one to begin with. -/
theorem foldl_choice {α : Type} {f : Option α → α → Option α} (hf : ∀ b x, f b x = some x ∨ f b x = b) (l : List α) (b : Option α) {x : α}
    (h : l.foldl f b = some x) : x ∈ l ∨ b = some x := by
  induction l generalizing b with
  | nil => exact .inr h
  | cons y l ih =>
    rcases ih _ h with hx | hx
    · exact .inl (List.mem_cons_of_mem y hx)
    · rcases hf b y with e | e
      · rw [e] at hx
        exact .inl (Option.some.inj hx ▸ List.mem_cons_self)
      · exact .inr (e ▸ hx)

/-- No line of the window is replaced. -/
theorem victim_outside {w : List Nat} {l : List ILine} {v : Nat} (h : victim w l = some v) : v ∉ w := by
  have out {x : ILine} (hx : x ∈ l.filter fun x => !w.contains x.line) : x.line ∉ w := by
    simpa using (List.mem_filter.mp hx).2
  unfold victim at h
  extract_lets cand at h
  split at h
  · rename_i x hx
    cases h
    exact out (List.mem_of_find?_eq_some hx)
  · obtain ⟨x, hx, rfl⟩ := Option.map_eq_some_iff.mp h
    refine out ((foldl_choice (fun b y => ?_) _ _ hx).resolve_right nofun)
    split
    · exact .inl rfl
    · split
      · exact .inl rfl
      · exact .inr rfl

/-- The line stands in the store, with lines that stood there: all while there is room, and those of the window always. -/
theorem putLine_istore (a : Arch) (w : List Nat) (n : ILine) :
    n ∈ (a.putLine w n).istore ∧ (∀ x ∈ (a.putLine w n).istore, x ∈ a.istore ∨ x = n) ∧
      ∀ x ∈ a.istore, a.istore.length < 32 ∨ x.line ∈ w → x ∈ (a.putLine w n).istore := by
  unfold Arch.putLine
  extract_lets l
  have hl : (∀ x ∈ l, x ∈ a.istore) ∧ ∀ x ∈ a.istore, a.istore.length < 32 ∨ x.line ∈ w → x ∈ l := by
    unfold l
    split
    · exact ⟨fun x hx => hx, fun x hx _ => hx⟩
    · rename_i hfull
      split
      · rename_i v hv
        refine ⟨fun x hx => List.mem_of_mem_filter hx, fun x hx hw => List.mem_filter.mpr ⟨hx, ?_⟩⟩
        have hxw : x.line ∈ w := hw.resolve_left hfull
        simpa using fun e : x.line = v => victim_outside hv (e ▸ hxw)
      · exact ⟨fun x hx => hx, fun x hx _ => hx⟩
  obtain ⟨hold, hkept⟩ := hl
  refine ⟨by simp, fun x hx => ?_, fun x hx hw => List.mem_append_left _ (hkept x hx hw)⟩
  rcases List.mem_append.mp hx with h | h
  · exact .inl (hold x h)
  · exact .inr (List.mem_singleton.mp h)

/-- A missing line of the window. -/
theorem exec_lineFetchArrive {line : Nat} (h : s.working st = some c) (hc : (s.ctx c).state = .running) (hf : (s.arch st).run ≠ .finished)
    (hs : (s.arch st).run ≠ .stopped) (hw : line ∈ (s.ctx c).lineWindow (s.relStn c st) (s.arch st).next)
    (hm : ∀ x ∈ (s.arch st).istore, x.line ≠ line) :
    ∃ t, exec (.lineFetchArrive st line) s = .next t ∧ Books s t ∧ ∀ j, t.arch j = if j = st
      then (s.arch j).putLine ((s.ctx c).lineWindow (s.relStn c st) (s.arch st).next) ((s.ctx c).streamLine (s.relStn c st) line)
      else s.arch j := by
  show ∃ t, execLineFetchArrive st line s = .next t ∧ _
  unfold execLineFetchArrive
  rw [h]
  dsimp -zeta only
  extract_lets k rel a w stopped n base bytes u
  have hb : (k.state != .running || stopped || !w.contains line || a.istore.any fun x => x.line == line) = false := by
    simp only [Bool.or_eq_false_iff, bne_eq_false_iff_eq, beq_eq_false_iff_ne, Bool.not_eq_false', List.contains_iff_mem,
      List.any_eq_false, beq_iff_eq, stopped]
    exact ⟨⟨⟨hc, hf, hs⟩, hw⟩, hm⟩
  have hu : Counted s u := by
    unfold u
    split
    · exact counted_noteWaits s st [8]
    · exact .refl s
  have ht : Counted (u.modArch st (·.putLine w n)) (((u.modArch st (·.putLine w n)).storeTraffic c 2 base bytes).ringBytes c st base bytes
      false) := (counted_storeTraffic _ c 2 base bytes).trans (counted_ringBytes _ c st base bytes false)
  rw [hb, if_neg Bool.false_ne_true]
  refine ⟨_, rfl, (hu.toBooks.trans (books_modArch u st _)).trans ht.toBooks, fun j => ?_⟩
  rw [ht.arch, modArch_arch, hu.arch]
  rfl

/-! ### The obligation -/

/-- What a station alone holds differently, as the obligation states it. -/
theorem Books.arrives {f : Arch → Arch} (h : Books s t) (ha : ∀ j, t.arch j = if j = st then f (s.arch j) else s.arch j) :
    OnlyArch st s t ∧ Bookkept s t ∧ SameStores s t ∧ t.arch st = f (s.arch st) :=
  ⟨fun j hj => by rw [ha, if_neg hj], h.bookkept, h.sameStores, by rw [ha, if_pos rfl]⟩

/-- Settles O13: each arrival changes the station by one function of what it held (`exec_pendingMarkClear`, `exec_ldshpArrive`,
`exec_lineFetchArrive`), and beside it only counts. -/
theorem marksShapesAndLines : Obligations.MarksShapesAndLines := by
  intro s st c h A
  obtain ⟨hw, -⟩ := engineRuns_spec h
  refine ⟨fun m hm => ?_, fun i l hl h32 hmax htok => ?_, fun line hc hf hs hwin hmiss => ?_⟩
  · exact ⟨_, exec_pendingMarkClear hw hm, (books_modArch s st _).arrives (modArch_arch s st · _)⟩
  · obtain ⟨t, ht, hb, ha⟩ := exec_ldshpArrive h hl h32 hmax htok
    obtain ⟨hoa, hbk, hss, hst⟩ := hb.arrives (f := fun a => raiseToken (shapeTaken a i l) l.t 1) ha
    refine ⟨t, ht, hoa, hbk, hss, ?_⟩
    rw [hst]
    have hr (r : Reg) : (raiseToken (shapeTaken A i l) l.t 1).sreg r = (shapeTaken A i l).sreg r := rfl
    refine ⟨?_, fun r hr' => ?_, ?_, ?_, ?_, ?_⟩
    · rw [hr, shapeTaken_sreg, if_pos rfl]
    · rw [hr, shapeTaken_sreg, if_neg hr']
    · rw [shapeTaken_frame]
      rfl
    · rw [shapeTaken_frame]
      rfl
    · intro k
      have ht : (shapeTaken (s.arch st) i l).token l.t + 1 ≤ 65535 := by rw [shapeTaken_token]; exact htok
      rw [raiseToken_rose _ ht, shapeTaken_token]
    · rw [shapeTaken_frame]
      rfl
  · obtain ⟨t, ht, hb, ha⟩ := exec_lineFetchArrive hw hc hf hs hwin hmiss
    obtain ⟨hoa, hbk, hss, hst⟩ := hb.arrives (f := fun a => a.putLine _ _) ha
    obtain ⟨hnew, hold, hkept⟩ := putLine_istore A ((s.ctx c).lineWindow (s.relStn c st) A.next) ((s.ctx c).streamLine (s.relStn c st) line)
    refine ⟨t, ht, hoa, hbk, hss, ?_⟩
    rw [hst]
    exact ⟨hnew, hold, hkept, rfl⟩

end Sys2Proof.Laws
end

section
/-!
SUPPORT. Oscillators, droop, the end of a window and the report of floor breaches (R50-R52, R59, R385, R402), with the obligation on them;
and that a generated event stands in the queue of every open session (R336).
-/

namespace Sys2Proof.Laws

open Sys2Proof Sys2Proof.Machine

variable {r s t : State} {st : Nat}

/-! ### Events (R336) -/

theorem sendEvent_session (s : State) (k j : Slot) (e : QueuedEvent) : (s.sendEvent k e).session j = s.session j := by
  cases j <;> simp [State.session]

theorem gateEvent_session (s : State) (c n : Nat) (j : Slot) : (s.gateEvent c n).session j = s.session j := by
  cases j <;> rfl

theorem cmEvent_session (s : State) (i : Nat) (j : Slot) : (s.cmEvent i).session j = s.session j := by
  cases j <;> rfl

/-- An event for one slot leaves the other slot's session alone. -/
theorem queueEvent_session_ne (s : State) {k j : Slot} (o x : BitVec 16) (b : Bytes) (h : j ≠ k) :
    (s.queueEvent k o x b).session j = s.session j := by
  unfold State.queueEvent
  dsimp only
  split
  · rfl
  · rw [sendEvent_session, gateEvent_session, modSession_session_ne _ _ h]
    split
    · exact cmEvent_session s 4 j
    · rfl

/-- The event stands in the queue of an open session. -/
theorem queueEvent_queued (s : State) {k : Slot} (o x : BitVec 16) (b : Bytes) (h : (s.session k).open_ = true) :
    ∃ e ∈ ((s.queueEvent k o x b).session k).events, e.opcode = o ∧ e.ctx = x ∧ e.body = b ∧ e.time = s.uptimeUs := by
  unfold State.queueEvent
  dsimp only
  rw [h, if_neg (by decide), sendEvent_session, gateEvent_session, modSession_session_same]
  exact ⟨_, List.mem_append_right _ (List.mem_singleton_self _), rfl, rfl, rfl, rfl⟩

theorem posted_postEvent (s : State) (o x : BitVec 16) (b : Bytes) : Posted s (s.postEvent o x b) o x b := by
  intro k h
  unfold State.postEvent
  cases k with
  | a =>
    rw [queueEvent_session_ne _ o x b (by decide)]
    exact queueEvent_queued s o x b h
  | b =>
    rw [← queueEvent_session_ne s (k := .a) o x b (by decide)] at h
    have hn : (s.queueEvent .a o x b).uptimeUs = s.uptimeUs := by rw [State.uptimeUs, queueEvent_now, State.uptimeUs]
    rw [← hn]
    exact queueEvent_queued _ o x b h

/-! ### Oscillators and droop (R50, R51) -/

/-- What a change of an island leaves alone. -/
theorem modIsland_frame (s : State) (st : Nat) (f : Island → Island) :
    (s.modIsland st f).stn st = { s.stn st with island := f (s.stn st).island } ∧
      (∀ j, j ≠ st → (s.modIsland st f).stn j = s.stn j) ∧ { s.modIsland st f with stns := s.stns } = s :=
  ⟨modStn_stn_same s st _, fun _ hj => modStn_stn_ne s _ hj, rfl⟩

section Dies
variable (hst : st < 1024) (hd : s.bring.diesOn = true)
include hst hd

theorem exec_droopRecover : exec (.droopRecover st) s = .next (s.modIsland st fun x => { x with
    stretch := 0, stretchAll := false, release := x.release + (x.stretch - 1) }) := by
  show execDroopRecover st s = _
  simp [execDroopRecover, hd, hst]

theorem exec_droopDetect {n : Nat} (hn : n < 4) : exec (.droopDetect st (n + 1)) s = .next (s.modIsland st fun x => { x with
    stretch := n + 1, droopWin := true }) := by
  show execDroopDetect st (n + 1) s = _
  simp [execDroopDetect, hd, hst, Nat.not_lt.mpr hn]

theorem exec_dcoSettle_locked (hf : (s.stn st).island.freq ≠ (s.stn st).island.target) :
    exec (.dcoSettle st true) s = .next (s.modIsland st fun x => { x with freq := x.target }) := by
  show execDcoSettle st true s = _
  simp [execDcoSettle, hd, hst, hf]

end Dies

/-! ### The counts of a window (R51, R446-R451) -/

/-- From `a` to `b` a station counts what a window was, `n` of its cycles in the cycle counter. -/
def StnWindow (n : Word) (a b : Stn) : Prop :=
  ∃ tally stretched perCycles perStretched release releaseLeft,
    b = { a with
      tally := tally
      island := { a.island with
        stretched := stretched, perCycles := perCycles, perStretched := perStretched, release := release
        releaseLeft := releaseLeft } } ∧
    tally.cycles = a.tally.cycles + n

theorem StnWindow.refl (a : Stn) : StnWindow 0 a a := ⟨_, _, _, _, _, _, rfl, (BitVec.add_zero _).symm⟩

theorem StnWindow.trans {m n : Word} {a b c : Stn} (h : StnWindow m a b) (k : StnWindow n b c) : StnWindow (m + n) a c := by
  obtain ⟨_, _, _, _, _, _, rfl, hc⟩ := h
  obtain ⟨_, _, _, _, _, _, rfl, kc⟩ := k
  exact ⟨_, _, _, _, _, _, rfl, by rw [kc, hc, BitVec.add_assoc]⟩

/-- Station `st` counts what a window was, with free values drawn, and nothing else changes. -/
structure WindowCounts (st : Nat) (n : Word) (s t : State) : Prop where
  frame : ∃ stns free, t = { s with stns := stns, free := free }
  other : ∀ j, j ≠ st → t.stn j = s.stn j
  stn : StnWindow n (s.stn st) (t.stn st)

theorem WindowCounts.refl (st : Nat) (s : State) : WindowCounts st 0 s s := ⟨⟨_, _, rfl⟩, fun _ _ => rfl, .refl _⟩

theorem WindowCounts.trans {m n : Word} (h : WindowCounts st m r s) (k : WindowCounts st n s t) : WindowCounts st (m + n) r t where
  frame := by
    obtain ⟨_, _, rfl⟩ := h.frame
    obtain ⟨_, _, rfl⟩ := k.frame
    exact ⟨_, _, rfl⟩
  other j hj := (k.other j hj).trans (h.other j hj)
  stn := h.stn.trans k.stn

theorem windowCounts_draw (s : State) (st : Nat) : WindowCounts st 0 s s.draw.2 := ⟨⟨_, _, rfl⟩, fun _ _ => rfl, .refl _⟩

theorem windowCounts_modStn (s : State) (st : Nat) {n : Word} {f : Stn → Stn} (h : StnWindow n (s.stn st) (f (s.stn st))) :
    WindowCounts st n s (s.modStn st f) :=
  ⟨⟨_, _, rfl⟩, fun _ hj => modStn_stn_ne s f hj, by rw [modStn_stn_same]; exact h⟩

theorem windowCounts_idle (s : State) (st code n : Nat) : WindowCounts st 0 s (s.modStn st (·.idle code n)) :=
  windowCounts_modStn s st ⟨_, _, _, _, _, _, rfl, (BitVec.add_zero _).symm⟩

theorem windowCounts_shareIdle (s : State) (st : Nat) (l : List Nat) (n : Nat) : WindowCounts st 0 s (s.shareIdle st l n) := by
  induction l generalizing s n with
  | nil => exact .refl st s
  | cons code l ih =>
    cases l with
    | nil => exact windowCounts_idle s st code n
    | cons code' l => exact ((windowCounts_draw s st).trans (windowCounts_idle _ st code _)).trans (ih _ _)

theorem WindowCounts.of {m n : Word} (e : m = n) (h : WindowCounts st m s t) : WindowCounts st n s t := e ▸ h

theorem windowCounts_countIdle (s : State) (st n : Nat) : WindowCounts st (BitVec.ofNat 64 n) s (s.countIdle st n) := by
  refine .of ?_ (((windowCounts_draw s st).trans (windowCounts_draw _ st)).trans
    ((windowCounts_modStn _ st (n := BitVec.ofNat 64 n) ⟨_, _, _, _, _, _, rfl, rfl⟩).trans (windowCounts_shareIdle _ st _ _)))
  simp

theorem stnWindow_event (a : Stn) (code n : Nat) : StnWindow 0 a (a.event code n) :=
  ⟨_, _, _, _, _, _, rfl, (BitVec.add_zero _).symm⟩

theorem stnWindow_stretch (a : Stn) (stretched perCycles perStretched release releaseLeft : Nat) : StnWindow 0 a { a with
    island := { a.island with
      stretched := stretched, perCycles := perCycles, perStretched := perStretched, release := release
      releaseLeft := releaseLeft } } := ⟨_, _, _, _, _, _, rfl, (BitVec.add_zero _).symm⟩

theorem windowCounts_countStretch (s : State) (st n : Nat) : WindowCounts st 0 s (s.countStretch st n) :=
  .of (by decide) <| (((windowCounts_draw s st).trans (windowCounts_draw _ st)).trans (windowCounts_draw _ st)).trans
    (windowCounts_modStn _ st ((stnWindow_stretch _ _ _ _ _ _).trans (stnWindow_event _ _ _)))

/-! ### Floor breaches (R385, R402) -/

/-- The governor's block after a floor shortfall of station `st`. -/
def breachGov (s : State) (st : Nat) : Gov :=
  ({ s with gov := { s.gov with
      breachWindows := satAdd 32 s.gov.breachWindows 1, lastCause := s.breachCause st, openBreach := true } }.gvEvent 2).gov

/-- An event of a partition's floor breaches changes the partition and what an event changes. -/
theorem sendBreach_spec (s : State) (p : Nat) : ∃ parts cmd host tally out,
    s.sendBreach p = { s with parts := parts, cmd := cmd, host := host, tally := tally, out := out } := by
  obtain ⟨_, _, _, _, h⟩ := powerEvent_spec (s.modPart p fun q => { q with gov := { q.gov with breachPending := 0, breachAt := some s.now } })
    3 (s.part p).gov.breachCause p 0 (s.part p).gov.breachPending 0
  exact ⟨_, _, _, _, _, h⟩

theorem sendBreach_part (s : State) (p : Nat) :
    (s.sendBreach p).part p = { s.part p with gov := { (s.part p).gov with breachPending := 0, breachAt := some s.now } } ∧
      (s.sendBreach p).ctxs = s.ctxs ∧ (s.sendBreach p).stns = s.stns ∧ (s.sendBreach p).gov = s.gov := by
  simp [State.sendBreach]

/-- The POWER event of a partition's floor breaches is kind 3, with the cause and the count (R402). -/
theorem posted_sendBreach (s : State) (p : Nat) : Posted s (s.sendBreach p) 0x8010 0xFFFF
    (toBe 1 3 ++ toBe 1 (s.part p).gov.breachCause ++ toBe 1 p ++ toBe 1 0 ++ toBe 4 0 ++ toBe 4 (s.part p).gov.breachPending ++
      toBe 4 0) :=
  posted_postEvent (s.modPart p _) _ _ _

theorem exec_floorBreachReport {p at_ : Nat} (hp : s.hasPart p = true) (ha : (s.part p).gov.breachAt = some at_)
    (hn : (s.part p).gov.breachPending ≠ 0) (ht : at_ + 100000000 ≤ s.now) :
    exec (.floorBreachReport p) s = .next (s.sendBreach p) := by
  show execFloorBreachReport p s = _
  have ht : ¬ s.now < at_ + ms 100 := Nat.not_lt.mpr ht
  simp [execFloorBreachReport, ha, hp, hn, ht]

/-- The contexts after a floor shortfall of station `st`: its context's step is marked. -/
def breachCtxs (s : State) (st : Nat) : Sparse Ctx :=
  match (s.stn st).ctx with
  | some c => (s.modCtx c fun k => { k with breach := true }).ctxs
  | none => s.ctxs

theorem floorBreach_spec (s : State) (st : Nat) : ∃ parts cmd host tally out,
    s.floorBreach st = { s with
      gov := breachGov s st, ctxs := breachCtxs s st, parts := parts, cmd := cmd, host := host, tally := tally, out := out } := by
  unfold State.floorBreach
  extract_lets p cause g u v w
  have hw : w = { v with ctxs := breachCtxs s st } := by
    have e : (v.stn st).ctx = (s.stn st).ctx := rfl
    unfold w breachCtxs
    rw [e]
    cases (s.stn st).ctx <;> rfl
  obtain ⟨_, _, _, _, _, hsent⟩ := sendBreach_spec w p
  split
  · split
    · exact ⟨_, _, _, _, _, hw⟩
    · exact ⟨_, _, _, _, _, hsent.trans (by rw [hw]; rfl)⟩
  · exact ⟨_, _, _, _, _, hsent.trans (by rw [hw]; rfl)⟩

theorem breachCtxs_marked {c : Nat} (h : (s.stn st).ctx = some c) : (mget {} (breachCtxs s st) c).breach = true := by
  rw [breachCtxs, h]
  show ((s.modCtx c fun k => { k with breach := true }).ctx c).breach = true
  rw [modCtx_ctx_same]

/-- The event bit of floor breaches (R405). -/
theorem breachGov_event (s : State) (st : Nat) : (breachGov s st).event.getLsbD 2 = true := by
  show (setBit s.gov.event 2).getLsbD 2 = true
  simp [setBit]

/-! ### The end of a window (R52, R59) -/

/-- The state in which the window of station `st` ends: a short one that counts is a floor shortfall. -/
def windowJudged (s u : State) (st cycles : Nat) : State :=
  if (s.stn st).island.wholeWin && cycles < 1800 then u.floorBreach st else u

theorem exec_islandWindowEnd {cycles : Nat} (hst : st < 1024) (hd : s.bring.diesOn = true)
    (hc : (s.stn st).island.issuedWin ≤ cycles) :
    ∃ u, WindowCounts st (BitVec.ofNat 64 (cycles - (s.stn st).island.issuedWin)) s u ∧
      exec (.islandWindowEnd st cycles) s = .next ((windowJudged s u st cycles).modStn st fun t =>
        t.nextWindow cycles (windowJudged s u st cycles).gov.shed ((windowJudged s u st cycles).cause st)) := by
  refine ⟨_, .of (BitVec.add_zero _) ((windowCounts_countIdle s st _).trans (windowCounts_countStretch _ st cycles)), ?_⟩
  show execIslandWindowEnd st cycles s = _
  unfold execIslandWindowEnd
  extract_lets i
  have hb : (decide (1024 ≤ st) || !s.bring.diesOn || decide (cycles < i.issuedWin)) = false := by
    simp [hd, Nat.not_le.mpr hst, Nat.not_lt.mpr hc, i]
  rw [hb, if_neg Bool.false_ne_true]
  rfl

/-- A window's judgement leaves the stations alone. -/
theorem windowJudged_stns (s u : State) (st cycles : Nat) : (windowJudged s u st cycles).stns = u.stns := by
  unfold windowJudged
  split
  · obtain ⟨_, _, _, _, _, h⟩ := floorBreach_spec u st
    rw [h]
  · rfl

/-- The governor, contexts and partitions as a window's judgement leaves them. -/
theorem windowJudged_breach (s u : State) (st cycles : Nat) :
    if (s.stn st).island.wholeWin = true ∧ cycles < 1800
      then (windowJudged s u st cycles).gov = breachGov u st ∧ (windowJudged s u st cycles).ctxs = breachCtxs u st
      else windowJudged s u st cycles = u := by
  unfold windowJudged
  by_cases h : (s.stn st).island.wholeWin = true ∧ cycles < 1800
  · rw [if_pos h, if_pos (by simpa using h)]
    obtain ⟨_, _, _, _, _, e⟩ := floorBreach_spec u st
    rw [e]
    exact ⟨rfl, rfl⟩
  · rw [if_neg h, if_neg (by simpa using h)]

/-- The first window after one that a station counted. -/
theorem nextWindow_counted {n : Word} {a b : Stn} (h : StnWindow n a b) (cycles : Nat) (shed : Bool) (cause : Option Nat) :
    let y := b.nextWindow cycles shed cause
    y.island.lastWindow = min cycles 65535 ∧
      y.island.minWindow = (if a.island.wholeWin then min a.island.minWindow cycles else a.island.minWindow) ∧
      y.island.issuedWin = 0 ∧ y.island.target = a.island.target ∧ y.island.freq = a.island.freq ∧
      y.tally.cycles = a.tally.cycles + n ∧ y.arch = a.arch ∧ y.state = a.state ∧ y.island.lowWin = a.island.cause shed := by
  obtain ⟨_, _, _, _, _, _, rfl, hc⟩ := h
  exact ⟨rfl, rfl, rfl, rfl, rfl, hc, rfl, rfl, rfl⟩

/-! ### The obligation -/

theorem WindowCounts.breach {n : Word} (h : WindowCounts st n s t) : (t.stn st).ctx = (s.stn st).ctx ∧
    t.breachCause st = (if (s.stn st).island.lowWin = 0 then 3 else (s.stn st).island.lowWin) := by
  obtain ⟨_, _, _, _, _, _, e, -⟩ := h.stn
  unfold State.breachCause
  rw [e]
  simp

/-- The shed, and a short window's marks, after a window's judgement (R385, R402). -/
theorem windowJudged_spec {u : State} {n : Word} (h : WindowCounts st n s u) (cycles : Nat) :
    let v := windowJudged s u st cycles
    v.gov.shed = s.gov.shed ∧
      if (s.stn st).island.wholeWin = true ∧ cycles < 1800
      then v.gov.lastCause = (if (s.stn st).island.lowWin = 0 then 3 else (s.stn st).island.lowWin) ∧
        v.gov.breachWindows = satAdd 32 s.gov.breachWindows 1 ∧ v.gov.event.getLsbD 2 = true ∧
        ∀ c, (s.stn st).ctx = some c → (v.ctx c).breach = true
      else v.gov = s.gov ∧ v.ctxs = s.ctxs ∧ v.parts = s.parts := by
  intro v
  have hv := windowJudged_breach s u st cycles
  obtain ⟨hctx, hcause⟩ := h.breach
  obtain ⟨_, _, hf⟩ := h.frame
  have hg : u.gov = s.gov := by rw [hf]
  split
  · rename_i hw
    rw [if_pos hw] at hv
    obtain ⟨hgov, hctxs⟩ := hv
    rw [show v.gov = _ from hgov]
    refine ⟨hg ▸ rfl, hcause, hg ▸ rfl, breachGov_event u st, fun c hc => ?_⟩
    rw [State.ctx, show v.ctxs = _ from hctxs]
    exact breachCtxs_marked (hctx.trans hc)
  · rename_i hw
    rw [if_neg hw] at hv
    rw [show v = u from hv, hf]
    exact ⟨rfl, rfl, rfl, rfl⟩

/-- Settles O18: oscillators and droop change their island (`modIsland_frame`), the end of a window counts it (`WindowCounts`), judges
it (`windowJudged_spec`) and begins the next (`nextWindow_counted`), and a report is sent to every open session (`posted_postEvent`). -/
theorem islandsAndWindows : Obligations.IslandsAndWindows := by
  refine ⟨?_, ?_, ?_⟩
  · intro s st hst hd x i y hi
    rcases List.mem_append.mp hi with hi | hi
    · rcases List.mem_append.mp hi with hi | hi
      · obtain ⟨rfl, rfl⟩ := Prod.mk.inj (List.mem_singleton.mp hi)
        exact ⟨_, exec_droopRecover hst hd, modIsland_frame s st _⟩
      · split at hi
        · rename_i hf
          obtain ⟨rfl, rfl⟩ := Prod.mk.inj (List.mem_singleton.mp hi)
          exact ⟨_, exec_dcoSettle_locked hst hd hf, modIsland_frame s st _⟩
        · cases hi
    · obtain ⟨n, hn, e⟩ := List.mem_map.mp hi
      obtain ⟨rfl, rfl⟩ := Prod.mk.inj e
      exact ⟨_, exec_droopDetect hst hd (List.mem_range.mp hn), modIsland_frame s st _⟩
  · intro s st cycles hst hd hc x
    obtain ⟨u, hu, he⟩ := exec_islandWindowEnd hst hd hc
    obtain ⟨hshed, hbreach⟩ := windowJudged_spec hu cycles
    have hstn (j : Nat) : (windowJudged s u st cycles).stn j = u.stn j := by rw [State.stn, windowJudged_stns, State.stn]
    obtain ⟨hlast, hmin, hissued, htarget, hfreq, hcycles, harch, hstate, hlow⟩ := nextWindow_counted hu.stn cycles
      (windowJudged s u st cycles).gov.shed ((windowJudged s u st cycles).cause st)
    refine ⟨_, he, ?_⟩
    simp only [State.arch, modStn_stn_same, hstn]
    refine ⟨hlast, hmin, hissued, htarget, hfreq, hcycles, fun j => ?_, fun j hj => ?_, hlow.trans (by rw [hshed]), hbreach⟩
    · by_cases hj : j = st
      · subst hj
        rw [modStn_stn_same, hstn]
        exact ⟨harch, hstate⟩
      · rw [modStn_stn_ne _ _ hj, hstn, hu.other j hj]
        exact ⟨rfl, rfl⟩
    · rw [modStn_stn_ne _ _ hj, hstn, hu.other j hj]
  · intro s p at_ g hp ha hn ht
    obtain ⟨hpart, hframe⟩ := sendBreach_part s p
    exact ⟨_, exec_floorBreachReport hp ha hn ht, by rw [hpart], by rw [hpart], posted_sendBreach s p, hframe⟩

end Sys2Proof.Laws
end

section
/-!
SUPPORT. How a REG_WRITE of one register is received, made and answered (R10, R327-R345).
-/

namespace Sys2Proof.Laws

open Sys2Proof Sys2Proof.Machine

variable {r s t : State} {p q : Pkt} {k : Slot}

/-! ### A command that is taken -/

theorem heard_outstanding (s : State) (k : Slot) (p : Pkt) : (s.heard k p).outstanding k = s.outstanding k := by
  cases k <;> rfl

theorem heard_cmd (s : State) (k j : Slot) (p : Pkt) : (s.heard k p).cmd.responsive = s.cmd.responsive ∧
    (s.heard k p).batonBusy = s.batonBusy ∧ (s.heard k p).hasLease j = s.hasLease j := by
  cases k <;> exact ⟨rfl, rfl, rfl⟩

theorem accept_cmd (s : State) (k j : Slot) (p : Pkt) : (s.modSession k (·.accept p)).cmd.responsive = s.cmd.responsive ∧
    (s.modSession k (·.accept p)).batonBusy = s.batonBusy ∧ (s.modSession k (·.accept p)).hasLease j = s.hasLease j := by
  cases k <;> exact ⟨rfl, rfl, rfl⟩

/-- The session-form checks of a packet that passes them all. -/
theorem receiveSession_taken {f : State → Pkt → Slot → State} (hk : slotOf p.slot = some k) (hsrc : s.fromSlot k p = true)
    (hout : s.outstanding k < 16) (hopen : (s.session k).open_ = true) (hnum : p.session = (s.session k).number)
    (htag : plouthTag (s.session k).cmdKey (pktBytes p) = p.trailer) (hhigh : (s.session k).high ≤ p.sequence.toNat + 63)
    (hnew : ((s.session k).cache.all fun e => e.pkt.sequence != p.sequence) = true) (hres : reservedHeader p = none)
    (hform : formOk p p.opcode.toNat = true) (hfw : (guaranteed p.opcode.toNat || s.cmd.responsive) = true)
    (hbaton : (!batonOp p.opcode.toNat || (s.hasLease k && !s.batonBusy)) = true) :
    s.receiveSession p f = f ((s.heard k p).modSession k (·.accept p)) p k := by
  have hfind : ((s.session k).cache.find? fun e => e.pkt.sequence == p.sequence) = none := by
    rw [List.find?_eq_none]
    intro e he
    simpa using List.all_eq_true.mp hnew e he
  obtain ⟨hr, hb, hl⟩ := heard_cmd s k k p
  obtain ⟨hr', hb', hl'⟩ := accept_cmd (s.heard k p) k k p
  unfold State.receiveSession
  rw [hk]
  dsimp only
  rw [hopen, hsrc, hnum, htag, heard_outstanding, hfind]
  simp only [Bool.not_true, bne_self_eq_false, Bool.or_false, Bool.false_eq_true, if_false, Nat.not_lt.mpr hhigh, Nat.not_le.mpr hout]
  unfold State.admitted
  rw [hres]
  dsimp only
  rw [if_pos hform, hr', hr, hb', hb, hl', hl]
  have hfw' : (!guaranteed p.opcode.toNat && !s.cmd.responsive) = false := by
    rw [← Bool.not_or, hfw]
    rfl
  rw [hfw', if_neg Bool.false_ne_true]
  split
  · rfl
  · rename_i hop
    simp only [hop, Bool.false_or, Bool.and_eq_true, Bool.not_eq_true'] at hbaton
    rw [hbaton.1, hbaton.2]
    rfl

/-- A session-form command that is taken runs in the state in which it has been accepted. -/
theorem receive_taken {op : Nat} {f : State → Pkt → Slot → State} (h : s.takes p q k = true) (hs : pktSession p = true)
    (hop : p.opcode.toNat = op) : s.receive op p f = f (s.took p k) q k := by
  simp only [pktSession, Bool.and_eq_true, Bool.not_eq_true'] at hs
  obtain ⟨ho, hg⟩ := hs
  simp only [State.takes, ho, hg, Bool.false_eq_true, if_false, Bool.and_eq_true, Bool.not_eq_true', beq_iff_eq, decide_eq_true_eq,
    Option.isNone_iff_eq_none] at h
  obtain ⟨⟨⟨⟨⟨⟨⟨⟨⟨ha, h0⟩, h1⟩, hreach⟩, hmode⟩, hver⟩, hlen⟩, hres⟩, hform⟩, ⟨⟨hk, hsrc⟩, hout⟩,
    ⟨⟨⟨⟨⟨⟨hopen, hnum⟩, htag⟩, hhigh⟩, hnew⟩, hfw⟩, hbaton⟩, rfl⟩ := h
  unfold State.receive State.receiveOwn
  have hmode' : (s.hearPkt p).modeRefuses p = false := hmode
  rw [ha, h0, h1, hop, hreach, hmode', ho, hg, hver, hlen]
  simp only [Bool.not_true, bne_self_eq_false, Bool.or_false, Bool.false_and, Bool.false_eq_true, if_false]
  have ho' : pktOpen (splitAtLength p) = false := ho
  have hg' : pktSigned (splitAtLength p) = false := hg
  rw [ho', hg']
  simp only [Bool.false_eq_true, if_false]
  exact receiveSession_taken hk hsrc hout hopen hnum htag hhigh hnew hres hform hfw hbaton

/-! ### What accepting and answering a command leave unchanged -/

/-- From `s` to `t` a command is accepted or answered: events that wait in a session, and whether it is open, stand. -/
structure Acks (s t : State) : Prop where
  frame : ∃ cmd host tally out, t = { s with cmd := cmd, host := host, tally := tally, out := out }
  out : ∃ l, t.out = l ++ s.out
  session : ∀ j, (t.session j).open_ = (s.session j).open_ ∧ (t.session j).events = (s.session j).events

theorem Acks.refl (s : State) : Acks s s := ⟨⟨_, _, _, _, rfl⟩, ⟨[], rfl⟩, fun _ => ⟨rfl, rfl⟩⟩

theorem Acks.trans (h : Acks r s) (h' : Acks s t) : Acks r t := by
  obtain ⟨⟨_, _, _, _, rfl⟩, ⟨l, hl⟩, hs⟩ := h
  obtain ⟨⟨_, _, _, _, rfl⟩, ⟨m, hm⟩, hs'⟩ := h'
  exact ⟨⟨_, _, _, _, rfl⟩, ⟨m ++ l, by rw [hm, hl, List.append_assoc]⟩,
    fun j => ⟨(hs' j).1.trans (hs j).1, (hs' j).2.trans (hs j).2⟩⟩

theorem Acks.onlyAnswered (h : Acks s t) : OnlyAnswered s t := by
  obtain ⟨⟨_, _, _, _, rfl⟩, -, -⟩ := h
  rfl

/-- Both sessions stand, and so does what was sent. -/
theorem acks_counts (h : ∃ cmd host tally, t = { s with cmd := cmd, host := host, tally := tally }) (ha : t.cmd.a = s.cmd.a := by rfl)
    (hb : t.cmd.b = s.cmd.b := by rfl) : Acks s t := by
  obtain ⟨cmd, _, _, rfl⟩ := h
  refine ⟨⟨_, _, _, _, rfl⟩, ⟨[], rfl⟩, fun j => ?_⟩
  cases j with
  | a => exact ⟨congrArg Session.open_ ha, congrArg Session.events ha⟩
  | b => exact ⟨congrArg Session.open_ hb, congrArg Session.events hb⟩

theorem acks_modSession (s : State) (k : Slot) {f : Session → Session} (ho : ∀ x, (f x).open_ = x.open_ := by intro; rfl)
    (he : ∀ x, (f x).events = x.events := by intro; rfl) : Acks s (s.modSession k f) := by
  refine ⟨?_, ⟨[], by simp⟩, fun j => ?_⟩
  · cases k <;> exact ⟨_, _, _, _, rfl⟩
  · by_cases h : j = k
    · subst h
      rw [modSession_session_same]
      exact ⟨ho _, he _⟩
    · rw [modSession_session_ne s f h]
      exact ⟨rfl, rfl⟩

theorem acks_emit (s : State) (o : Out) : Acks s (s.emit o) := ⟨⟨_, _, _, _, rfl⟩, ⟨[o], rfl⟩, fun j => by cases j <;> exact ⟨rfl, rfl⟩⟩

theorem acks_gateEvent (s : State) (c n : Nat) : Acks s (s.gateEvent c n) :=
  acks_counts ⟨_, _, _, rfl⟩

theorem acks_took (s : State) (p : Pkt) (k : Slot) : Acks s (s.took p k) := by
  have h : Acks s (s.hearPkt p) := acks_counts ⟨_, _, _, rfl⟩
  exact (h.trans (acks_modSession _ k)).trans (acks_modSession _ k)

/-- A status that is not an authentication failure's is counted. -/
theorem acks_countReply (s : State) {st : BitVec 16} (h : authStatus st = false) : Acks s (s.countReply st) := by
  have hc : Acks s (if st == 0 then { s with cmd := { s.cmd with accepted := satAdd 32 s.cmd.accepted 1 } }
      else { s with cmd := { s.cmd with refused := satAdd 32 s.cmd.refused 1 } }) := by
    split
    · exact acks_counts ⟨_, _, _, rfl⟩
    · exact acks_counts ⟨_, _, _, rfl⟩
  unfold State.countReply
  rw [h]
  dsimp only
  split
  · contradiction
  · split
    · exact (hc.trans (acks_gateEvent _ _ 1)).trans
        (acks_counts ⟨_, _, _, rfl⟩)
    · exact hc.trans (acks_gateEvent _ _ 1)

theorem acks_cacheReply (s : State) (p : Pkt) (st : BitVec 16) (d : BitVec 32) (b : Bytes) : Acks s (s.cacheReply p st d b) := by
  unfold State.cacheReply
  split
  · split
    · exact acks_modSession s _
    · exact .refl s
  · exact .refl s

theorem acks_sendReply (s : State) (p : Pkt) {st : BitVec 16} (d : BitVec 32) (b : Bytes) (h : authStatus st = false) :
    Acks s (s.sendReply p st d b) := by
  unfold State.sendReply
  rw [h]
  exact acks_emit s _

/-- An answer other than an authentication failure's. -/
theorem acks_reply (s : State) (p : Pkt) {st : BitVec 16} (d : BitVec 32) (b : Bytes) (h : authStatus st = false) :
    Acks s (s.reply p st d b) := by
  have hr : (s.countReply st).countRefusal st = s.countReply st := by
    unfold State.countRefusal
    rw [h]
    rfl
  unfold State.reply
  dsimp only
  rw [hr]
  refine List.foldlRecOn (motive := fun u => Acks s u) _ _ ?_ fun u hu q _ => hu.trans (acks_sendReply u q d b h)
  exact ((acks_countReply s h).trans (acks_cacheReply _ p st d b)).trans (acks_sendReply _ p d b h)

/-- An event stands in the queues of the sessions that were open before a command was accepted, and after it is answered. -/
theorem Acks.posted {u v : State} {o x : BitVec 16} {b : Bytes} (h : Acks r s) (hp : Posted s u o x b) (h' : Acks u v) :
    Posted r v o x b := by
  intro j hj
  obtain ⟨⟨_, _, _, _, rfl⟩, -, hs⟩ := h
  rw [← (hs j).1] at hj
  rw [(h'.session j).2]
  exact hp j hj

/-! ### One register written -/

/-- The answer of a REG_WRITE of one register. -/
def writeAnswer (s : State) (p : Pkt) : RegOut → State
  | .ok u => u.reply p 0
  | .error e => s.reply p e

/-- A REG_WRITE of one register is made in the state in which it has been accepted, and answered. -/
theorem receive_writes {o v : Nat} (h : s.writes p k o v = true) : s.receive 0x21 p State.doRegWrite =
    writeAnswer (s.took p k) p ((s.took p k).regWrite k o v) := by
  simp only [State.writes, Bool.and_eq_true, Bool.not_eq_true', beq_iff_eq] at h
  obtain ⟨⟨⟨⟨⟨⟨⟨ht, hb⟩, hop⟩, hlen⟩, hn⟩, hz⟩, rfl⟩, rfl⟩ := h
  have hsess : pktSession p = true := by
    have hf : formOk p p.opcode.toNat = true := by
      simp only [State.takes, Bool.and_eq_true] at ht
      exact ht.1.2
    rw [hop] at hf
    unfold formOk at hf
    split at hf
    · contradiction
    · rename_i ho
      split at hf
      · contradiction
      · rename_i hg
        rw [pktSession, Bool.eq_false_of_not_eq_true ho, Bool.eq_false_of_not_eq_true hg]
        rfl
  have hbusy : (s.took p k).batonBusy = false := by
    have := (accept_cmd ((s.hearPkt p).heard k (splitAtLength p)) k k (splitAtLength p)).2.1
    rw [(heard_cmd _ k k _).2.1] at this
    exact this.trans hb
  rw [receive_taken ht hsess (by rw [hop]; rfl)]
  unfold State.doRegWrite State.withZeros
  dsimp only
  rw [hn, hlen, hbusy]
  simp only [List.find?_cons, hz]
  unfold State.applyRegWrite
  rw [hn]
  simp only [State.applyWrites]
  cases (s.took p k).regWrite k (beAt p.params 8 8) (beAt p.params 16 8) with
  | ok u => rfl
  | error e => rfl

end Sys2Proof.Laws
end

section
/-!
SUPPORT. The registers that the rows of the register writes name, and how a row answers with and without the baton (R10, R345).
-/

namespace Sys2Proof.Laws

open Sys2Proof Sys2Proof.Machine

variable {r s t : State} {p q : Pkt} {k : Slot}

/-! ### The registers that the rows name -/

theorem inArray_mem {off base stride n i x : Nat} (ho : off = base + stride * i + x) (hi : i < n) (hx : x < stride) :
    inArray off base stride n = some (i, x) := by
  subst ho
  have hlt : stride * i + x < stride * n := by
    calc stride * i + x < stride * (i + 1) := by rw [Nat.mul_succ]; omega
      _ ≤ stride * n := Nat.mul_le_mul_left _ hi
  have hd : (stride * i + x) / stride = i := by
    rw [Nat.mul_add_div (by omega), Nat.div_eq_of_lt hx, Nat.add_zero]
  unfold inArray
  rw [if_pos (by simp; omega), show base + stride * i + x - base = stride * i + x by omega, hd, Nat.mul_add_mod,
    Nat.mod_eq_of_lt hx]

theorem inArray_outside {off base stride n : Nat} (h : off < base ∨ base + stride * n ≤ off) : inArray off base stride n = none := by
  unfold inArray
  rw [if_neg]
  simp
  omega

/-- A write to a register of the stacks or of the stations. -/
theorem regWrite_unit (s : State) (k : Slot) {off v : Nat} (hb : 12 ≤ off / 0x100000) (hr : (s.regRead off).isSome = true) :
    s.regWrite k off v = (s.writeUnit k off v).getD (.ok s) := by
  unfold State.regWrite
  rw [← Option.not_isSome, hr]
  dsimp only
  rw [if_neg (by decide), if_neg (by simp; omega), if_neg (by simp; omega), if_neg (by omega)]

theorem regWrite_station (s : State) (k : Slot) {i : Nat} (v : Nat) (hi : i < 1024) :
    s.regWrite k (0x1000030 + 0x10000 * i) v = s.withBaton k (.ok (s.stnCtrl i v)) := by
  have ho : 0x1000030 + 0x10000 * i = 0x1000000 + 0x10000 * i + 0x30 := by omega
  have hr : (s.regRead (0x1000030 + 0x10000 * i)).isSome = true := by
    rw [ho, regRead_station s hi (by omega) rfl]
    rfl
  rw [regWrite_unit s k (by omega) hr]
  unfold State.writeUnit
  rw [inArray_outside (by omega), inArray_mem ho hi (by omega)]
  rfl

/-- The registers of stack `n` begin at its group's base. -/
theorem regRead_stack (s : State) {n x off : Nat} (ho : off = 0xC00000 + 0x10000 * n + x) (hn : n < 32) (hx : x < 0x10000)
    (h8 : x % 8 = 0) : s.regRead off = s.readStk n x := by
  have hal : (off % 8 != 0) = false := by simp; omega
  obtain ⟨j, hj⟩ := Nat.exists_eq_add_of_le' (show 12 ≤ off / 0x100000 by omega)
  unfold State.regRead
  rw [hal, inArray_mem ho hn hx, hj]
  rfl

theorem regWrite_stackScrub (s : State) (k : Slot) {n : Nat} (v : Nat) (hn : n < 32) :
    s.regWrite k (0xC00028 + 0x10000 * n) v = s.withBaton k (.ok (s.hbScrub n v)) := by
  have ho : 0xC00028 + 0x10000 * n = 0xC00000 + 0x10000 * n + 0x28 := by omega
  have hr : (s.regRead (0xC00028 + 0x10000 * n)).isSome = true := by
    rw [regRead_stack s ho hn (by omega) rfl]
    rfl
  rw [regWrite_unit s k (by omega) hr]
  unfold State.writeUnit
  rw [inArray_mem ho hn (by omega)]
  rfl

theorem regWrite_stackCtrl (s : State) (k : Slot) {n : Nat} (v : Nat) (hn : n < 32) :
    s.regWrite k (0xC00038 + 0x10000 * n) v = s.withBaton k (.ok (s.hbCtrl n v)) := by
  have ho : 0xC00038 + 0x10000 * n = 0xC00000 + 0x10000 * n + 0x38 := by omega
  have hr : (s.regRead (0xC00038 + 0x10000 * n)).isSome = true := by
    rw [regRead_stack s ho hn (by omega) rfl]
    rfl
  rw [regWrite_unit s k (by omega) hr]
  unfold State.writeUnit
  rw [inArray_mem ho hn (by omega)]
  rfl

theorem regWrite_csScrub (s : State) (k : Slot) (v : Nat) : s.regWrite k 0xB00028 v = s.withBaton k (.ok (s.csScrub v)) := rfl

/-- A write to a register of FAB. -/
theorem regWrite_fab (s : State) (k : Slot) {off o v : Nat} (ho : off = 0x600000 + o) (hlt : o < 0x100000) (h8 : o % 8 = 0)
    (hr : (s.readFab o).isSome = true) : s.regWrite k off v = (s.writeFab k o v).getD (.ok s) := by
  have hb : off / 0x100000 = 6 := by omega
  have hm : off % 0x100000 = o := by omega
  have hal : (off % 8 != 0) = false := by simp; omega
  have hs : s.regRead off = s.readFab o := by
    unfold State.regRead
    rw [hal, hb, hm]
    rfl
  unfold State.regWrite
  rw [← Option.not_isSome, hs, hr, hb, hm]
  rfl

theorem regWrite_port (s : State) (k : Slot) {r : Nat} (v : Nat) (hr : r < 8) :
    s.regWrite k (0x601020 + 0x40 * r) v = s.withBaton k (s.portCtrl r v) := by
  have hp : inArray (0x1020 + 0x40 * r) 0x1000 0x40 8 = some (r, 0x20) := inArray_mem (by omega) hr (by omega)
  have h1 : inArray (0x1020 + 0x40 * r) 0x100 8 32 = none := inArray_outside (by omega)
  have h2 : inArray (0x1020 + 0x40 * r) 0x200 8 4 = none := inArray_outside (by omega)
  have hread : (s.readFab (0x1020 + 0x40 * r)).isSome = true := by
    unfold State.readFab
    rw [h1, h2, hp]
    dsimp only
    split
    on_goal 7 => rfl
    all_goals omega
  rw [regWrite_fab s k (by omega) (by omega) (by omega) hread]
  unfold State.writeFab
  rw [h1, h2, hp]
  split
  · omega
  · omega
  · rfl

theorem regWrite_reach (s : State) (k : Slot) {i : Nat} (v : Nat) (hi : i < 32) :
    s.regWrite k (0x600100 + 8 * i) v = s.withBaton k (.ok (s.setReach i v)) := by
  have h1 : inArray (0x100 + 8 * i) 0x100 8 32 = some (i, 0) := inArray_mem (by omega) hi (by omega)
  have hread : (s.readFab (0x100 + 8 * i)).isSome = true := by
    unfold State.readFab
    rw [h1]
    dsimp only
    split
    on_goal 7 => rfl
    all_goals omega
  rw [regWrite_fab s k (by omega) (by omega) (by omega) hread]
  unfold State.writeFab
  rw [h1]
  split
  · omega
  · omega
  · rfl

/-! ### The rows -/

/-- What a row of the register writes does: with the baton it replies with status `st` and brings about `P`, without it it is
refused and changes nothing. -/
def Does (s : State) (p : Pkt) (k : Slot) (x : Instr) (st : BitVec 16) (P : State → Prop) : Prop :=
  ∃ t, exec x s = .next t ∧
    if s.hasLease k then Replied s t p st 0 [] ∧ P t else Replied s t p 0x0203 0 [] ∧ OnlyAnswered s t

/-- The row is the REG_WRITE of packet `p` to an offset that the row names. -/
def IsRow (s : State) (p : Pkt) (x : Instr) (o v : Nat) : Prop :=
  ∃ f : Nat → Nat → Bool, exec x s = .next (s.onWrite p f) ∧ f o v = true

section
variable {x : Instr} {o v : Nat}

theorem exec_row (hw : s.writes p k o v = true) (hx : IsRow s p x o v) : exec x s =
    .next (writeAnswer (s.took p k) p ((s.took p k).regWrite k o v)) := by
  obtain ⟨f, hx, hf⟩ := hx
  have h := hw
  simp only [State.writes, Bool.and_eq_true, Bool.not_eq_true', beq_iff_eq] at h
  obtain ⟨⟨⟨⟨⟨⟨-, hop⟩, -⟩, hn⟩, -⟩, ho⟩, hv⟩ := h
  have hon : s.onWrite p f = s.receive 0x21 p State.doRegWrite := if_pos (by
    rw [hop, soleWrite, hn, ho, hv]
    exact hf)
  rw [hx, hon, receive_writes hw]

theorem took_hasLease (s : State) (p : Pkt) (k : Slot) : (s.took p k).hasLease k = s.hasLease k := by
  rw [State.took, (accept_cmd _ k k _).2.2, (heard_cmd _ k k _).2.2]
  rfl

theorem replied_after {u : State} {st : BitVec 16} (h : ∃ l, u.out = l ++ s.out) (hst : authStatus st = false) :
    Replied s (u.reply p st) p st 0 [] := by
  obtain ⟨l, hl⟩ := h
  obtain ⟨tr, m, hm, ho⟩ := replied_reply u p st 0 [] hst
  rw [ite_self] at ho
  exact ⟨tr, m ++ l, by rw [hm, hl, List.append_assoc], List.mem_append_left l ho⟩

/-- A row that is refused. -/
theorem refused_row {e : BitVec 16} (he : authStatus e = false) :
    Replied s ((s.took p k).reply p e) p e 0 [] ∧ OnlyAnswered s ((s.took p k).reply p e) :=
  ⟨replied_after (acks_took s p k).out he, ((acks_took s p k).trans (acks_reply _ p 0 [] he)).onlyAnswered⟩

/-- A row whose write the baton's holder may make: `f` is what it does to the package. -/
theorem does_made {f : State → State} {P : State → Prop} (hw : s.writes p k o v = true) (hx : IsRow s p x o v)
    (hr : ∀ u : State, u.regWrite k o v = u.withBaton k (.ok (f u))) (hf : ∀ u, ∃ l, (f u).out = l ++ u.out)
    (hP : ∀ u t, Acks s u → Acks (f u) t → P t) : Does s p k x 0 P := by
  have ht := acks_took s p k
  have hs : ∃ l, (f (s.took p k)).out = l ++ s.out := by
    obtain ⟨l, hl⟩ := hf (s.took p k)
    obtain ⟨m, hm⟩ := ht.out
    exact ⟨l ++ m, by rw [hl, hm, List.append_assoc]⟩
  refine ⟨_, exec_row hw hx, ?_⟩
  rw [hr, State.withBaton, took_hasLease]
  cases s.hasLease k with
  | true => exact ⟨replied_after hs rfl, hP _ _ ht (acks_reply _ p 0 [] rfl)⟩
  | false => exact refused_row rfl

/-- A row whose write is refused to the baton's holder too. -/
theorem does_error {e : BitVec 16} (hw : s.writes p k o v = true) (hx : IsRow s p x o v)
    (hr : ∀ u : State, u.regWrite k o v = u.withBaton k (.error e)) (he : authStatus e = false) :
    Does s p k x e fun t => OnlyAnswered s t := by
  refine ⟨_, exec_row hw hx, ?_⟩
  rw [hr, State.withBaton, took_hasLease]
  cases s.hasLease k with
  | true => exact refused_row he
  | false => exact refused_row rfl

end

end Sys2Proof.Laws
end

section
/-!
SUPPORT. What failures, teardowns and removals leave unchanged (R198, R372, R463).
-/

namespace Sys2Proof.Laws

open Sys2Proof Sys2Proof.Machine

variable {r s t : State}

/-! ### What tearing contexts down leaves of stations and stacks (R372) -/

/-- A station's marks that a teardown leaves. -/
def stnMarks (a : Stn) : Bool × Bool × Nat := (a.failed, a.markFailed, a.island.minWindow)

/-- What a teardown leaves of a stack: the channels in use and the last one removed. -/
def stkLive (a : Stk) : BitVec 5 × BitVec 64 := (a.channel, a.live)

/-- From `s` to `t` stations keep their marks and stacks their channels, and what was sent stands. -/
structure UnitsStand (s t : State) : Prop where
  out : ∃ l, t.out = l ++ s.out
  stn : ∀ j, stnMarks (t.stn j) = stnMarks (s.stn j)
  stk : ∀ n, stkLive (t.stk n) = stkLive (s.stk n)

theorem UnitsStand.refl (s : State) : UnitsStand s s := ⟨⟨[], rfl⟩, fun _ => rfl, fun _ => rfl⟩

theorem UnitsStand.trans (h : UnitsStand r s) (h' : UnitsStand s t) : UnitsStand r t := by
  obtain ⟨⟨l, hl⟩, hs, hk⟩ := h
  obtain ⟨⟨m, hm⟩, hs', hk'⟩ := h'
  exact ⟨⟨m ++ l, by rw [hm, hl, List.append_assoc]⟩, fun j => (hs' j).trans (hs j), fun n => (hk' n).trans (hk n)⟩

/-- A change of neither stations, stacks nor what was sent. -/
theorem UnitsStand.frame (h : UnitsStand r s) (hs : t.stns = s.stns := by rfl) (hk : t.stks = s.stks := by rfl)
    (ho : t.out = s.out := by rfl) : UnitsStand r t :=
  h.trans ⟨⟨[], ho⟩, fun j => by rw [State.stn, hs]; rfl, fun n => by rw [State.stk, hk]; rfl⟩

theorem UnitsStand.ite {c : Prop} {d : Decidable c} {a b : State} (ha : UnitsStand r a) (hb : UnitsStand r b) :
    UnitsStand r (if c then a else b) := by
  split
  · exact ha
  · exact hb

theorem UnitsStand.foldl {α : Type} {l : List α} {f : State → α → State} (h : UnitsStand r s)
    (hf : ∀ s x, UnitsStand r s → UnitsStand r (f s x)) : UnitsStand r (l.foldl f s) :=
  List.foldlRecOn (motive := fun u => UnitsStand r u) l f h fun u hu x _ => hf u x hu

theorem UnitsStand.foldNat {l : List Nat} {f : State → Nat → State} (h : UnitsStand r s)
    (hf : ∀ s n, UnitsStand r s → UnitsStand r (f s n)) : UnitsStand r (s.foldNat l f) := h.foldl hf

theorem UnitsStand.modStn {i : Nat} {f : Stn → Stn} (h : UnitsStand r s) (hf : ∀ a, stnMarks (f a) = stnMarks a := by intro; rfl) :
    UnitsStand r (s.modStn i f) := by
  refine h.trans ⟨⟨[], rfl⟩, fun j => ?_, fun _ => rfl⟩
  rw [modStn_stn]
  split
  · rename_i hj
    rw [hj, hf]
  · rfl

theorem UnitsStand.modStk {n : Nat} {f : Stk → Stk} (h : UnitsStand r s) (hf : ∀ a, stkLive (f a) = stkLive a := by intro; rfl) :
    UnitsStand r (s.modStk n f) := by
  refine h.trans ⟨⟨[], rfl⟩, fun _ => rfl, fun j => ?_⟩
  rw [modStk_stk]
  split
  · rename_i hj
    rw [hj, hf]
  · rfl

theorem UnitsStand.modCtx {c : Nat} {f : Ctx → Ctx} (h : UnitsStand r s) : UnitsStand r (s.modCtx c f) := h.frame

theorem UnitsStand.dropPages {p b n : Nat} (h : UnitsStand r s) : UnitsStand r (s.dropPages p b n) := h.frame

theorem UnitsStand.charge {p pj f : Nat} {c : Option Nat} (h : UnitsStand r s) : UnitsStand r (s.charge p c pj f) := by
  obtain ⟨_, _, e⟩ := charge_spec s p c pj f
  rw [e]
  exact h.frame

theorem UnitsStand.storeTraffic {c cls a n : Nat} (h : UnitsStand r s) : UnitsStand r (s.storeTraffic c cls a n) :=
  h.foldNat fun _ _ h => by
    dsimp only
    split
    · exact h
    · exact h.modStn.charge

theorem UnitsStand.unrefOnly {i : Nat} (h : UnitsStand r s) : UnitsStand r (s.unrefOnly i) := by
  unfold State.unrefOnly
  split
  · exact h
  · exact h.frame

theorem UnitsStand.removeEntry {i : Nat} (h : UnitsStand r s) : UnitsStand r (s.removeEntry i) := by
  unfold State.removeEntry
  split
  · exact h
  · dsimp only
    split
    · exact UnitsStand.unrefOnly h.frame
    · exact h.frame

theorem UnitsStand.sweepPoison {n i : Nat} (h : UnitsStand r s) : UnitsStand r (State.sweepPoison n i s) := by
  induction n generalizing i s with
  | zero => exact h
  | succ n ih =>
    unfold State.sweepPoison
    split
    · exact h
    · refine UnitsStand.ite ?_ h
      split
      · exact ih h.removeEntry
      · exact h.removeEntry

theorem UnitsStand.dropRef {i : Nat} (h : UnitsStand r s) : UnitsStand r (s.dropRef i) := h.unrefOnly.sweepPoison

theorem UnitsStand.releaseBlock {c q b : Nat} {v : KvConf} (h : UnitsStand r s) : UnitsStand r (s.releaseBlock c q b v) :=
  .ite h (UnitsStand.storeTraffic (UnitsStand.modCtx (.ite h.dropRef h.modCtx.dropPages)))

theorem UnitsStand.releaseSeq {c q : Nat} {v : KvConf} (h : UnitsStand r s) : UnitsStand r (s.releaseSeq c q v) :=
  (h.foldNat fun _ _ h => h.releaseBlock).modCtx.storeTraffic

theorem UnitsStand.releaseAll {c : Nat} (h : UnitsStand r s) : UnitsStand r (s.releaseAll c) := by
  unfold State.releaseAll
  dsimp only
  split
  · exact h.frame
  · exact UnitsStand.frame (h.foldNat fun _ _ h => h.releaseSeq)

theorem stnMarks_clear (a : Stn) : stnMarks a.clear = stnMarks a := by
  unfold Stn.clear Stn.noteHeld
  split
  · rfl
  · rfl

theorem UnitsStand.leaveStations {c : Nat} (h : UnitsStand r s) : UnitsStand r (s.leaveStations c) :=
  .ite (UnitsStand.frame (h.foldNat fun _ _ h => h.modStn stnMarks_clear)) h

theorem UnitsStand.abandonUnits {c : Nat} (h : UnitsStand r s) : UnitsStand r (s.abandonUnits c) := h.foldNat fun _ _ h => h.frame

theorem UnitsStand.beginTeardown {c bundle : Nat} {reason detail : BitVec 8} {station : BitVec 16} (h : UnitsStand r s) :
    UnitsStand r (s.beginTeardown c reason detail station bundle) :=
  .ite h (.ite h.frame (UnitsStand.frame h.leaveStations.abandonUnits.releaseAll))

theorem UnitsStand.postEvent {o x : BitVec 16} {b : Bytes} (h : UnitsStand r s) : UnitsStand r (s.postEvent o x b) :=
  h.trans ⟨(talks_postEvent s b o x).out, fun j => by rw [State.stn, postEvent_stns]; rfl,
    fun n => by rw [State.stk, postEvent_stks]; rfl⟩

theorem UnitsStand.logFault {e : FaultEntry} (h : UnitsStand r s) : UnitsStand r (s.logFault e) :=
  .ite h.frame (UnitsStand.postEvent h.frame)

theorem UnitsStand.hbEvent {n i : Nat} (h : UnitsStand r s) : UnitsStand r (s.hbEvent n i) := h.modStk

theorem UnitsStand.poisonSealed {p spn : Nat} (h : UnitsStand r s) : UnitsStand r (s.poisonSealed p spn) := by
  unfold State.poisonSealed State.poisonPage
  dsimp only
  split
  · exact h.frame
  · exact UnitsStand.sweepPoison h.frame

theorem UnitsStand.poisonImage {p id : Nat} {gs : List Nat} (h : UnitsStand r s) : UnitsStand r (s.poisonImage p id gs) :=
  UnitsStand.foldNat h.frame fun _ _ h => h.beginTeardown

theorem UnitsStand.loseTransit {st : Nat} (h : UnitsStand r s) : UnitsStand r (s.loseTransit st) :=
  UnitsStand.foldl h.frame fun _ _ h => by
    split
    · exact h
    · exact .ite h.poisonImage h

end Sys2Proof.Laws
end

section
/-!
SUPPORT. What STN_CTRL does to stations (R63, R463, R467) and HB_CTRL to stacks (R198).
-/

namespace Sys2Proof.Laws

open Sys2Proof Sys2Proof.Machine

variable {r s t : State}

/-! ### STN_CTRL (R63, R463, R467) -/

/-- The station alone that fails. -/
def failMarked (s : State) (i : Nat) (bits : BitVec 7) : State :=
  s.modStn i fun t => { t.faults s.now bits with failed := true, state := 4 }

theorem failStation_dark (s : State) {i : Nat} (bits : BitVec 7) (hd : s.bring.diesOn = false) : s.failStation i bits = s :=
  if_pos (by rw [hd, Bool.not_false, Bool.or_true])

/-- What a failure brings about beside the station's own marks. -/
theorem unitsStand_failStation (s : State) {i : Nat} (bits : BitVec 7) (hi : i < 1024) (hd : s.bring.diesOn = true)
    (hf : (s.stn i).failed = false) : UnitsStand (failMarked s i bits) (s.failStation i bits) := by
  unfold State.failStation
  rw [hf, hd, if_neg (by simp; omega), if_neg Bool.false_ne_true]
  exact UnitsStand.foldNat (UnitsStand.loseTransit (UnitsStand.logFault (.refl _))) fun _ _ h => h.beginTeardown

/-- A station that fails. -/
theorem failStation_spec (s : State) {i : Nat} (bits : BitVec 7) (hi : i < 1024) (hf : (s.stn i).failed = false) :
    (∃ l, (s.failStation i bits).out = l ++ s.out) ∧
    stnMarks ((s.failStation i bits).stn i) = (s.bring.diesOn, (s.stn i).markFailed, (s.stn i).island.minWindow) ∧
    ∀ j, j ≠ i → stnMarks ((s.failStation i bits).stn j) = stnMarks (s.stn j) := by
  cases hd : s.bring.diesOn with
  | false =>
    rw [failStation_dark s bits hd, stnMarks, hf]
    exact ⟨⟨[], rfl⟩, rfl, fun _ _ => rfl⟩
  | true =>
    have h := unitsStand_failStation s bits hi hd hf
    refine ⟨h.out, (h.stn i).trans ?_, fun j hj => (h.stn j).trans ?_⟩
    · rw [failMarked, modStn_stn_same]
      rfl
    · rw [failMarked, modStn_stn_ne s _ hj]

/-- CLR_MIN of STN_CTRL. -/
def clrMin (s : State) (i v : Nat) : State :=
  if bitOf v 1 then s.modStn i fun t => { t with island := { t.island with minWindow := 0xFFFF } } else s

/-- MARK_FAILED of STN_CTRL. -/
def markFail (s : State) (i v : Nat) : State :=
  if bitOf v 0 && !(s.stn i).failed then (s.modStn i fun t => { t with markFailed := true }).failStation i 0 else s

theorem stnCtrl_eq (s : State) (i v : Nat) : s.stnCtrl i v = markFail (clrMin s i v) i v := rfl

theorem clrMin_spec (s : State) (i v : Nat) :
    ((clrMin s i v).out = s.out ∧ (clrMin s i v).bring = s.bring) ∧
    (bitOf v 1 = true → ((clrMin s i v).stn i).island.minWindow = 0xFFFF) ∧
    ∀ j, ((clrMin s i v).stn j).failed = (s.stn j).failed ∧ ((clrMin s i v).stn j).markFailed = (s.stn j).markFailed := by
  unfold clrMin
  split
  · refine ⟨⟨rfl, rfl⟩, fun _ => by rw [modStn_stn_same], fun j => ?_⟩
    rw [modStn_stn]
    split
    · rename_i hj
      rw [hj]
      exact ⟨rfl, rfl⟩
    · exact ⟨rfl, rfl⟩
  · rename_i hv
    exact ⟨⟨rfl, rfl⟩, fun h => absurd h hv, fun _ => ⟨rfl, rfl⟩⟩

theorem markFail_spec (s : State) {i : Nat} (v : Nat) (hi : i < 1024) :
    (∃ l, (markFail s i v).out = l ++ s.out) ∧
    ((markFail s i v).stn i).island.minWindow = (s.stn i).island.minWindow ∧
    (bitOf v 0 = true → (s.stn i).failed = false → ((markFail s i v).stn i).markFailed = true ∧
      (s.bring.diesOn = true → ((markFail s i v).stn i).failed = true)) ∧
    (bitOf v 0 = true → (s.stn i).failed = true → (markFail s i v).stn i = s.stn i) ∧
    ∀ j, j ≠ i → ((markFail s i v).stn j).failed = (s.stn j).failed := by
  unfold markFail
  cases hv : bitOf v 0 with
  | false => exact ⟨⟨[], rfl⟩, rfl, nofun, nofun, fun _ _ => rfl⟩
  | true =>
    cases hf : (s.stn i).failed with
    | true => exact ⟨⟨[], rfl⟩, rfl, nofun, fun _ _ => rfl, fun _ _ => rfl⟩
    | false =>
      have hf' : ((s.modStn i fun t => { t with markFailed := true }).stn i).failed = false := by
        rw [modStn_stn_same]
        exact hf
      obtain ⟨hout, hmarks, hother⟩ := failStation_spec (s.modStn i fun t => { t with markFailed := true }) 0 hi hf'
      rw [modStn_stn_same] at hmarks
      simp only [stnMarks, Prod.mk.injEq] at hmarks hother
      obtain ⟨hfail, hmark, hmin⟩ := hmarks
      refine ⟨hout, hmin, fun _ _ => ⟨hmark, fun hd => hfail.trans hd⟩, nofun, fun j hj => ?_⟩
      rw [← modStn_stn_ne s (fun t => { t with markFailed := true }) hj]
      exact (hother j hj).1

theorem stnCtrl_spec (s : State) {i : Nat} (v : Nat) (hi : i < 1024) :
    (∃ l, (s.stnCtrl i v).out = l ++ s.out) ∧
    (bitOf v 1 = true → ((s.stnCtrl i v).stn i).island.minWindow = 0xFFFF) ∧
    (bitOf v 0 = true → (s.stn i).failed = false → ((s.stnCtrl i v).stn i).markFailed = true ∧
      (s.bring.diesOn = true → ((s.stnCtrl i v).stn i).failed = true)) ∧
    (bitOf v 0 = true → (s.stn i).failed = true → ((s.stnCtrl i v).stn i).markFailed = (s.stn i).markFailed ∧
      ((s.stnCtrl i v).stn i).failed = true) ∧
    ∀ j, j ≠ i → ((s.stnCtrl i v).stn j).failed = (s.stn j).failed := by
  obtain ⟨⟨ho, hb⟩, hmin, hc⟩ := clrMin_spec s i v
  obtain ⟨ho', hmin', hm, hr, hn⟩ := markFail_spec (clrMin s i v) v hi
  rw [ho] at ho'
  rw [hb, (hc i).1] at hm
  rw [(hc i).1] at hr
  rw [stnCtrl_eq]
  refine ⟨ho', fun h => hmin'.trans (hmin h), hm, fun hv hf => ?_, fun j hj => (hn j hj).trans (hc j).1⟩
  rw [hr hv hf, (hc i).1, (hc i).2]
  exact ⟨rfl, hf⟩

/-! ### HB_CTRL (R198) -/

theorem putBit_false {w : Nat} (b : BitVec w) (i : Nat) {j : Nat} (hj : j < w) :
    (putBit b i false).getLsbD j = (b.getLsbD j && j != i) := by
  have hij : decide (i = j) = (j == i) := by
    rw [Bool.beq_eq_decide_eq, decide_eq_decide]
    exact eq_comm
  simp only [putBit, Bool.false_eq_true, if_false, BitVec.getLsbD_and, BitVec.getLsbD_not, BitVec.getLsbD_ofNat, hj, decide_true,
    Bool.true_and, Nat.testBit_two_pow, hij, bne]

/-- A channel of stack `n` leaves live. -/
def dropChannel (s : State) (n ch : Nat) : State :=
  s.modStk n fun k =>
    let live := putBit (putBit k.live (2 * ch) false) (2 * ch + 1) false
    { k with live := live, removed := putBit (putBit k.removed (2 * ch) true) (2 * ch + 1) true
             state := if live == 0 then 4 else k.state }

/-- A removal tears contexts down and poisons pages, drops the channel, and is logged. -/
theorem removeChannel_parts (s : State) (n ch : Nat) (h : ((s.stk n).live.getLsbD (2 * ch) || (s.stk n).live.getLsbD (2 * ch + 1)) = true) :
    ∃ u, UnitsStand s u ∧ UnitsStand (dropChannel u n ch) (s.removeChannel n ch) := by
  unfold State.removeChannel
  dsimp only
  rw [h, if_neg (by decide)]
  refine ⟨_, ?_, UnitsStand.logFault (UnitsStand.hbEvent (UnitsStand.foldNat (.refl _) fun _ _ h => h.modCtx))⟩
  exact UnitsStand.frame (UnitsStand.foldl (UnitsStand.foldNat (.refl s) fun _ _ h => h.beginTeardown) fun _ _ h => h.poisonSealed)

theorem dropChannel_stk (s : State) (n ch : Nat) :
    ((dropChannel s n ch).stk n).channel = (s.stk n).channel ∧
    (∀ b < 64, ((dropChannel s n ch).stk n).live.getLsbD b = ((s.stk n).live.getLsbD b && b / 2 != ch)) ∧
    ∀ m, m ≠ n → (dropChannel s n ch).stk m = s.stk m := by
  unfold dropChannel
  rw [modStk_stk_same]
  refine ⟨rfl, fun b hb => ?_, fun m hm => modStk_stk_ne s _ hm⟩
  dsimp only
  rw [putBit_false _ _ hb, putBit_false _ _ hb, Bool.and_assoc]
  congr 1
  rw [Bool.eq_iff_iff]
  simp only [Bool.and_eq_true, bne_iff_ne]
  omega

theorem hbCtrl_spec (s : State) (n : Nat) {v : Nat} (hv : bitOf v 8 = true) :
    (∃ l, (s.hbCtrl n v).out = l ++ s.out) ∧
    ((s.hbCtrl n v).stk n).channel = (if (s.stk n).live.getLsbD (2 * (v % 32)) || (s.stk n).live.getLsbD (2 * (v % 32) + 1)
      then BitVec.ofNat 5 v else (s.stk n).channel) ∧
    (∀ b < 64, ((s.hbCtrl n v).stk n).live.getLsbD b = ((s.stk n).live.getLsbD b && b / 2 != v % 32)) ∧
    ∀ m, m ≠ n → ((s.hbCtrl n v).stk m).live = (s.stk m).live := by
  have hch : bitsOf v 0 5 = v % 32 := by rw [bitsOf, Nat.pow_zero, Nat.div_one]; rfl
  unfold State.hbCtrl
  dsimp only
  rw [hch, hv, if_pos rfl]
  cases hl : (s.stk n).live.getLsbD (2 * (v % 32)) || (s.stk n).live.getLsbD (2 * (v % 32) + 1) with
  | false =>
    refine ⟨⟨[], rfl⟩, rfl, fun b _ => ?_, fun _ _ => rfl⟩
    rw [Bool.or_eq_false_iff] at hl
    by_cases hb : b / 2 = v % 32
    · obtain rfl | rfl : b = 2 * (v % 32) ∨ b = 2 * (v % 32) + 1 := by omega
      · simp [hl.1]
      · simp [hl.2]
    · simp [hb]
  | true =>
    have hl' : (((s.modStk n fun k => { k with channel := BitVec.ofNat 5 v }).stk n).live.getLsbD (2 * (v % 32)) ||
        ((s.modStk n fun k => { k with channel := BitVec.ofNat 5 v }).stk n).live.getLsbD (2 * (v % 32) + 1)) = true := by
      rw [modStk_stk_same]
      exact hl
    obtain ⟨u, ⟨⟨l, hu⟩, -, hstk⟩, ⟨⟨m, hd⟩, -, hstk'⟩⟩ := removeChannel_parts _ n (v % 32) hl'
    obtain ⟨hc, hlive, hne⟩ := dropChannel_stk u n (v % 32)
    have hn := hstk n
    have hn' := hstk' n
    rw [modStk_stk_same] at hn
    simp only [stkLive, Prod.mk.injEq] at hn hn' hstk hstk'
    rw [if_neg (by decide)]
    refine ⟨⟨m ++ l, ?_⟩, hn'.1.trans (hc.trans hn.1), fun b hb => ?_, fun j hj => ?_⟩
    · rw [hd, List.append_assoc]
      exact congrArg (m ++ ·) hu
    · rw [hn'.2, hlive b hb, hn.2]
    · rw [(hstk' j).2, hne j hj, (hstk j).2, modStk_stk_ne s _ hj]

end Sys2Proof.Laws
end

section
/-!
SUPPORT. What FB_PORT_CTRL does to its port (R317, R475, R476), and FB_REACH to the rails (R303).
-/

namespace Sys2Proof.Laws

open Sys2Proof Sys2Proof.Machine

variable {u s t : State} {r : Nat}

/-! ### One port changes -/

/-- From `s` to `t` port `r` alone changes, of all ports, contexts and stations; what was sent stands. -/
structure OnlyPort (r : Nat) (s t : State) : Prop where
  out : ∃ l, t.out = l ++ s.out
  port : ∀ q, q ≠ r → t.port q = s.port q
  ctxs : t.ctxs = s.ctxs
  stns : t.stns = s.stns
  now : t.now = s.now

theorem OnlyPort.refl (r : Nat) (s : State) : OnlyPort r s s := ⟨⟨[], rfl⟩, fun _ _ => rfl, rfl, rfl, rfl⟩

theorem OnlyPort.trans (h : OnlyPort r u s) (h' : OnlyPort r s t) : OnlyPort r u t := by
  obtain ⟨⟨l, hl⟩, hp, hc, hs, hn⟩ := h
  obtain ⟨⟨m, hm⟩, hp', hc', hs', hn'⟩ := h'
  exact ⟨⟨m ++ l, by rw [hm, hl, List.append_assoc]⟩, fun q hq => (hp' q hq).trans (hp q hq), hc'.trans hc, hs'.trans hs,
    hn'.trans hn⟩

theorem onlyPort_modPort (s : State) (r : Nat) (f : FabPort → FabPort) : OnlyPort r s (s.modPort r f) :=
  ⟨⟨[], rfl⟩, fun _ hq => modPort_port_ne s f hq, rfl, rfl, rfl⟩

theorem onlyPort_portDrained (s : State) (r : Nat) : OnlyPort r s (s.portDrained r) where
  out := (talks_portDrained s r).out
  port q hq := by rw [portDrained_port, if_neg hq]
  ctxs := by
    obtain ⟨_, _, _, _, _, h⟩ := drains_portDrained s r
    rw [h]
  stns := by
    obtain ⟨_, _, _, _, _, h⟩ := drains_portDrained s r
    rw [h]
  now := (drains_portDrained s r).now

/-- Only the drovers' units hold back when a rail leaves live (R305). -/
theorem railLeaves_spec (s : State) (r : Nat) (f : Nat → Bool) :
    ∃ d, s.railLeaves r f = { s with fab := { s.fab with drovers := d } } := by
  refine List.foldlRecOn (motive := fun (t : State) => ∃ d, t = { s with fab := { s.fab with drovers := d } }) _ _ ⟨s.fab.drovers, rfl⟩ ?_
  rintro _ ⟨d, rfl⟩ n _
  exact ⟨_, rfl⟩

theorem onlyPort_railLeaves (s : State) (q : Nat) (f : Nat → Bool) : OnlyPort r s (s.railLeaves q f) := by
  obtain ⟨_, h⟩ := railLeaves_spec s q f
  rw [h]
  exact ⟨⟨[], rfl⟩, fun _ _ => rfl, rfl, rfl, rfl⟩

theorem railLeaves_port (s : State) (r j : Nat) (f : Nat → Bool) : (s.railLeaves r f).port j = s.port j := by
  obtain ⟨_, h⟩ := railLeaves_spec s r f
  rw [h]
  rfl

/-- The flits by which port `r` advertises the buffers of `l`, a number for each class (R290). -/
def sendCredits (r : Nat) (l : List (Nat × Nat)) (s : State) : State :=
  l.foldl (fun s (n, c) => s.foldNat (List.range (ceilDiv n 255)) fun s i =>
    s.emit (.flit r ((s.port r).control c (min 255 (n - 255 * i))))) s

theorem toCredits_eq (s : State) (r : Nat) : s.toCredits r = sendCredits r rxBuffers.zipIdx
    (s.modPort r fun p => { p with step := 5, stepSince := s.now, advertised := rxBuffers }) := rfl

/-- The flits leave the port as it is. -/
theorem sendCredits_spec (r : Nat) (l : List (Nat × Nat)) (s : State) :
    OnlyPort r s (sendCredits r l s) ∧ (sendCredits r l s).port r = s.port r := by
  have hemit (u : State) (o : Out) (h : OnlyPort r s u ∧ u.port r = s.port r) : OnlyPort r s (u.emit o) ∧ (u.emit o).port r = s.port r :=
    ⟨h.1.trans ⟨⟨[o], rfl⟩, fun _ _ => rfl, rfl, rfl, rfl⟩, h.2⟩
  refine List.foldlRecOn (motive := fun u => OnlyPort r s u ∧ u.port r = s.port r) l _ ⟨.refl r s, rfl⟩ fun u hu x _ => ?_
  exact List.foldlRecOn (motive := fun u => OnlyPort r s u ∧ u.port r = s.port r) _ _ hu fun w hw i _ => hemit w _ hw

theorem toCredits_spec (s : State) (r : Nat) : OnlyPort r s (s.toCredits r) ∧
    (s.toCredits r).port r = { s.port r with step := 5, stepSince := s.now, advertised := rxBuffers } := by
  obtain ⟨ho, hp⟩ := sendCredits_spec r rxBuffers.zipIdx
    (s.modPort r fun p => { p with step := 5, stepSince := s.now, advertised := rxBuffers })
  rw [toCredits_eq]
  refine ⟨(onlyPort_modPort s r _).trans ho, hp.trans ?_⟩
  rw [modPort_port_same]

/-! ### FB_PORT_CTRL's three bits -/

/-- What DISABLE makes of a port. -/
def disabledPort (now : Nat) (on : Bool) (p : FabPort) : FabPort :=
  if p.disable == on then p
  else if p.draining.isSome then { p with disable := on }
  else if on then
    if p.unacked.isEmpty then drainedPort now { p with disable := true } else { p with disable := true, draining := some now }
  else FabPort.train { p with disable := false } now

theorem portDisable_spec (s : State) (r : Nat) (on : Bool) : OnlyPort r s (s.portDisable r on) ∧
    (s.portDisable r on).port r = disabledPort s.now on (s.port r) := by
  unfold State.portDisable disabledPort
  dsimp only
  split
  · exact ⟨.refl r s, rfl⟩
  · split
    · exact ⟨onlyPort_modPort s r _, modPort_port_same s r _⟩
    · have hm := (onlyPort_railLeaves (r := r) s r fun _ => true).trans
        (onlyPort_modPort (s.railLeaves r fun _ => true) r fun p => { p with disable := on })
      cases on with
      | true =>
        simp only [if_true]
        split
        · refine ⟨hm.trans (onlyPort_portDrained _ r), ?_⟩
          rw [portDrained_port, if_pos rfl, hm.now, modPort_port_same, railLeaves_port]
        · refine ⟨hm.trans (onlyPort_modPort _ r _), ?_⟩
          rw [modPort_port_same, hm.now, modPort_port_same, railLeaves_port]
      | false =>
        refine ⟨(onlyPort_modPort s r _).trans (onlyPort_modPort _ r _), ?_⟩
        simp only [Bool.false_eq_true, if_false, modPort_port_same]

/-- What FORCE_UP makes of a port. -/
def forcedPort (now : Nat) (on : Bool) (p : FabPort) : FabPort :=
  if on && !p.forceUp && p.state == 4 && !p.disable
  then { p with forceUp := on, step := 5, stepSince := now, advertised := rxBuffers } else { p with forceUp := on }

theorem portForce_spec (s : State) (r : Nat) (on : Bool) : OnlyPort r s (s.portForce r on) ∧
    (s.portForce r on).port r = forcedPort s.now on (s.port r) := by
  unfold State.portForce forcedPort
  dsimp only
  split
  · obtain ⟨ho, hp⟩ := toCredits_spec (s.modPort r fun p => { p with forceUp := on }) r
    refine ⟨(onlyPort_modPort s r _).trans ho, hp.trans ?_⟩
    rw [modPort_port_same]
    rfl
  · exact ⟨onlyPort_modPort s r _, modPort_port_same s r _⟩

/-- What RETRAIN makes of a port. -/
def retrainedPort (now : Nat) (p : FabPort) : FabPort :=
  if p.disable || p.draining.isSome then { p with failed := 0 } else { p.train now with failed := 0 }

theorem portRetrain_spec (s : State) (r : Nat) : OnlyPort r s (s.portRetrain r) ∧
    (s.portRetrain r).port r = retrainedPort s.now (s.port r) := by
  unfold State.portRetrain retrainedPort
  split
  · exact ⟨onlyPort_modPort s r _, modPort_port_same s r _⟩
  · refine ⟨(onlyPort_railLeaves s r _).trans (onlyPort_modPort _ r _), ?_⟩
    rw [modPort_port_same, railLeaves_port]

/-- The state after a write of FB_PORT_CTRL that is not refused. -/
def portSet (s : State) (r v : Nat) : State :=
  if bitOf v 2 then ((s.portDisable r (bitOf v 0)).portForce r (bitOf v 1)).portRetrain r
  else (s.portDisable r (bitOf v 0)).portForce r (bitOf v 1)

theorem portCtrl_both (s : State) (r : Nat) {v : Nat} (h0 : bitOf v 0 = true) (h1 : bitOf v 1 = true) :
    s.portCtrl r v = .error 0x0105 := if_pos (by rw [h0, h1]; rfl)

theorem portCtrl_ok (s : State) (r : Nat) {v : Nat} (h : (bitOf v 0 && bitOf v 1) = false) :
    s.portCtrl r v = .ok (portSet s r v) := if_neg (by rw [h]; decide)

/-- What a write of FB_PORT_CTRL makes of its port. -/
def setPort (now v : Nat) (p : FabPort) : FabPort :=
  if bitOf v 2 then retrainedPort now (forcedPort now (bitOf v 1) (disabledPort now (bitOf v 0) p))
  else forcedPort now (bitOf v 1) (disabledPort now (bitOf v 0) p)

theorem portSet_spec (s : State) (r v : Nat) : OnlyPort r s (portSet s r v) ∧ (portSet s r v).port r = setPort s.now v (s.port r) := by
  obtain ⟨hd, hdp⟩ := portDisable_spec s r (bitOf v 0)
  obtain ⟨hf, hfp⟩ := portForce_spec (s.portDisable r (bitOf v 0)) r (bitOf v 1)
  obtain ⟨ht, htp⟩ := portRetrain_spec ((s.portDisable r (bitOf v 0)).portForce r (bitOf v 1)) r
  rw [hd.now, hdp] at hfp
  rw [(hd.trans hf).now, hfp] at htp
  unfold portSet setPort
  split
  · exact ⟨(hd.trans hf).trans ht, htp⟩
  · exact ⟨hd.trans hf, hfp⟩

/-! ### A write that disables a port -/

section
variable {now v : Nat} {p : FabPort}

theorem disabledPort_disable (now : Nat) (on : Bool) (p : FabPort) : (disabledPort now on p).disable = on := by
  unfold disabledPort
  split
  · rename_i h
    exact beq_iff_eq.mp h
  · split
    · rfl
    · split
      · rename_i h
        rw [h]
        split
        · rfl
        · rfl
      · rename_i h
        rw [Bool.not_eq_true] at h
        rw [h]
        rfl

/-- A port that drains goes on draining, whether it is disabled or enabled. -/
theorem disabledPort_draining (on : Bool) (h : p.draining ≠ none) :
    (disabledPort now on p).draining = p.draining ∧ (disabledPort now on p).unacked = p.unacked := by
  unfold disabledPort
  rw [Option.isSome_iff_ne_none.mpr h]
  split
  · exact ⟨rfl, rfl⟩
  · exact ⟨rfl, rfl⟩

theorem forcedPort_eq (now : Nat) (on : Bool) (p : FabPort) : ∃ step since adv,
    forcedPort now on p = { p with forceUp := on, step := step, stepSince := since, advertised := adv } := by
  unfold forcedPort
  split
  · exact ⟨_, _, _, rfl⟩
  · exact ⟨p.step, p.stepSince, p.advertised, rfl⟩

/-- A port that a write disables: nothing but the disabled port's failed lanes and FORCE_UP change. -/
theorem setPort_disable (now : Nat) (p : FabPort) (h0 : bitOf v 0 = true) (h1 : bitOf v 1 = false) :
    setPort now v p = { disabledPort now true p with
      forceUp := false, failed := if bitOf v 2 then 0 else (disabledPort now true p).failed } := by
  have hf : forcedPort now false (disabledPort now true p) = { disabledPort now true p with forceUp := false } := rfl
  have hr : retrainedPort now { disabledPort now true p with forceUp := false } =
      { disabledPort now true p with forceUp := false, failed := 0 } :=
    if_pos (by rw [show ({ disabledPort now true p with forceUp := false } : FabPort).disable = true from disabledPort_disable now true p]; rfl)
  unfold setPort
  rw [h0, h1, hf, hr]
  cases bitOf v 2 with
  | true => rfl
  | false => rfl

theorem disabledPort_idle (hd : p.disable = false) (hn : p.draining = none) (hu : p.unacked = []) :
    disabledPort now true p = drainedPort now { p with disable := true } := by
  unfold disabledPort
  rw [hd, hn, hu]
  rfl

theorem disabledPort_busy (hd : p.disable = false) (hn : p.draining = none) (hu : p.unacked ≠ []) :
    disabledPort now true p = { p with disable := true, draining := some now } := by
  unfold disabledPort
  rw [hd, hn, List.isEmpty_eq_false_iff.mpr hu]
  rfl

/-! ### A write that leaves a port enabled -/

theorem disabledPort_enabled (hd : p.disable = false) : disabledPort now false p = p := if_pos (by rw [hd]; rfl)

/-- A port that was at rest trains. -/
theorem disabledPort_rested (hd : p.disable = true) (hn : p.draining = none) :
    disabledPort now false p = FabPort.train { p with disable := false } now := by
  unfold disabledPort
  rw [hd, hn]
  rfl

theorem disabledPort_still (hn : p.draining = none) : (disabledPort now false p).draining = none := by
  cases hd : p.disable with
  | false => rw [disabledPort_enabled hd, hn]
  | true =>
    rw [disabledPort_rested hd hn]
    rfl

theorem retrainedPort_trains (hd : p.disable = false) (hn : p.draining = none) :
    retrainedPort now p = { p.train now with failed := 0 } := if_neg (by rw [hd, hn]; decide)

theorem retrainedPort_drains (hn : p.draining ≠ none) : retrainedPort now p = { p with failed := 0 } :=
  if_pos (by rw [Option.isSome_iff_ne_none.mpr hn, Bool.or_true])

/-- RETRAIN of a port that is enabled. -/
theorem setPort_retrain (now : Nat) (p : FabPort) (h0 : bitOf v 0 = false) (h2 : bitOf v 2 = true) :
    (setPort now v p).disable = false ∧ (setPort now v p).failed = 0 ∧ (setPort now v p).forceUp = bitOf v 1 ∧
    (p.draining = none → (setPort now v p).state = 1 ∧ (setPort now v p).step = 1 ∧ (setPort now v p).stepSince = now) ∧
    (p.draining ≠ none → (setPort now v p).draining = p.draining ∧ (setPort now v p).unacked = p.unacked) := by
  obtain ⟨step, since, adv, hf⟩ := forcedPort_eq now (bitOf v 1) (disabledPort now false p)
  have hdis := disabledPort_disable now false p
  unfold setPort
  rw [h0, h2, hf, if_pos rfl]
  by_cases hn : p.draining = none
  · rw [retrainedPort_trains (by exact hdis) (by exact disabledPort_still hn)]
    exact ⟨hdis, rfl, rfl, fun _ => ⟨rfl, rfl, rfl⟩, fun h => absurd hn h⟩
  · obtain ⟨hdr, hun⟩ := disabledPort_draining (now := now) false hn
    rw [retrainedPort_drains (by exact hdr.trans_ne hn)]
    exact ⟨hdis, rfl, rfl, fun h => absurd h hn, fun _ => ⟨hdr, hun⟩⟩

/-- FORCE_UP of a port that is enabled. -/
theorem setPort_force (now : Nat) (p : FabPort) (h0 : bitOf v 0 = false) (h1 : bitOf v 1 = true) (h2 : bitOf v 2 = false) :
    (setPort now v p).forceUp = true ∧
    (p.disable = false → p.forceUp = false → p.state = 4 → (setPort now v p).step = 5) ∧
    (p.disable = true → p.draining = none → (setPort now v p).step = 1) := by
  have hset : setPort now v p = forcedPort now true (disabledPort now false p) := by
    unfold setPort
    rw [h0, h1, h2]
    rfl
  rw [hset]
  refine ⟨?_, fun hd hfu hst => ?_, fun hd hn => ?_⟩
  · obtain ⟨_, _, _, hf⟩ := forcedPort_eq now true (disabledPort now false p)
    rw [hf]
  · rw [disabledPort_enabled hd]
    unfold forcedPort
    rw [hd, hfu, hst]
    rfl
  · rw [disabledPort_rested hd hn, forcedPort, if_neg (by simp [FabPort.train])]
    rfl

end

/-! ### The report of a port that DISABLE takes down (R317, R337) -/

theorem posted_of {s' t' : State} {o x : BitVec 16} {b : Bytes} (h : Posted s t o x b) (hs : s.cmd = s'.cmd) (hn : s.now = s'.now)
    (ht : t'.cmd = t.cmd) : Posted s' t' o x b := by
  have hse (j : Slot) : s.session j = s'.session j := by cases j <;> simp [State.session, hs]
  have hte (j : Slot) : t'.session j = t.session j := by cases j <;> simp [State.session, ht]
  have hu : s.uptimeUs = s'.uptimeUs := by rw [State.uptimeUs, State.uptimeUs, hn]
  intro j hj
  rw [← hse] at hj
  rw [hte, ← hu]
  exact h j hj

theorem posted_portDrained (s : State) (r : Nat) (h : (s.port r).disable = true) :
    Posted s (s.portDrained r) 0x8008 0xFFFF (toBe 1 r ++ toBe 1 7 ++ toBe 1 0 ++ toBe 1 2 ++ toBe 4 0) := by
  have hp : ((s.modPort r (·.rest s.now)).portEvent r 2).port r = (s.port r).rest s.now := by
    obtain ⟨_, _, _, _, he⟩ := portEvent_spec (s.modPort r (·.rest s.now)) r 2
    rw [he]
    exact modPort_port_same s r _
  have hd : s.portDrained r = (s.modPort r (·.rest s.now)).portEvent r 2 := if_pos (by rw [hp]; exact h)
  rw [hd]
  unfold State.portEvent
  rw [modPort_port_same]
  exact posted_of (posted_postEvent (s.modPort r (·.rest s.now)) _ _ _) rfl rfl rfl

/-- A port with nothing in flight goes down at once, with its report. -/
theorem posted_portDisable (s : State) (r : Nat) (hd : (s.port r).disable = false) (hn : (s.port r).draining = none)
    (hu : (s.port r).unacked = []) :
    Posted s (s.portDisable r true) 0x8008 0xFFFF (toBe 1 r ++ toBe 1 7 ++ toBe 1 0 ++ toBe 1 2 ++ toBe 4 0) := by
  obtain ⟨_, hl⟩ := railLeaves_spec s r fun _ => true
  have he : s.portDisable r true = ((s.railLeaves r fun _ => true).modPort r fun p => { p with disable := true }).portDrained r := by
    unfold State.portDisable
    dsimp only
    rw [hd, hn, hu]
    rfl
  rw [he]
  refine posted_of (posted_portDrained _ r ?_) ?_ ?_ rfl
  · rw [modPort_port_same]
  · rw [modPort_cmd, hl]
  · rw [modPort_now, hl]

/-- FORCE_UP off and RETRAIN of a disabled port send nothing. -/
theorem portSet_cmd (s : State) (r : Nat) {v : Nat} (h0 : bitOf v 0 = true) (h1 : bitOf v 1 = false) :
    (portSet s r v).cmd = (s.portDisable r true).cmd := by
  unfold portSet
  rw [h0, h1]
  split
  · unfold State.portRetrain
    split
    · rfl
    · obtain ⟨_, hl⟩ := railLeaves_spec ((s.portDisable r true).portForce r false) r fun _ => true
      rw [modPort_cmd, hl]
      rfl
  · rfl

/-! ### FB_REACH (R303, R305) -/

/-- From `s` to `t` only reaches and drovers change. -/
def OnlyReach (s t : State) : Prop := ∃ m d, t = { s with fab := { s.fab with reach := m, drovers := d } }

theorem OnlyReach.trans (h : OnlyReach u s) (h' : OnlyReach s t) : OnlyReach u t := by
  obtain ⟨_, _, rfl⟩ := h
  obtain ⟨_, _, rfl⟩ := h'
  exact ⟨_, _, rfl⟩

theorem OnlyReach.frame (h : OnlyReach s t) : t.out = s.out ∧ t.ctxs = s.ctxs ∧ t.stns = s.stns ∧ ∀ r, t.port r = s.port r := by
  obtain ⟨_, _, rfl⟩ := h
  exact ⟨rfl, rfl, rfl, fun _ => rfl⟩

/-- The mask of one package set, and the rails that no longer reach it leave live. -/
def reachSet (i v : Nat) (s : State) (j : Nat) : State :=
  let pkg := 8 * i + j
  let old := s.reach pkg
  let new := BitVec.ofNat 8 (bitsOf v (8 * j) 8)
  let s := { s with fab := { s.fab with reach := mset 0xFF s.fab.reach pkg new } }
  s.foldNat ((List.range 8).filter fun r => old.getLsbD r && !new.getLsbD r && s.portUp r) fun s r =>
    s.railLeaves r (· == pkg)

theorem setReach_eq (s : State) (i v : Nat) : s.setReach i v = (List.range 8).foldl (reachSet i v) s := rfl

theorem reachSet_spec (i v j : Nat) (s : State) : ∃ d, reachSet i v s j = { s with fab := { s.fab with
    reach := mset 0xFF s.fab.reach (8 * i + j) (BitVec.ofNat 8 (bitsOf v (8 * j) 8)), drovers := d } } := by
  unfold reachSet
  refine List.foldlRecOn (motive := fun (t : State) => ∃ d, t = { s with fab := { s.fab with
    reach := mset 0xFF s.fab.reach (8 * i + j) (BitVec.ofNat 8 (bitsOf v (8 * j) 8)), drovers := d } }) _ _ ⟨s.fab.drovers, rfl⟩ ?_
  rintro _ ⟨d, rfl⟩ n _
  obtain ⟨d', h⟩ := railLeaves_spec { s with fab := { s.fab with
    reach := mset 0xFF s.fab.reach (8 * i + j) (BitVec.ofNat 8 (bitsOf v (8 * j) 8)), drovers := d } } n (· == 8 * i + j)
  exact ⟨d', h⟩

theorem reachSet_reach (i v j pkg : Nat) (s : State) : (reachSet i v s j).reach pkg =
    if pkg = 8 * i + j then BitVec.ofNat 8 (bitsOf v (8 * j) 8) else s.reach pkg := by
  obtain ⟨_, h⟩ := reachSet_spec i v j s
  rw [h]
  exact mget_mset _ _ _ _ _

theorem onlyReach_reachSet (i v j : Nat) (s : State) : OnlyReach s (reachSet i v s j) := by
  obtain ⟨_, h⟩ := reachSet_spec i v j s
  exact ⟨_, _, h⟩

/-- The masks of packages `8 i` to `8 i + n - 1` set. -/
theorem reachSets_spec (i v n : Nat) (s : State) : OnlyReach s ((List.range n).foldl (reachSet i v) s) ∧
    (∀ j < n, ((List.range n).foldl (reachSet i v) s).reach (8 * i + j) = BitVec.ofNat 8 (bitsOf v (8 * j) 8)) ∧
    ∀ pkg, (∀ j < n, pkg ≠ 8 * i + j) → ((List.range n).foldl (reachSet i v) s).reach pkg = s.reach pkg := by
  induction n with
  | zero => exact ⟨⟨s.fab.reach, s.fab.drovers, rfl⟩, nofun, fun _ _ => rfl⟩
  | succ n ih =>
    obtain ⟨ho, hset, hkeep⟩ := ih
    rw [List.range_succ, List.foldl_append, List.foldl_cons, List.foldl_nil]
    generalize (List.range n).foldl (reachSet i v) s = w at ho hset hkeep ⊢
    refine ⟨ho.trans (onlyReach_reachSet i v n w), fun j hj => ?_, fun pkg hp => ?_⟩
    · rw [reachSet_reach]
      split
      · rename_i e
        rw [Nat.add_left_cancel e]
      · exact hset j (by omega)
    · rw [reachSet_reach, if_neg (hp n (Nat.lt_succ_self n))]
      exact hkeep pkg fun j hj => hp j (Nat.lt_succ_of_lt hj)

theorem setReach_spec (s : State) (i v : Nat) : OnlyReach s (s.setReach i v) ∧
    (∀ j < 8, (s.setReach i v).reach (8 * i + j) = BitVec.ofNat 8 (v / 2 ^ (8 * j))) ∧
    ∀ pkg, pkg / 8 ≠ i → (s.setReach i v).reach pkg = s.reach pkg := by
  obtain ⟨ho, hset, hkeep⟩ := reachSets_spec i v 8 s
  rw [setReach_eq]
  refine ⟨ho, fun j hj => (hset j hj).trans ?_, fun pkg hp => hkeep pkg fun j hj => by omega⟩
  apply BitVec.eq_of_toNat_eq
  simp [bitsOf]

end Sys2Proof.Laws
end

section
/-!
SUPPORT. The rows of the register writes to stations, stores, stacks and ports, with the obligation on them.
-/

namespace Sys2Proof.Laws

open Sys2Proof Sys2Proof.Machine

variable {s : State} {p : Pkt} {k : Slot} {o v : Nat}

/-- Answering leaves the fabric, the contexts and the stations. -/
theorem Acks.fabric {s t : State} (h : Acks s t) : (∀ pkg, t.reach pkg = s.reach pkg) ∧ t.ctxs = s.ctxs ∧ t.stns = s.stns ∧
    ∀ r, t.port r = s.port r := by
  obtain ⟨⟨_, _, _, _, rfl⟩, -, -⟩ := h
  exact ⟨fun _ => rfl, rfl, rfl, fun _ => rfl⟩

theorem isRow_stnCtrl {i : Nat} {x : Instr} (hi : i < 1024) (ho : o = 0x1000030 + 0x10000 * i)
    (hx : (x = .clrMin p ∧ bitOf v 1 = true) ∨ (x = .markFailed p ∧ bitOf v 0 = true)) : IsRow s p x o v := by
  have hs : isStn o 0x30 = true := by
    rw [isStn, inArray_mem (i := i) (x := 0x30) (by omega) hi (by omega)]
    rfl
  rcases hx with ⟨rfl, hb⟩ | ⟨rfl, hb⟩
  · exact ⟨_, rfl, by rw [hs, hb]; rfl⟩
  · exact ⟨_, rfl, by rw [hs, hb]; rfl⟩

theorem isRow_remove {n : Nat} (hn : n < 32) (ho : o = 0xC00038 + 0x10000 * n) (hv : bitOf v 8 = true) : IsRow s p (.remove p) o v := by
  have hs : isStk o 0x38 = true := by
    rw [isStk, inArray_mem (i := n) (x := 0x38) (by omega) hn (by omega)]
    rfl
  exact ⟨_, rfl, by rw [hs, hv]; rfl⟩

theorem isRow_hbScrub {n : Nat} (hn : n < 32) (ho : o = 0xC00028 + 0x10000 * n) : IsRow s p (.hbScrub p) o v := by
  have hs : isStk o 0x28 = true := by
    rw [isStk, inArray_mem (i := n) (x := 0x28) (by omega) hn (by omega)]
    rfl
  exact ⟨_, rfl, hs⟩

theorem isRow_portCtrl {r : Nat} {x : Instr} (hr : r < 8) (ho : o = 0x601020 + 0x40 * r)
    (hx : (x = .retrain p ∧ bitOf v 2 = true) ∨ (x = .forceUp p ∧ bitOf v 1 = true) ∨ (x = .disable p ∧ bitOf v 0 = true)) :
    IsRow s p x o v := by
  have hs : isPortCtrl o = true := by
    rw [isPortCtrl, inArray_mem (i := r) (x := 0x20) (by omega) hr (by omega)]
    rfl
  rcases hx with ⟨rfl, hb⟩ | ⟨rfl, hb⟩ | ⟨rfl, hb⟩
  · exact ⟨_, rfl, by rw [hs, hb]; rfl⟩
  · exact ⟨_, rfl, by rw [hs, hb]; rfl⟩
  · exact ⟨_, rfl, by rw [hs, hb]; rfl⟩

theorem isRow_reach {i : Nat} (hi : i < 32) (ho : o = 0x600100 + 8 * i) : IsRow s p (.fbReach p) o v := by
  have hs : (inArray o 0x600100 8 32).isSome = true := by
    rw [inArray_mem (i := i) (x := 0) (by omega) hi (by omega)]
    rfl
  exact ⟨_, rfl, hs⟩

theorem hbScrub_stk (s : State) (n v : Nat) :
    (s.hbScrub n v).stk n = { s.stk n with
      scrubOn := bitOf v 32, scrubH := clamp 1 168 (v % 2 ^ 32), scrubPos := if bitOf v 32 then (s.stk n).scrubPos else 0
      scrubFrom := if bitOf v 32 then (s.stk n).scrubFrom else none } ∧
    ∀ m, m ≠ n → (s.hbScrub n v).stk m = s.stk m :=
  ⟨modStk_stk_same s n _, fun _ hm => modStk_stk_ne s _ hm⟩

section Ports
variable {r : Nat} {x : Instr} (hw : s.writes p k o v = true) (hr : r < 8) (ho : o = 0x601020 + 0x40 * r) (hx : IsRow s p x o v)
include hw hr ho hx

/-- A write of FB_PORT_CTRL that is not refused. -/
theorem does_portSet {P : State → Prop} (hv : (bitOf v 0 && bitOf v 1) = false)
    (hP : ∀ u t, Acks s u → Acks (portSet u r v) t → ((∀ q, q ≠ r → t.port q = s.port q) ∧ t.ctxs = s.ctxs ∧ t.stns = s.stns) →
      t.port r = setPort s.now v (s.port r) → P t) : Does s p k x 0 P := by
  refine does_made (f := fun u => portSet u r v) hw hx (fun u => ?_) (fun u => (portSet_spec u r v).1.out) fun u t hu ht => ?_
  · rw [ho, regWrite_port u k v hr, portCtrl_ok u r hv]
  · obtain ⟨honly, hp⟩ := portSet_spec u r v
    obtain ⟨-, hcu, hsu, hpu⟩ := hu.fabric
    obtain ⟨-, hct, hst, hpt⟩ := ht.fabric
    have hnow : u.now = s.now := by
      obtain ⟨⟨_, _, _, _, rfl⟩, -, -⟩ := hu
      rfl
    refine hP u t hu ht ⟨fun q hq => (hpt q).trans ((honly.port q hq).trans (hpu q)), hct.trans (honly.ctxs.trans hcu),
      hst.trans (honly.stns.trans hsu)⟩ ?_
    rw [hpt, hp, hnow, hpu]

theorem does_portBoth (h0 : bitOf v 0 = true) (h1 : bitOf v 1 = true) : Does s p k x 0x0105 fun t => OnlyAnswered s t :=
  does_error hw hx (fun u => by rw [ho, regWrite_port u k v hr, portCtrl_both u r h0 h1]) rfl

theorem does_portDisable (h0 : bitOf v 0 = true) (h1 : bitOf v 1 = false) : Does s p k x 0 fun t =>
    ((∀ q, q ≠ r → t.port q = s.port q) ∧ t.ctxs = s.ctxs ∧ t.stns = s.stns) ∧
    (t.port r).disable = true ∧ (t.port r).forceUp = false ∧ (bitOf v 2 = true → (t.port r).failed = 0) ∧
    ((s.port r).disable = false → (s.port r).draining = none →
      ((s.port r).unacked = [] → (t.port r).state = 7 ∧ (t.port r).width = 0 ∧ (t.port r).egress = [] ∧ (t.port r).unacked = [] ∧
        Posted s t 0x8008 0xFFFF (toBe 1 r ++ toBe 1 7 ++ toBe 1 0 ++ toBe 1 2 ++ toBe 4 0)) ∧
      ((s.port r).unacked ≠ [] → t.portUp r = false ∧ (t.port r).state = (s.port r).state ∧
        (t.port r).unacked = (s.port r).unacked ∧ (t.port r).draining = some s.now)) ∧
    ((s.port r).draining ≠ none → (t.port r).draining = (s.port r).draining) := by
  refine does_portSet hw hr ho hx (by rw [h0, h1]; rfl) fun u t hu ht hothers hp => ?_
  rw [setPort_disable s.now (s.port r) h0 h1] at hp
  rw [State.portUp, hp]
  refine ⟨hothers, disabledPort_disable _ _ _, rfl, fun h2 => if_pos h2, fun hd hn => ⟨fun hun => ?_, fun hun => ?_⟩,
    fun hn => (disabledPort_draining true hn).1⟩
  · rw [disabledPort_idle hd hn hun]
    refine ⟨rfl, rfl, rfl, rfl, ?_⟩
    have hpost : Posted u (portSet u r v) 0x8008 0xFFFF (toBe 1 r ++ toBe 1 7 ++ toBe 1 0 ++ toBe 1 2 ++ toBe 4 0) := by
      refine posted_of (posted_portDisable u r ?_ ?_ ?_) rfl rfl (portSet_cmd u r h0 h1)
      all_goals
        obtain ⟨⟨_, _, _, _, rfl⟩, -, -⟩ := hu
        assumption
    exact hu.posted hpost ht
  · rw [disabledPort_busy hd hn hun]
    exact ⟨Bool.and_false _, rfl, rfl, rfl⟩

end Ports

/-- Settles O35: every row is a REG_WRITE of one register; what its write does is said by the register's own lemma. -/
theorem stationAndStoreRegisters : Obligations.StationAndStoreRegisters := by
  intro s p k o v hw does
  refine ⟨fun i hi ho x hx => ?_, fun n hn ho hv => ?_, fun ho => ?_, fun n hn ho => ?_, ?_, fun i hi ho => ?_⟩
  · refine does_made (f := fun u => u.stnCtrl i v) hw (isRow_stnCtrl hi ho hx) (fun u => by rw [ho, regWrite_station u k v hi])
      (fun u => (stnCtrl_spec u v hi).1) fun u t hu ht => ?_
    obtain ⟨⟨_, _, _, _, rfl⟩, -, -⟩ := hu
    obtain ⟨⟨_, _, _, _, rfl⟩, -, -⟩ := ht
    exact (stnCtrl_spec _ v hi).2
  · refine does_made (f := fun u => u.hbCtrl n v) hw (isRow_remove hn ho hv) (fun u => by rw [ho, regWrite_stackCtrl u k v hn])
      (fun u => (hbCtrl_spec u n hv).1) fun u t hu ht => ?_
    obtain ⟨⟨_, _, _, _, rfl⟩, -, -⟩ := hu
    obtain ⟨⟨_, _, _, _, rfl⟩, -, -⟩ := ht
    exact (hbCtrl_spec _ n hv).2
  · refine does_made (f := fun u => u.csScrub v) hw ⟨_, rfl, beq_iff_eq.mpr ho⟩ (fun u => by rw [ho, regWrite_csScrub u k v])
      (fun u => ⟨[], rfl⟩) fun u t hu ht => ?_
    obtain ⟨⟨_, _, _, _, rfl⟩, -, -⟩ := hu
    obtain ⟨⟨_, _, _, _, rfl⟩, -, -⟩ := ht
    exact ⟨rfl, rfl⟩
  · refine does_made (f := fun u => u.hbScrub n v) hw (isRow_hbScrub hn ho) (fun u => by rw [ho, regWrite_stackScrub u k v hn])
      (fun u => ⟨[], rfl⟩) fun u t hu ht => ?_
    obtain ⟨⟨_, _, _, _, rfl⟩, -, -⟩ := hu
    obtain ⟨⟨_, _, _, _, rfl⟩, -, -⟩ := ht
    exact ⟨rfl, hbScrub_stk _ n v⟩
  · intro r hr ho row others x hx
    have hrow : IsRow s p x o v := isRow_portCtrl hr ho hx
    refine ⟨does_portBoth hw hr ho hrow, does_portDisable hw hr ho hrow, fun h0 h2 => ?_, fun h0 h1 h2 => ?_⟩
    · refine does_portSet hw hr ho hrow (by rw [h0]; rfl) fun u t hu ht hothers hp => ⟨hothers, ?_⟩
      rw [hp]
      exact setPort_retrain s.now (s.port r) h0 h2
    · refine does_portSet hw hr ho hrow (by rw [h0]; rfl) fun u t hu ht hothers hp => ⟨hothers, ?_⟩
      rw [hp]
      exact setPort_force s.now (s.port r) h0 h1 h2
  · refine does_made (f := fun u => u.setReach i v) hw (isRow_reach hi ho) (fun u => by rw [ho, regWrite_reach u k v hi])
      (fun u => ⟨[], (setReach_spec u i v).1.frame.1⟩) fun u t hu ht => ?_
    obtain ⟨honly, hset, hkeep⟩ := setReach_spec u i v
    obtain ⟨-, hc, hs, hp⟩ := honly.frame
    obtain ⟨hru, hcu, hsu, hpu⟩ := hu.fabric
    obtain ⟨hrt, hct, hst, hpt⟩ := ht.fabric
    exact ⟨fun j hj => (hrt _).trans (hset j hj), fun pkg h => (hrt pkg).trans ((hkeep pkg h).trans (hru pkg)),
      hct.trans (hc.trans hcu), hst.trans (hs.trans hsu), fun r => (hpt r).trans ((hp r).trans (hpu r))⟩

end Sys2Proof.Laws
end

section
/-!
SUPPORT. A bundle whose one operation is in its V, X or M slot: what its issue leaves of the station and of everything else (R36-R39,
R95).
-/

namespace Sys2Proof.Laws

open Sys2Proof Sys2Proof.Machine

variable {s : State} {st c : Nat} {b : Bundle}

/-! ### What a ready bundle found -/

/-- No slot of a ready bundle faults (R98). -/
theorem vFaults_ready (h : s.issuable st c b = true) {op : VOp} (hv : b.v = op) : (s.seenSite st c).vFaults op = [] := by
  obtain ⟨-, -, -, -, hf⟩ := ready_spec h
  simp only [Site.faults, List.cons.injEq, List.append_eq_nil_iff] at hf
  obtain ⟨-, ⟨hf, -⟩, -⟩ := hf
  exact hv ▸ hf

theorem xFaults_ready (h : s.issuable st c b = true) {op : XOp} (hx : b.x = op) : (s.seenSite st c).xFaults (s.seen c st) op = [] := by
  obtain ⟨-, -, -, -, hf⟩ := ready_spec h
  simp only [Site.faults, List.cons.injEq] at hf
  obtain ⟨-, -, -, hf, -⟩ := hf
  exact hx ▸ hf

section Site
variable (s : State) (st c : Nat)

@[simp] theorem seenSite_st : (s.seenSite st c).st = st := rfl
@[simp] theorem seenSite_sreg (r : Reg) : (s.seenSite st c).a.sreg r = (s.arch st).sreg r := rfl
@[simp] theorem seenSite_saddle : (s.seenSite st c).a.saddle = s.saddleSeen c st := rfl

end Site

theorem faultIf_nil {p : Bool} {n : Nat} : faultIf p n = [] ↔ p = false := by cases p <;> simp [faultIf]

theorem wrV_nil {a : Arch} {v : VReg} : a.wrV v = [] ↔ a.pending (.v v) = false := by simp [Arch.wrV]
theorem wrS_nil {a : Arch} {r : Reg} : a.wrS r = [] ↔ a.pending (.s r) = false := by simp [Arch.wrS]
theorem wrA_nil {a : Arch} {k : BitVec 2} : a.wrA k = [] ↔ a.pending (.acc k) = false := by simp [Arch.wrA]

/-! ### Position, counters and lines (R41, R95) -/

/-- A bundle without an S operation takes the next index, and its header's wait its count. -/
theorem issued_take (h : s.issuable st c b = true) (hs : b.s = .nop) (n : Nat) : (s.arch st).Issued ((s.arch st).take b n) b n := by
  have hu : (s.arch st).unmet b = none := (ready_spec h).2.2.1
  refine ⟨rfl, rfl, token_subtract hu (by simp [hs]), ?_⟩
  simp only [Arch.take, Arch.subtract, List.map_map]
  refine List.map_congr_left fun l _ => ?_
  simp only [Function.comp_apply]
  split <;> rfl

/-- Writing registers, marks or bytes issues no bundle. -/
theorem Issued.of {a a' d : Arch} {n : Nat} (h : a.Issued a' b n) (hn : d.next = a'.next := by rfl) (hi : d.issued = a'.issued := by rfl)
    (ht : d.tokens = a'.tokens := by rfl) (hl : d.istore = a'.istore := by rfl) : a.Issued d b n := by
  obtain ⟨h1, h2, h3, h4⟩ := h
  exact ⟨hn.trans h1, hi.trans h2, fun k => (congrArg (fun m => (mget 0 m k).toNat) ht).trans (h3 k), by rw [hl, h4]⟩

theorem Issued.setV {a a' : Arch} {n : Nat} (h : a.Issued a' b n) (d : VReg) (v : BitVec 4096) : a.Issued (a'.setV d v) b n := Issued.of h

theorem Issued.setS {a a' : Arch} {n : Nat} (h : a.Issued a' b n) (d : Reg) (v : Word) : a.Issued (a'.setS d v) b n := by
  unfold Arch.setS Arch.putS
  split
  · exact h
  · exact Issued.of h

/-! ### Marks that an instruction sets (R38) -/

theorem mark_free {a : Arch} {m : Mark} (h : a.pending m = false) : (a.mark m).marks = m :: a.marks := by
  have h : a.marks.contains m = false := h
  rw [Arch.mark, h]
  rfl

theorem wroteV_setV {a : Arch} {d : VReg} (v : BitVec 4096) (n : Nat) (h : a.pending (.v d) = false) :
    a.WroteV ((a.take b n).setV d v) d v := by
  refine ⟨?_, fun e he => ?_, mark_free h, rfl⟩
  · rw [setV_vreg, if_pos rfl]
  · rw [setV_vreg, if_neg he, take_vreg]

theorem wroteS_setS {a : Arch} {d : Reg} (v : Word) (n : Nat) (h : a.pending (.s d) = false) : a.WroteS ((a.take b n).setS d v) d v := by
  by_cases hd : d = 0
  · subst hd
    exact ⟨rfl, fun _ _ => rfl, rfl, rfl⟩
  · have hm : ((a.take b n).setS d v).marks = .s d :: a.marks := by
      rw [Arch.setS, if_neg hd, mark_free, Arch.putS, if_neg hd]
      · rfl
      · rwa [Arch.putS, if_neg hd]
    refine ⟨?_, fun e he => ?_, ?_, ?_⟩
    · rw [setS_sreg _ hd, if_pos rfl, if_neg hd]
    · rw [setS_sreg _ hd, if_neg he, take_sreg]
    · rw [hm, if_neg hd]
    · rw [Arch.setS, if_neg hd, Arch.putS, if_neg hd]
      rfl

/-! ### The issue -/

/-- The bundle that follows lies within the stream, whatever the slots wrote. -/
theorem streamEnd_within {t : State} (hi : s.inside st c b = true) (hc : (t.ctx c).itin = (s.ctx c).itin) (hs : t.sched = s.sched)
    (hn : (t.arch st).next = (s.seenSite st c).next b.s) : t.streamEnd c (s.relStn c st) = t := by
  obtain ⟨hst, hlen⟩ := inside_spec hi
  have e : t.stnOfCtx c (s.relStn c st) = st := by
    refine Eq.trans ?_ hst
    simp only [State.stnOfCtx, State.stnBase, State.eighths, hc, hs]
  have hn : (t.stn st).arch.next = (s.seenSite st c).next b.s := hn
  unfold State.streamEnd
  rw [e, hc]
  dsimp only
  rw [if_neg]
  simp only [Bool.and_eq_true, decide_eq_true_eq, not_and, Nat.not_le]
  intro _
  exact hn ▸ hlen

/-- What stands of the station as the slots of a bundle without an S operation write. -/
theorem slotState_moved (hs : b.s = .nop) : (slotState s st c b).arch st = (s.arch st).take b ((s.arch st).next + 1) := by
  rw [slotState_arch, hs]
  rfl

/-- A bundle of one operation that changes its station alone, by `f`. -/
theorem within_station (hi : s.inside st c b = true) (hs : b.s = .nop) {f g : Arch → Arch} (hf : ∀ a, (g (f a)).next = a.next)
    (he : s.issue st b = (((slotState s st c b).modArch st f).modArch st g).streamEnd c (s.relStn c st)) :
    OnlyStation st s (s.issue st b) ∧ (s.issue st b).arch st = g (f ((s.arch st).take b ((s.arch st).next + 1))) := by
  have ho := onlyStation_modArch (onlyStation_modArch (onlyStation_slotState s st c b) f) g
  have ha : (((slotState s st c b).modArch st f).modArch st g).arch st = g (f ((s.arch st).take b ((s.arch st).next + 1))) := by
    rw [modArch_arch_same, modArch_arch_same, slotState_moved hs]
  rw [he, streamEnd_within hi (onlyStation_ctx ho c).1 (onlyStation_sched ho) (by rw [ha, hf, hs]; rfl)]
  exact ⟨ho, ha⟩

/-- A row of the operation table whose bundle holds the row's operation (log entry 4). -/
theorem row_of_v {i : Instr} {op : VOp} (hv : b.v = op) (he : exec i s = .next (s.issue st { b with v := op })) :
    exec i s = .next (s.issue st b) := by rw [he, ← hv]

theorem row_of_x {i : Instr} {op : XOp} (hx : b.x = op) (he : exec i s = .next (s.issue st { b with x := op })) :
    exec i s = .next (s.issue st b) := by rw [he, ← hx]

theorem row_of_m {i : Instr} {op : MOp} (hm : b.m = op) (he : exec i s = .next (s.issue st { b with m := op })) :
    exec i s = .next (s.issue st b) := by rw [he, ← hm]

theorem onlyV_noS (hb : b.onlyV = true) : b.s = .nop := by
  simp only [Bundle.onlyV, Bool.and_eq_true, beq_iff_eq] at hb
  exact hb.1.2

theorem onlyX_noS (hb : b.onlyX = true) : b.s = .nop := by
  simp only [Bundle.onlyX, Bool.and_eq_true, beq_iff_eq] at hb
  exact hb.2

/-- A V operation alone in a ready bundle, whose effect on the station is `f`. -/
theorem issue_onlyV (h : s.issuable st c b = true) (hi : s.inside st c b = true) (hb : b.onlyV = true) {f : Arch → Arch}
    (hf : ∀ a, (f a).next = a.next) (he : ∀ u, (s.seenSite st c).vEffect b.v u = u.modArch st f) :
    OnlyStation st s (s.issue st b) ∧ (s.issue st b).arch st = f ((s.arch st).take b ((s.arch st).next + 1)) := by
  simp only [Bundle.onlyV, Bool.and_eq_true, beq_iff_eq] at hb
  obtain ⟨⟨hm, hs⟩, hx⟩ := hb
  refine within_station hi hs (g := id) hf ?_
  rw [issue_ready h, issueAt_eq, hm, hs, hx]
  dsimp only [Site.mEffect, Site.xEffect, Site.xAfter, Site.sAfter]
  rw [he]
  rfl

/-- An X operation alone in a ready bundle, whose effect on the station is `f`. -/
theorem issue_onlyX (h : s.issuable st c b = true) (hi : s.inside st c b = true) (hb : b.onlyX = true) {f : Arch → Arch}
    (hf : ∀ a, (f a).next = a.next) (he : ∀ u, (s.seenSite st c).xEffect b.x u = u.modArch st f)
    (ha : ∀ u, (s.seenSite st c).xAfter b.x u = u) :
    OnlyStation st s (s.issue st b) ∧ (s.issue st b).arch st = f ((s.arch st).take b ((s.arch st).next + 1)) := by
  simp only [Bundle.onlyX, Bool.and_eq_true, beq_iff_eq] at hb
  obtain ⟨⟨hm, hv⟩, hs⟩ := hb
  refine within_station hi hs (f := id) hf ?_
  rw [issue_ready h, issueAt_eq, hm, hv, hs]
  dsimp only [Site.mEffect, Site.vEffect, Site.sAfter]
  rw [he, ha]
  rfl

/-- A V operation alone in a ready bundle that writes one vector register. -/
theorem issue_writesV (h : s.issuable st c b = true) (hi : s.inside st c b = true) (hb : b.onlyV = true) {d : VReg} {v : BitVec 4096}
    (hd : (s.arch st).pending (.v d) = false) (he : ∀ u, (s.seenSite st c).vEffect b.v u = u.modArch st fun a => a.setV d v) :
    OnlyStation st s (s.issue st b) ∧ (s.arch st).Issued ((s.issue st b).arch st) b ((s.arch st).next + 1) ∧
      (s.arch st).WroteV ((s.issue st b).arch st) d v := by
  obtain ⟨ho, ha⟩ := issue_onlyV h hi hb (fun a => setV_next a d v) he
  rw [ha]
  exact ⟨ho, Issued.setV (issued_take h (onlyV_noS hb) _) d v, wroteV_setV v _ hd⟩

end Sys2Proof.Laws
end

section
/-!
SUPPORT. The lanes of a vector register, what a VR operation leaves in each, and the obligation on the VR format (R146-R152).
-/

namespace Sys2Proof.Laws

open Sys2Proof Sys2Proof.Machine

variable {s : State} {st c : Nat} {b : Bundle}

/-! ### Lanes (R146) -/

theorem laneAt_lt (w : Nat) (v : BitVec 4096) (i : Nat) : laneAt w v i < 2 ^ w := Nat.mod_lt _ (Nat.two_pow_pos w)

/-- Digit `i` of a number written in base `2 ^ w`, lowest first. -/
theorem digit_foldr (w : Nat) (l : List Nat) (i : Nat) :
    l.foldr (fun x n => n * 2 ^ w + x % 2 ^ w) 0 / 2 ^ (w * i) % 2 ^ w = l.getD i 0 % 2 ^ w := by
  induction l generalizing i with
  | nil => simp
  | cons x l ih =>
    simp only [List.foldr_cons]
    generalize l.foldr (fun x n => n * 2 ^ w + x % 2 ^ w) 0 = n at ih ⊢
    have hx : x % 2 ^ w < 2 ^ w := Nat.mod_lt _ (Nat.two_pow_pos w)
    cases i with
    | zero => simp
    | succ i =>
      rw [Nat.mul_succ, Nat.add_comm (w * i), Nat.pow_add, ← Nat.div_div_eq_div_mul, Nat.mul_comm n,
        Nat.mul_add_div (Nat.two_pow_pos w), Nat.div_eq_of_lt hx, Nat.add_zero, ih]
      rfl

/-- A field that lies within a word of `m` bits. -/
theorem bitsOf_ofNat (n : Nat) {a w m : Nat} (h : a + w ≤ m) : bitsOf (BitVec.ofNat m n).toNat a w = n / 2 ^ a % 2 ^ w := by
  obtain ⟨k, rfl⟩ := Nat.exists_eq_add_of_le h
  rw [bitsOf, BitVec.toNat_ofNat, Nat.add_assoc, Nat.pow_add, Nat.mod_mul_right_div_self,
    Nat.mod_mod_of_dvd _ (Nat.pow_dvd_pow 2 (Nat.le_add_right w k))]

/-- A lane of a register made of lanes. -/
theorem laneAt_ofLanes {w i : Nat} (l : List Nat) (h : w * (i + 1) ≤ 4096) : laneAt w (ofLanes w l) i = l.getD i 0 % 2 ^ w := by
  have h : w * i + w ≤ 4096 := Nat.mul_succ w i ▸ h
  exact (bitsOf_ofNat _ h).trans (digit_foldr w l i)

/-- The lanes of a lane format fill the register. -/
theorem laneFmt_fills {n : Nat} {f : FpFmt} (h : laneFmt n = some f) : f.bits * f.lanes = 4096 := by
  unfold laneFmt at h
  split at h <;> cases h <;> rfl

/-- A lane of a register made by a function of the lane's number. -/
theorem laneAt_map {n : Nat} {f : FpFmt} (h : laneFmt n = some f) (g : Nat → Nat) {k : Nat} (hk : k < f.lanes) :
    laneAt f.bits (ofLanes f.bits ((List.range f.lanes).map g)) k = g k % 2 ^ f.bits := by
  rw [laneAt_ofLanes _ (laneFmt_fills h ▸ Nat.mul_le_mul_left _ hk)]
  simp [hk]

theorem laneAt_replicate {n : Nat} {f : FpFmt} (h : laneFmt n = some f) (v : Machine.Num) {m k : Nat} (hk : k < f.lanes) (hm : k < m) :
    laneAt f.bits (ofVals f (List.replicate m v)) k = f.encode v % 2 ^ f.bits := by
  rw [ofVals, laneAt_ofLanes _ (laneFmt_fills h ▸ Nat.mul_le_mul_left _ hk)]
  simp [hm]

theorem laneVals_getD (f : FpFmt) (v : BitVec 4096) {k : Nat} (hk : k < f.lanes) (d : Machine.Num) :
    (laneVals f v).getD k d = f.ieee (laneAt f.bits v k) := by
  simp [laneVals, hk]

/-! ### The VR format (R148) -/

/-- A VR operation alone in a ready bundle writes its value of the sources in D. -/
theorem issue_vr {f : VrOp} {y : VrArgs} (h : s.issuable st c b = true) (hi : s.inside st c b = true) (hb : b.onlyV = true)
    (hv : b.v = .vr f y) :
    vrTypes f y = true ∧ OnlyStation st s (s.issue st b) ∧ (s.arch st).Issued ((s.issue st b).arch st) b ((s.arch st).next + 1) ∧
      (s.arch st).WroteV ((s.issue st b).arch st) y.d (vrVal f y ((s.arch st).vreg y.a) ((s.arch st).vreg y.b)
        ((s.arch st).vreg y.c) ((s.arch st).vreg y.d)) := by
  have hf := vFaults_ready h hv
  simp only [Site.vFaults, List.append_eq_nil_iff, faultIf_nil, Bool.not_eq_false', wrV_nil] at hf
  obtain ⟨⟨-, hd⟩, ht⟩ := hf
  exact ⟨ht, issue_writesV h hi hb hd fun u => by rw [hv]; rfl⟩

/-- The lanes of D after the operations whose lanes depend on their own lane alone (R148, R149). -/
theorem laneAt_vrVal {f : VrOp} {y : VrArgs} {g : FpFmt} (hg : laneFmt y.ty.toNat = some g)
    (hf : f ∉ [.vcvt, .vbcast, .viota, .vrsum, .vrmax, .vrmaxi]) (a r q d : BitVec 4096) {k : Nat} (hk : k < g.lanes) :
    laneAt g.bits (vrVal f y a r q d) k =
      laneOp g f (g.ieee (laneAt g.bits a k)) (g.ieee (laneAt g.bits r k)) (g.ieee (laneAt g.bits q k)) % 2 ^ g.bits := by
  have e : vrVal f y a r q d = ofLanes g.bits ((List.range g.lanes).map fun i =>
      laneOp g f ((laneVals g a).getD i .nan) ((laneVals g r).getD i .nan) ((laneVals g q).getD i .nan)) := by
    simp only [List.mem_cons, List.not_mem_nil, or_false, not_or] at hf
    simp only [vrVal, hg, Option.getD_some]
    split <;> simp_all
  rw [e, laneAt_map hg _ hk, laneVals_getD g a hk, laneVals_getD g r hk, laneVals_getD g q hk]

/-- A row whose D is known lane by lane. -/
theorem exec_vr {f : VrOp} {y : VrArgs} {g : FpFmt} {i : Instr} {v : Nat → Nat} (h : s.issuable st c b = true) (hi : s.inside st c b = true)
    (hb : b.onlyV = true) (hv : b.v = .vr f y) (he : exec i s = .next (s.issue st { b with v := .vr f y }))
    (hl : vrTypes f y = true → ∀ k < g.lanes, laneAt g.bits (vrVal f y ((s.arch st).vreg y.a) ((s.arch st).vreg y.b)
      ((s.arch st).vreg y.c) ((s.arch st).vreg y.d)) k = v k % 2 ^ g.bits) :
    ∃ t x, exec i s = .next t ∧ OnlyStation st s t ∧ (s.arch st).Issued (t.arch st) b ((s.arch st).next + 1) ∧
      (s.arch st).WroteV (t.arch st) y.d x ∧ ∀ k < g.lanes, laneAt g.bits x k = v k % 2 ^ g.bits := by
  obtain ⟨ht, ho, hm, hw⟩ := issue_vr h hi hb hv
  exact ⟨_, _, row_of_v hv he, ho, hm, hw, hl ht⟩

section Special
variable {y : VrArgs} {g : FpFmt} (hg : laneFmt y.ty.toNat = some g) (a r q d : BitVec 4096)
include hg

theorem laneAt_vbcast (ht : vrTypes .vbcast y = true) {k : Nat} (hk : k < g.lanes) :
    laneAt g.bits (vrVal .vbcast y a r q d) k = g.encode (g.ieee (laneAt g.bits a y.lane.toNat)) % 2 ^ g.bits := by
  have hl : y.lane.toNat < g.lanes := by simpa [vrTypes, hg] using ht
  simp only [vrVal, hg, Option.getD_some]
  rw [laneVals_getD g a hl, laneAt_replicate hg _ hk hk]

theorem laneAt_viota {k : Nat} (hk : k < g.lanes) :
    laneAt g.bits (vrVal .viota y a r q d) k = g.encode (.ofInt k 0) % 2 ^ g.bits := by
  simp only [vrVal, hg, Option.getD_some, ofVals, List.map_map]
  exact laneAt_map hg _ hk

/-- The reductions and VRMAXI read lanes of FP32 alone (R150). -/
theorem reduced_f32 {f : VrOp} (hf : f ∈ [.vrsum, .vrmax, .vrmaxi]) (ht : vrTypes f y = true) : g = .f32 := by
  have ty : y.ty = 15 := by
    simp only [List.mem_cons, List.not_mem_nil, or_false] at hf
    rcases hf with rfl | rfl | rfl <;> exact beq_iff_eq.mp ht
  rw [ty] at hg
  exact (Option.some.inj hg).symm

theorem laneAt_vrsum (ht : vrTypes .vrsum y = true) {k : Nat} (hk : k < g.lanes) : laneAt g.bits (vrVal .vrsum y a r q d) k =
    g.encode (halves (fun p q => g.ieee (g.encode (p.add q))) 7 64 (laneVals g a)) % 2 ^ g.bits := by
  have h128 : g.lanes = 128 := by rw [reduced_f32 hg (by decide) ht]; rfl
  simp only [vrVal, hg, Option.getD_some]
  exact laneAt_replicate hg _ hk (h128 ▸ hk)

theorem laneAt_vrmax (ht : vrTypes .vrmax y = true) {k : Nat} (hk : k < g.lanes) :
    laneAt g.bits (vrVal .vrmax y a r q d) k = g.encode (halves Machine.Num.max 7 64 (laneVals g a)) % 2 ^ g.bits := by
  have h128 : g.lanes = 128 := by rw [reduced_f32 hg (by decide) ht]; rfl
  simp only [vrVal, hg, Option.getD_some]
  exact laneAt_replicate hg _ hk (h128 ▸ hk)

theorem laneAt_vrmaxi (ht : vrTypes .vrmaxi y = true) {k : Nat} (hk : k < g.lanes) : laneAt g.bits (vrVal .vrmaxi y a r q d) k =
    (if k = 0 then g.encode (maxIndex (laneVals g a)).1 else if k = 1 then (maxIndex (laneVals g a)).2 else 0) % 2 ^ g.bits := by
  have h32 : g.bits = 32 := by rw [reduced_f32 hg (by decide) ht]; rfl
  simp only [vrVal, hg, Option.getD_some]
  rw [← h32, laneAt_ofLanes _ (laneFmt_fills hg ▸ Nat.mul_le_mul_left _ hk)]
  match k with
  | 0 | 1 => rfl
  | k + 2 => simp

end Special

/-! ### Conversions (R152) -/

/-- A source or destination format's lanes are as wide as its elements. -/
theorem laneFmt_bits {n : Nat} {f : FpFmt} (h : laneFmt n = some f) : f.bits = elemBits n := by
  unfold laneFmt at h
  split at h <;> cases h <;> rfl

theorem laneAt_cvt {sty ty part : Nat} {g : FpFmt} (hg : laneFmt ty = some g) (a d : BitVec 4096) {k : Nat} (hk : k < g.lanes) :
    laneAt g.bits (cvt sty ty part a d) k = (if sty = 15
      then (if 128 * part ≤ k ∧ k < 128 * part + 128 then g.encode (elemValue sty (laneAt (elemBits sty) a (k - 128 * part)))
        else laneAt g.bits d k)
      else if k < 128 then g.encode (elemValue sty (laneAt (elemBits sty) a (128 * part + k))) else laneAt g.bits d k) % 2 ^ g.bits := by
  have hn : 4096 / g.bits = g.lanes := rfl
  have new (F : Nat → Nat) {i : Nat} (hi : i < 128) : ((List.range 128).map F).getD i 0 = F i := by simp [hi]
  simp only [cvt, hg, Option.getD_some, ← laneFmt_bits hg, hn, laneAt_map hg _ hk, srcVal, Bool.and_eq_true, decide_eq_true_eq]
  congr 1
  by_cases h : sty = 15
  · simp only [h, beq_self_eq_true, if_true]
    split
    · rw [new _ (by omega), Nat.zero_add]
    · rfl
  · simp only [beq_iff_eq, h, if_false, Nat.zero_le, true_and, Nat.zero_add, Nat.sub_zero]
    split
    · rw [new _ (by assumption)]
    · rfl

/-- Settles O6: D is the operation's value of the sources as they stood (`issue_vr`), and each lane of it is known (`laneAt_vrVal` for
the operations whose lanes depend on their own lane alone, a lemma each for the others). -/
theorem vectorResults : Obligations.VectorResults := by
  refine ⟨?_, ?_⟩
  · intro s st c b d a r q ty f hf hb h hi A x y z i op g hrow hv
    simp only [List.mem_cons, List.not_mem_nil, or_false, Prod.mk.injEq] at hrow
    rcases hrow with hrow | hrow | hrow | hrow | hrow | hrow | hrow | hrow | hrow | hrow | hrow | hrow | hrow | hrow
    all_goals
      obtain ⟨rfl, rfl, rfl⟩ := hrow
      exact exec_vr h hi hb hv rfl fun _ _ hk => laneAt_vrVal hf (by decide) _ _ _ _ hk
  · intro s st c b d a ty sty lane part f hf hb h hi A x src xs i op g hrow hv
    simp only [List.mem_cons, List.not_mem_nil, or_false, Prod.mk.injEq] at hrow
    rcases hrow with ⟨rfl, rfl, rfl⟩ | ⟨rfl, rfl, rfl⟩ | ⟨rfl, rfl, rfl⟩ | ⟨rfl, rfl, rfl⟩ | ⟨rfl, rfl, rfl⟩ | ⟨rfl, rfl, rfl⟩
    · exact exec_vr h hi hb hv rfl fun ht _ hk => laneAt_vbcast hf _ _ _ _ ht hk
    · exact exec_vr h hi hb hv rfl fun _ _ hk => laneAt_viota hf _ _ _ _ hk
    · refine exec_vr h hi hb hv rfl fun _ k hk => (laneAt_cvt hf _ _ hk).trans ?_
      simp only [src, ← BitVec.toNat_inj]
      rfl
    · exact exec_vr h hi hb hv rfl fun ht _ hk => laneAt_vrsum hf _ _ _ _ ht hk
    · exact exec_vr h hi hb hv rfl fun ht _ hk => laneAt_vrmax hf _ _ _ _ ht hk
    · exact exec_vr h hi hb hv rfl fun ht _ hk => laneAt_vrmaxi hf _ _ _ _ ht hk

end Sys2Proof.Laws
end

section
/-!
SUPPORT. Moves between accumulators, vector registers, scalar registers and the saddlebag, and the obligation on them (R113, R151).
-/

namespace Sys2Proof.Laws

open Sys2Proof Sys2Proof.Machine

variable {s : State} {st c : Nat} {b : Bundle}

/-! ### Accumulators (R151) -/

/-- Reading sparse data after `n` values are put at successive keys. -/
theorem mget_foldl_mset {α : Type} [DecidableEq α] (d : α) (m : Sparse α) (lo n : Nat) (v : Nat → α) (j : Nat) :
    mget d ((List.range n).foldl (fun m i => mset d m (lo + i) (v i)) m) j = if lo ≤ j ∧ j < lo + n then v (j - lo) else mget d m j := by
  induction n with
  | zero => rw [if_neg (by omega)]; rfl
  | succ n ih =>
    rw [List.range_succ, List.foldl_concat, mget_mset, ih]
    by_cases h : j = lo + n
    · rw [if_pos h, if_pos (by omega), h, Nat.add_sub_cancel_left]
    · rw [if_neg h]
      exact if_congr (by omega) rfl rfl

/-- VWRACC's effect on its station: the lanes of `v` in 128 elements of an accumulator, from `lo` on. -/
def wroteAcc (acc : BitVec 2) (lo : Nat) (v : BitVec 4096) (a : Arch) : Arch :=
  ({ a with accs := (List.range 128).foldl (fun m i =>
    mset 0 m (8192 * acc.toNat + lo + i) (BitVec.ofNat 32 (laneAt 32 v i))) a.accs } : Arch).mark (.acc acc)

theorem wroteAcc_accAt (a : Arch) {acc k : BitVec 2} {lo i : Nat} (v : BitVec 4096) (hlo : lo + 128 ≤ 8192) (hi : i < 8192) :
    (wroteAcc acc lo v a).accAt k i =
      if k = acc ∧ lo ≤ i ∧ i < lo + 128 then BitVec.ofNat 32 (laneAt 32 v (i - lo)) else a.accAt k i := by
  have hk : (8192 * acc.toNat + lo ≤ 8192 * k.toNat + i ∧ 8192 * k.toNat + i < 8192 * acc.toNat + lo + 128) ↔
      k = acc ∧ lo ≤ i ∧ i < lo + 128 := by
    rw [← BitVec.toNat_inj]
    omega
  have e := mget_foldl_mset 0 a.accs (8192 * acc.toNat + lo) 128 (fun i => BitVec.ofNat 32 (laneAt 32 v i)) (8192 * k.toNat + i)
  refine Eq.trans e ?_
  rw [if_congr hk rfl rfl]
  by_cases h : k = acc ∧ lo ≤ i ∧ i < lo + 128
  · rw [if_pos h, if_pos h, h.1, Nat.add_sub_add_left]
  · rw [if_neg h, if_neg h]
    rfl

/-! ### Addresses and lanes of the X slot (R113) -/

theorem plus_offset (v : Word) (off : BitVec 12) : plus v (64 * off.toNat) = (v + 64 * off.setWidth 64).toNat := by
  have e : BitVec.ofInt 64 (64 * off.toNat) = 64 * off.setWidth 64 := by
    apply BitVec.eq_of_toNat_eq
    have := off.isLt
    simp [BitVec.toNat_ofInt]
    omega
  rw [plus, e]

/-- A register with lane `l` of 64 bits replaced. -/
def withLane (v : BitVec 4096) (l : Nat) (x : Word) : BitVec 4096 :=
  ofLanes 64 ((List.range 64).map fun i => if i == l then x.toNat else laneAt 64 v i)

theorem withLane_lane (v : BitVec 4096) (l : Nat) (x : Word) {k : Nat} (hk : k < 64) :
    (withLane v l x).extractLsb' (64 * k) 64 = if k = l then x else v.extractLsb' (64 * k) 64 := by
  rw [withLane, ← ofNat_laneAt, laneAt_ofLanes _ (by omega), ← ofNat_laneAt]
  simp only [List.getD_eq_getElem?_getD, List.getElem?_map, List.getElem?_range hk, Option.map_some, Option.getD_some, beq_iff_eq]
  split
  · rw [Nat.mod_eq_of_lt x.isLt, BitVec.ofNat_toNat, BitVec.setWidth_eq]
  · rw [Nat.mod_eq_of_lt (laneAt_lt 64 v k)]

/-! ### The obligation -/

section V
variable {v : VReg} {acc : BitVec 2} {seg : BitVec 6} {sr : Reg} (hb : b.onlyV = true) (h : s.issuable st c b = true)
  (hi : s.inside st c b = true)
include hb h hi

theorem exec_vrdacc (hv : b.v = .vrdacc v acc seg sr) : ∃ t x, exec (.vrdacc st b v acc seg sr) s = .next t ∧ OnlyStation st s t ∧
    (s.arch st).Issued (t.arch st) b ((s.arch st).next + 1) ∧ (s.arch st).WroteV (t.arch st) v x ∧
    ∀ i < 128, laneAt 32 x i = ((s.arch st).accAt acc (128 * (seg.toNat + ((s.arch st).sreg sr).toNat) + i)).toNat := by
  have hf := vFaults_ready h hv
  simp only [Site.vFaults, List.append_eq_nil_iff, wrV_nil] at hf
  obtain ⟨⟨-, hd⟩, -⟩ := hf
  obtain ⟨ho, hm, hw⟩ := issue_writesV h hi hb hd fun u => by rw [hv]; rfl
  refine ⟨_, _, row_of_v hv rfl, ho, hm, hw, fun i hi => ?_⟩
  rw [laneAt_ofLanes _ (by omega)]
  simp only [List.getD_eq_getElem?_getD, List.getElem?_map, List.getElem?_range hi, Option.map_some, Option.getD_some]
  exact Nat.mod_eq_of_lt (BitVec.isLt _)

theorem exec_vwracc (hv : b.v = .vwracc v acc seg sr) :
    let A := s.arch st
    let lo := 128 * (seg.toNat + (A.sreg sr).toNat)
    ∃ t, exec (.vwracc st b v acc seg sr) s = .next t ∧ OnlyStation st s t ∧ A.Issued (t.arch st) b (A.next + 1) ∧
      (∀ k i, i < 8192 → (t.arch st).accAt k i =
        if k = acc ∧ lo ≤ i ∧ i < lo + 128 then BitVec.ofNat 32 (laneAt 32 (A.vreg v) (i - lo)) else A.accAt k i) ∧
      (t.arch st).marks = .acc acc :: A.marks ∧ ({ t.arch st with accs := A.accs, marks := A.marks } : Arch).OnlyMoved A := by
  intro A lo
  have hf := vFaults_ready h hv
  simp only [Site.vFaults, List.append_eq_nil_iff, wrA_nil, faultIf_nil, decide_eq_false_iff_not, Nat.not_le] at hf
  obtain ⟨⟨-, hacc⟩, hseg⟩ := hf
  have hseg : seg.toNat + (A.sreg sr).toNat < 64 := hseg
  obtain ⟨ho, ha⟩ := issue_onlyV h hi hb (f := wroteAcc acc lo (A.vreg v)) (fun _ => rfl) fun u => by rw [hv]; rfl
  refine ⟨_, row_of_v hv rfl, ho, ?_⟩
  rw [ha]
  exact ⟨Issued.of (issued_take h (onlyV_noS hb) _), fun k i hlt => wroteAcc_accAt _ _ (by omega) hlt, mark_free hacc, rfl⟩

end V

section X
variable {v : VReg} {a : Reg} (hb : b.onlyX = true) (h : s.issuable st c b = true) (hi : s.inside st c b = true)
include hb h hi

theorem exec_vld {off : BitVec 12} (hx : b.x = .vld v a off) : ∃ t, exec (.vld st b v a off) s = .next t ∧ OnlyStation st s t ∧
    (s.arch st).Issued (t.arch st) b ((s.arch st).next + 1) ∧ (s.arch st).WroteV (t.arch st) v (BitVec.ofNat 4096
      (leNat (rdBytes (s.saddleSeen c st) ((s.arch st).sreg a + 64 * off.setWidth 64).toNat 512))) := by
  have hf := xFaults_ready h hx
  simp only [Site.xFaults, List.append_eq_nil_iff, wrV_nil] at hf
  obtain ⟨⟨⟨-, hd⟩, -⟩, -⟩ := hf
  obtain ⟨ho, ha⟩ := issue_onlyX h hi hb (f := fun p => p.setV v (BitVec.ofNat 4096
    (leNat (rdBytes (s.saddleSeen c st) (plus ((s.arch st).sreg a) (64 * off.toNat)) 512)))) (fun p => setV_next p _ _)
    (fun u => by simp only [hx, Site.xEffect, seenSite_sreg, seenSite_saddle, seenSite_st]) fun u => by rw [hx]; rfl
  refine ⟨_, row_of_x hx rfl, ho, ?_⟩
  rw [ha, plus_offset]
  exact ⟨Issued.setV (issued_take h (onlyX_noS hb) _) _ _, wroteV_setV _ _ hd⟩

theorem exec_xvs {lane : BitVec 6} (hx : b.x = .xvs v a lane) : ∃ t, exec (.xvs st b v a lane) s = .next t ∧ OnlyStation st s t ∧
    (s.arch st).Issued (t.arch st) b ((s.arch st).next + 1) ∧
    (s.arch st).WroteS (t.arch st) a (((s.arch st).vreg v).extractLsb' (64 * lane.toNat) 64) := by
  have hf := xFaults_ready h hx
  simp only [Site.xFaults, List.append_eq_nil_iff, wrS_nil] at hf
  obtain ⟨-, hd⟩ := hf
  obtain ⟨ho, ha⟩ := issue_onlyX h hi hb (f := fun p => p.setS a (BitVec.ofNat 64 (laneAt 64 ((s.arch st).vreg v) lane.toNat)))
    (fun p => setS_next p _ _) (fun u => by rw [hx]; rfl) fun u => by rw [hx]; rfl
  refine ⟨_, row_of_x hx rfl, ho, ?_⟩
  rw [ha, ofNat_laneAt]
  exact ⟨Issued.setS (issued_take h (onlyX_noS hb) _) _ _, wroteS_setS _ _ hd⟩

theorem exec_xsv {lane : BitVec 6} (hx : b.x = .xsv v a lane) : ∃ t x, exec (.xsv st b v a lane) s = .next t ∧ OnlyStation st s t ∧
    (s.arch st).Issued (t.arch st) b ((s.arch st).next + 1) ∧ (s.arch st).WroteV (t.arch st) v x ∧
    ∀ k < 64, x.extractLsb' (64 * k) 64 =
      if k = lane.toNat then (s.arch st).sreg a else ((s.arch st).vreg v).extractLsb' (64 * k) 64 := by
  have hf := xFaults_ready h hx
  simp only [Site.xFaults, List.append_eq_nil_iff, wrV_nil] at hf
  obtain ⟨-, hd⟩ := hf
  obtain ⟨ho, ha⟩ := issue_onlyX h hi hb (f := fun p => p.setV v (withLane (p.vreg v) lane.toNat ((s.arch st).sreg a)))
    (fun p => setV_next p _ _)
    (fun u => by rw [hx]; rfl) fun u => by rw [hx]; rfl
  refine ⟨_, withLane ((s.arch st).vreg v) lane.toNat ((s.arch st).sreg a), row_of_x hx rfl, ho, ?_⟩
  rw [ha, take_vreg]
  exact ⟨Issued.setV (issued_take h (onlyX_noS hb) _) _ _, wroteV_setV _ _ hd, fun k hk => withLane_lane _ _ _ hk⟩

end X

/-- Settles O7: each move is one change of its station (`issue_onlyV`, `issue_onlyX`). -/
theorem accumulatorsAndLanes : Obligations.AccumulatorsAndLanes :=
  ⟨fun _ _ _ _ _ _ _ _ hb h hi => ⟨exec_vrdacc hb h hi, exec_vwracc hb h hi⟩,
    fun _ _ _ _ _ _ hb h hi => ⟨fun _ => exec_vld hb h hi, fun _ => exec_xvs hb h hi, fun _ => exec_xsv hb h hi⟩⟩

end Sys2Proof.Laws
end

section
/-!
SUPPORT. A VQ's writes, its open block and the close of a block; what the weave takes at a WV; and the obligation on VQ, VDQ and WV (R83-R91,
R138-R142, R153-R155).
-/

namespace Sys2Proof.Laws

open Sys2Proof Sys2Proof.Machine

variable {s : State} {st c : Nat} {b : Bundle}

/-! ### Storms (R90) -/

/-- The step's counts with a storm noted when its detours exceed ALLOW. -/
def stormNoted (p : Policy) (m : StepSum) : StepSum := { m with storm := m.storm || decide (p.allow < m.detoured) }

/-- A storm is noted in the context, in the gate die's counts and in an event. -/
theorem checkStorm_spec (s : State) (c : Nat) : (s.checkStorm c).stns = s.stns ∧ (s.checkStorm c).sched = s.sched ∧
    (s.checkStorm c).ctx c = { s.ctx c with sum := stormNoted (s.ctx c).policy (s.ctx c).sum } := by
  unfold State.checkStorm
  extract_lets k u
  have hu : u.ctx c = { s.ctx c with sum := { (s.ctx c).sum with storm := true } } := modCtx_ctx_same s c _
  split
  · rename_i h
    have e : stormNoted k.policy k.sum = k.sum := by
      have hs : (k.sum.storm || decide (k.policy.allow < k.sum.detoured)) = k.sum.storm := by
        rcases (Bool.or_eq_true _ _).mp h with h | h
        · rw [h, Bool.true_or]
        · rw [decide_eq_false (Nat.not_lt.mpr (of_decide_eq_true h)), Bool.or_false]
      rw [stormNoted, hs]
    exact ⟨rfl, rfl, by rw [e]⟩
  · rename_i h
    have e : stormNoted k.policy k.sum = { k.sum with storm := true } := by
      have hs : (k.sum.storm || decide (k.policy.allow < k.sum.detoured)) = true := by
        simp only [Bool.or_eq_true, decide_eq_true_eq, not_or, Nat.not_le] at h
        rw [decide_eq_true h.2, Bool.or_true]
      rw [stormNoted, hs]
    rw [e]
    split
    · exact ⟨postEvent_stns _ _ _ _, postEvent_sched _ _ _ _, (postEvent_ctx _ _ _ _ c).trans hu⟩
    · exact ⟨rfl, rfl, hu⟩

/-! ### What a VQ writes in its station (R83, R87, R153, R154) -/

/-- The station after the writes `ws` of a VQ that names `tag`: its open-block table, and its quota when the block's detour spends of it. -/
def vqWrote (tag : Nat) (ws : List (Nat × Bytes)) (blocks : List OpenBlock) (spends : Bool) (a : Arch) : Arch :=
  let a := ws.foldl (fun a w => a.store w.1 w.2) (a.over tag ws)
  { a.mark (.tag tag) with openBlocks := blocks, quota := if spends then a.quota.map (· - 1) else a.quota }

/-- Stores change the saddlebag, the notes of writes and the ranges of substituted bytes alone. -/
theorem foldl_store (ws : List (Nat × Bytes)) (a : Arch) : ∃ writes wide, ws.foldl (fun a w => a.store w.1 w.2) a =
    { a with saddle := ws.foldl (fun m w => wrBytes m w.1 w.2) a.saddle, writes := writes, wide := wide } := by
  induction ws generalizing a with
  | nil => exact ⟨_, _, rfl⟩
  | cons w ws ih =>
    obtain ⟨writes, wide, e⟩ := ih (a.store w.1 w.2)
    exact ⟨writes, wide, e⟩

theorem pending_mark (a : Arch) (m k : Mark) : (a.mark m).pending k = (a.pending k || k == m) := by
  unfold Arch.pending Arch.mark
  dsimp only
  split
  · rename_i h
    by_cases e : k = m
    · subst e
      rw [h, Bool.true_or]
    · rw [beq_false_of_ne e, Bool.or_false]
  · rw [List.contains_cons, Bool.or_comm]

theorem vqWrote_spec (tag : Nat) (ws : List (Nat × Bytes)) (blocks : List OpenBlock) (spends : Bool) (a : Arch) :
    ∃ writes wide marks quantised, vqWrote tag ws blocks spends a = { a with
      saddle := ws.foldl (fun m w => wrBytes m w.1 w.2) a.saddle, writes := writes, wide := wide, openBlocks := blocks
      quota := if spends then a.quota.map (· - 1) else a.quota, marks := marks, quantised := quantised } := by
  obtain ⟨writes, wide, e⟩ := foldl_store ws (a.over tag ws)
  refine ⟨writes, wide, (a.mark (.tag tag)).marks, (a.over tag ws).quantised, ?_⟩
  unfold vqWrote
  rw [e]
  rfl

theorem vqWrote_next (tag : Nat) (ws : List (Nat × Bytes)) (blocks : List OpenBlock) (spends : Bool) (a : Arch) :
    (vqWrote tag ws blocks spends a).next = a.next := by
  obtain ⟨_, _, _, _, e⟩ := vqWrote_spec tag ws blocks spends a
  rw [e]

theorem vqWrote_marks (tag : Nat) (ws : List (Nat × Bytes)) (blocks : List OpenBlock) (spends : Bool) (a : Arch) :
    (vqWrote tag ws blocks spends a).pending (.tag tag) = true := by
  refine (pending_mark _ (.tag tag) _).trans ?_
  rw [beq_self_eq_true, Bool.or_true]

/-- What the bytes of a VQ's writes held is kept for source reads (R163). -/
theorem vqWrote_unsettled {tag : Nat} {ws : List (Nat × Bytes)} (blocks : List OpenBlock) (spends : Bool) (a : Arch) {w : Nat × Bytes}
    (hw : w ∈ ws) : (w.1, rdBytes a.saddle w.1 w.2.length) ∈ (vqWrote tag ws blocks spends a).unsettled := by
  obtain ⟨writes, wide, e⟩ := foldl_store ws (a.over tag ws)
  have hq : (vqWrote tag ws blocks spends a).quantised = (a.over tag ws).quantised := by
    unfold vqWrote
    rw [e]
    rfl
  refine List.mem_map.mpr ⟨(tag, w.1, rdBytes a.saddle w.1 w.2.length), List.mem_filter.mpr ⟨?_, vqWrote_marks _ _ _ _ _⟩, rfl⟩
  rw [hq]
  exact List.mem_append_right _ (List.mem_map.mpr ⟨w, hw, rfl⟩)

/-! ### The accept of a job (R141, R142) -/

theorem foldl_mark (l : List (BitVec 2)) (a : Arch) : ∃ marks, l.foldl (fun a k => a.mark (.acc k)) a = { a with marks := marks } ∧
    ∀ k, marks.contains k = (a.pending k || l.any fun x => k == .acc x) := by
  induction l generalizing a with
  | nil => exact ⟨_, rfl, fun k => (Bool.or_false _).symm⟩
  | cons x l ih =>
    obtain ⟨marks, e, hm⟩ := ih (a.mark (.acc x))
    exact ⟨marks, e, fun k => by rw [hm, pending_mark, List.any_cons, Bool.or_assoc]⟩

/-- An idle weave fills the job, a busy one holds it to start; the accumulators that it writes are marked. -/
theorem accept_spec (a : Arch) (j : WvJob) : ∃ marks producers, a.accept j = { a with
      topups := none, marks := marks, producers := producers, weaveRun := if a.weaveRun = [] then [j] else a.weaveRun
      weaveWait := if a.weaveRun = [] then a.weaveWait else some j } ∧
    ∀ k, marks.contains k = (a.pending k || (wvAccs j.op).any fun x => k == .acc x) := by
  obtain ⟨marks, e, hm⟩ := foldl_mark (wvAccs j.op) { a with topups := none }
  refine ⟨marks, if j.op.ten then mset .unattributed a.producers j.op.t.toNat .weave else a.producers, ?_, hm⟩
  unfold Arch.accept
  rw [e]
  by_cases hr : a.weaveRun = []
  case pos => cases j.op.ten <;> simp [hr]
  case neg => cases j.op.ten <;> simp [hr]

/-! ### VQ (R83, R90, R91) -/

/-- What closing a block does beyond its station: the step's counts, and a storm (R90, R91). -/
def blockEnds (closes : Bool) (tag : TagWord) (c : Nat) (s : State) : State :=
  if closes then (s.modCtx c fun k => { k with sum := k.sum.add tag }).checkStorm c else s

theorem blockEnds_spec (closes : Bool) (tag : TagWord) (c : Nat) (s : State) : (blockEnds closes tag c s).stns = s.stns ∧
    (blockEnds closes tag c s).sched = s.sched ∧ ((blockEnds closes tag c s).ctx c).itin = (s.ctx c).itin ∧
    ((blockEnds closes tag c s).ctx c).store = (s.ctx c).store ∧ ((blockEnds closes tag c s).ctx c).sum =
      if closes then stormNoted (s.ctx c).policy ((s.ctx c).sum.add tag) else (s.ctx c).sum := by
  cases closes with
  | false => exact ⟨rfl, rfl, rfl, rfl, rfl⟩
  | true =>
    obtain ⟨hs, hd, hc⟩ := checkStorm_spec (s.modCtx c fun k => { k with sum := k.sum.add tag }) c
    rw [modCtx_ctx_same] at hc
    have hitin := congrArg Ctx.itin hc
    have hstore := congrArg Ctx.store hc
    have hsum := congrArg Ctx.sum hc
    exact ⟨hs, hd, hitin, hstore, hsum⟩

/-- A ready bundle without an S operation whose slots leave the state `v`: their effect on the station is `f`. -/
theorem issue_leaves {v : State} {f : Arch → Arch} (hi : s.inside st c b = true) (hs : b.s = .nop) (hf : ∀ a, (f a).next = a.next)
    (ho : OnlyStation st s ((slotState s st c b).modArch st f)) (hstn : v.stns = ((slotState s st c b).modArch st f).stns)
    (hsched : v.sched = ((slotState s st c b).modArch st f).sched)
    (hitin : (v.ctx c).itin = (((slotState s st c b).modArch st f).ctx c).itin)
    (he : s.issue st b = (v.modArch st id).streamEnd c (s.relStn c st)) :
    (∀ j, j ≠ st → (s.issue st b).stn j = s.stn j) ∧ (s.issue st b).arch st = f ((s.arch st).take b ((s.arch st).next + 1)) ∧
      (s.issue st b).ctx c = v.ctx c := by
  have hva : v.arch st = f ((s.arch st).take b ((s.arch st).next + 1)) := by
    rw [State.arch, State.stn, hstn]
    exact (modArch_arch_same _ st f).trans (by rw [slotState_moved hs])
  have ha : (v.modArch st id).arch st = f ((s.arch st).take b ((s.arch st).next + 1)) := by rw [modArch_arch_same, id_eq, hva]
  have hend : (v.modArch st id).streamEnd c (s.relStn c st) = v.modArch st id :=
    streamEnd_within hi (hitin.trans (onlyStation_ctx ho c).1) (hsched.trans (onlyStation_sched ho)) (by rw [ha, hf, hs]; rfl)
  rw [he, hend]
  refine ⟨fun j hj => ?_, ha, rfl⟩
  rw [modArch_stn_ne _ _ hj, State.stn, hstn]
  exact ho.2.1 j hj

/-- What the slots of a bundle find of its context but for the marks of blocking and the energy account. -/
theorem slotState_ctx (s : State) (st c : Nat) (b : Bundle) : ((slotState s st c b).ctx c).sum = (s.ctx c).sum ∧
    ((slotState s st c b).ctx c).policy = (s.ctx c).policy ∧ ((slotState s st c b).ctx c).store = (s.ctx c).store := by
  have h := (onlyStation_slotState s st c b).2.2.2 c
  have hsum := congrArg Ctx.sum h
  have hpol := congrArg Ctx.policy h
  have hstore := congrArg Ctx.store h
  exact ⟨hsum, hpol, hstore⟩

/-- A V operation alone in a ready bundle, whose effect on its station is `f` and which may end a block. -/
theorem issue_block (h : s.issuable st c b = true) (hi : s.inside st c b = true) (hb : b.onlyV = true) {f : Arch → Arch} {closes : Bool}
    {tag : TagWord} (hf : ∀ a, (f a).next = a.next)
    (he : ∀ u, (s.seenSite st c).vEffect b.v u = blockEnds closes tag c (u.modArch st f)) :
    (∀ j, j ≠ st → (s.issue st b).stn j = s.stn j) ∧ (s.issue st b).arch st = f ((s.arch st).take b ((s.arch st).next + 1)) ∧
      ((s.issue st b).ctx c).sum = (if closes then stormNoted (s.ctx c).policy ((s.ctx c).sum.add tag) else (s.ctx c).sum) ∧
      ((s.issue st b).ctx c).store = (s.ctx c).store := by
  have hs : b.s = .nop := onlyV_noS hb
  simp only [Bundle.onlyV, Bool.and_eq_true, beq_iff_eq] at hb
  obtain ⟨⟨hm, -⟩, hx⟩ := hb
  obtain ⟨hes, hed, hei, hest, hesum⟩ := blockEnds_spec closes tag c ((slotState s st c b).modArch st f)
  obtain ⟨hsum, hpol, hstore⟩ := slotState_ctx s st c b
  obtain ⟨hstn, ha, hc⟩ := issue_leaves hi hs hf (onlyStation_modArch (onlyStation_slotState s st c b) f) hes hed hei (by
      rw [issue_ready h, issueAt_eq, hm, hs, hx]
      dsimp only [Site.mEffect]
      rw [he]
      rfl)
  refine ⟨hstn, ha, ?_, ?_⟩
  · rw [hc, hesum, ← hsum, ← hpol]
    rfl
  · rw [hc, hest]
    exact hstore

/-- A VQ's effect: its writes, its open block, and at a close the step's counts. -/
theorem vq_blockEnds (x : Site) (q : VqOp) (s : State) :
    let a := x.a
    let f := q.fmt.toNat
    let h := b2n q.half
    let tr := (a.sreg q.tr).toNat
    let vals := laneVals .f32 (a.vreg q.a)
    let r := quantise f (if q.xscale then some (laneAt 8 (a.vreg q.mv) 0) else none) (vqScale (a.vreg q.mv)) vals
    let shadow := if q.shadow then halfWrites 4 h (a.sreg q.hr).toNat (quantise 4 none .zero vals) else []
    let old : TagWord := if q.mode.getLsbD 0 then { eligible := q.shadow } else .ofNat (leNat (rdBytes a.saddle tr 8))
    let before := if q.mode.getLsbD 0 then 0 else ((a.openBlocks.find? fun o => o.tag == tr).map (·.count)).getD 0
    let sum : TagWord := { old with
      nonfinite := old.nonfinite || vals.any fun v => !v.isFin
      sat := old.sat + (r.2.filter (·.sat)).length, flush := old.flush + (r.2.filter (·.flush)).length }
    let closes : Bool := q.mode.getLsbD 1 || before + 128 == 4096
    let tag := if closes then sum.close x.k.policy x.k.step a.quota else sum
    let rest := a.openBlocks.filter fun o => o.tag != tr
    x.vq q s = blockEnds closes tag x.c (s.modArch x.st (vqWrote tr
      (halfWrites f h (a.sreg q.dr).toNat r ++ shadow ++ [(tr, toLe 8 tag.toNat)])
      (if closes then rest else rest ++ [⟨tr, before + 128, q.shadow⟩]) (closes && tag.detour))) := by
  unfold Site.vq
  dsimp only
  cases x.a.openBlocks.find? fun o => o.tag == (x.a.sreg q.tr).toNat <;> rfl

/-- A VQ alone in a ready bundle, of which the writes, the open-block table and the close are known. -/
theorem issue_vq {q : VqOp} {tr : Nat} {ws : List (Nat × Bytes)} {blocks : List OpenBlock} {spends closes : Bool} {tag : TagWord}
    (h : s.issuable st c b = true) (hi : s.inside st c b = true) (hb : b.onlyV = true) (hv : b.v = .vq q)
    (he : ∀ u, (s.seenSite st c).vq q u = blockEnds closes tag c (u.modArch st (vqWrote tr ws blocks spends))) :
    ∃ t, exec (.vq st b q) s = .next t ∧ (∀ j, j ≠ st → t.stn j = s.stn j) ∧
      (s.arch st).Issued (t.arch st) b ((s.arch st).next + 1) ∧
      (t.arch st).saddle = ws.foldl (fun m w => wrBytes m w.1 w.2) (s.arch st).saddle ∧ (t.arch st).openBlocks = blocks ∧
      (t.arch st).quota = (if spends then (s.arch st).quota.map (· - 1) else (s.arch st).quota) ∧
      Mark.tag tr ∈ (t.arch st).marks ∧
      (∀ w ∈ ws, (w.1, rdBytes (s.arch st).saddle w.1 w.2.length) ∈ (t.arch st).unsettled) ∧
      ({ t.arch st with
        saddle := (s.arch st).saddle, writes := (s.arch st).writes, wide := (s.arch st).wide, openBlocks := (s.arch st).openBlocks
        quota := (s.arch st).quota, marks := (s.arch st).marks, quantised := (s.arch st).quantised } : Arch).OnlyMoved (s.arch st) ∧
      (t.ctx c).sum = (if closes then stormNoted (s.ctx c).policy ((s.ctx c).sum.add tag) else (s.ctx c).sum) ∧
      (t.ctx c).store = (s.ctx c).store := by
  obtain ⟨hstn, ha, hsum, hstore⟩ := issue_block h hi hb (vqWrote_next tr ws blocks spends) fun u => by rw [hv]; exact he u
  obtain ⟨writes, wide, marks, quantised, e⟩ := vqWrote_spec tr ws blocks spends ((s.arch st).take b ((s.arch st).next + 1))
  have hm := vqWrote_marks tr ws blocks spends ((s.arch st).take b ((s.arch st).next + 1))
  have hu := fun w => vqWrote_unsettled (tag := tr) (w := w) (ws := ws) blocks spends ((s.arch st).take b ((s.arch st).next + 1))
  rw [e] at hm hu ha
  refine ⟨_, row_of_v hv rfl, hstn, ?_⟩
  rw [ha]
  exact ⟨Issued.of (issued_take h (onlyV_noS hb) _), rfl, rfl, rfl, List.contains_iff_mem.mp hm, hu, rfl, hsum, hstore⟩

/-! ### VDQ (R155) -/

theorem laneAt_halfVals (f h : Nat) (rec_ : Bytes) {k : Nat} (hk : k < 128) :
    laneAt 32 (ofVals .f32 (halfVals f h rec_)) k = FpFmt.f32.encode (recordElem f rec_ (128 * h + k)) % 2 ^ 32 := by
  have hb : FpFmt.f32.bits = 32 := rfl
  rw [ofVals, hb, laneAt_ofLanes _ (by omega)]
  simp only [halfVals, List.map_map, List.getD_eq_getElem?_getD, List.getElem?_map, List.getElem?_range hk, Option.map_some,
    Option.getD_some, Function.comp_apply]

/-! ### WV (R141, R142) -/

theorem onlyM_noS (hb : b.onlyM = true) : b.s = .nop := by
  simp only [Bundle.onlyM, Bool.and_eq_true, beq_iff_eq] at hb
  exact hb.1.2

theorem job_op (x : Site) (o : WvOp) : (x.job o).op = o := by
  unfold Site.job
  extract_lets n ar wr g j
  split <;> rfl

/-- The summary's note that a WV read bytes of a substituted tensor (R91). -/
def wideNoted (wide : Bool) (c : Nat) (s : State) : State :=
  if wide then s.modCtx c fun k => { k with sum := { k.sum with wideRef := true } } else s

theorem wideNoted_spec (wide : Bool) (c : Nat) (s : State) : (wideNoted wide c s).stns = s.stns ∧ (wideNoted wide c s).sched = s.sched ∧
    ((wideNoted wide c s).ctx c).itin = (s.ctx c).itin ∧ ((wideNoted wide c s).ctx c).store = (s.ctx c).store := by
  cases wide with
  | false => exact ⟨rfl, rfl, rfl, rfl⟩
  | true =>
    refine ⟨rfl, rfl, ?_, ?_⟩
    all_goals
      unfold wideNoted
      rw [if_pos rfl, modCtx_ctx_same]

/-- A WV alone in a ready bundle: the weave takes the job that the bundle's reads give. -/
theorem issue_wv {o : WvOp} (h : s.issuable st c b = true) (hi : s.inside st c b = true) (hb : b.onlyM = true) (hm : b.m = .wv o) :
    (∀ j, j ≠ st → (s.issue st b).stn j = s.stn j) ∧
      (s.issue st b).arch st = ((s.arch st).take b ((s.arch st).next + 1)).accept ((s.seenSite st c).job o) ∧
      ((s.issue st b).ctx c).store = (s.ctx c).store := by
  simp only [Bundle.onlyM, Bool.and_eq_true, beq_iff_eq] at hb
  obtain ⟨⟨hv, hs⟩, hx⟩ := hb
  have hf (a : Arch) : (a.accept ((s.seenSite st c).job o)).next = a.next := by
    obtain ⟨_, _, e, -⟩ := accept_spec a ((s.seenSite st c).job o)
    rw [e]
  obtain ⟨hws, hwd, hwi, hwst⟩ := wideNoted_spec ((s.seenSite st c).readsWide o) c
    ((slotState s st c b).modArch st fun a => a.accept ((s.seenSite st c).job o))
  obtain ⟨hstn, ha, hc⟩ := issue_leaves hi hs hf (onlyStation_modArch (onlyStation_slotState s st c b) _) hws hwd hwi (by
    rw [issue_ready h, issueAt_eq, hm, hv, hs, hx]
    rfl)
  refine ⟨hstn, ha, ?_⟩
  rw [hc, hwst]
  exact (slotState_ctx s st c b).2.2

/-! ### The obligation -/

/-- Settles O8: a VQ is writes, an open block and perhaps its close (`vq_blockEnds`, `issue_vq`); a VDQ writes one register
(`issue_writesV`); at a WV the weave takes the job that the reads give (`issue_wv`, `accept_spec`). -/
theorem quantiseAndWeave : Obligations.QuantiseAndWeave := by
  refine ⟨fun s st c b hb h hi => ⟨?_, ?_⟩, ?_⟩
  · intro q hv f hf tr vals r shadow old before sum closes tag rest
    exact issue_vq (closes := closes) (tag := tag) h hi hb hv (vq_blockEnds (s.seenSite st c) q)
  · intro d ar fmt half hv
    have hf := vFaults_ready h hv
    simp only [Site.vFaults, List.append_eq_nil_iff, wrV_nil] at hf
    obtain ⟨⟨⟨⟨-, hd⟩, -⟩, -⟩, -⟩ := hf
    obtain ⟨ho, hm, hw⟩ := issue_writesV h hi hb hd fun u => by rw [hv]; rfl
    exact ⟨_, _, row_of_v hv rfl, ho, hm, hw, fun k hk => laneAt_halfVals _ _ _ hk⟩
  · intro s st c b o hb hm h hi A j
    obtain ⟨hstn, ha, hstore⟩ := issue_wv h hi hb hm
    refine ⟨_, row_of_m hm rfl, ?_⟩
    obtain ⟨marks, producers, e, hmarks⟩ := accept_spec (A.take b (A.next + 1)) j
    rw [show j.op = o from job_op _ o] at hmarks
    rw [e] at ha
    rw [ha]
    exact ⟨Issued.of (issued_take h (onlyM_noS hb) _), rfl, rfl, hmarks, rfl, rfl, hstn, hstore⟩

end Sys2Proof.Laws
end

section
/-!
SUPPORT. What the beginning of a teardown changes and what it leaves alone (R372): other contexts, images, the registers of slices and
stacks, and where caravan schedules stand (R190).
-/

namespace Sys2Proof.Laws

open Sys2Proof Sys2Proof.Machine

variable {r s t : State} {l : List Nat} {c : Nat}

/-! ### Where caravan schedules stand (R190) -/

/-- Where a context's caravan schedule stands: its live groups, the next one and the pass. -/
def schedule (k : Ctx) : List GroupRun × Nat × Nat := (k.caravan.live, k.caravan.next, k.caravan.pass)

/-- Every context's schedule stands where it stood. -/
def SameSchedules (s t : State) : Prop := ∀ c, schedule (t.ctx c) = schedule (s.ctx c)

theorem SameSchedules.refl (s : State) : SameSchedules s s := fun _ => rfl

theorem SameSchedules.trans (h : SameSchedules r s) (k : SameSchedules s t) : SameSchedules r t := fun c => (k c).trans (h c)

/-- A change of no context. -/
theorem SameSchedules.frame (h : SameSchedules r s) (hc : t.ctxs = s.ctxs := by rfl) : SameSchedules r t :=
  h.trans fun c => by rw [State.ctx, hc, State.ctx]

theorem SameSchedules.modCtx {f : Ctx → Ctx} (h : SameSchedules r s) (hf : ∀ k, schedule (f k) = schedule k := by intro; rfl) :
    SameSchedules r (s.modCtx c f) := by
  refine h.trans fun d => ?_
  rw [modCtx_ctx]
  split
  · rename_i e
    rw [hf, e]
  · rfl

theorem SameSchedules.ite {p : Prop} {d : Decidable p} {a b : State} (ha : SameSchedules r a) (hb : SameSchedules r b) :
    SameSchedules r (if p then a else b) := by
  split
  · exact ha
  · exact hb

theorem SameSchedules.foldl {α : Type} {l : List α} {f : State → α → State} (h : SameSchedules r s)
    (hf : ∀ s x, SameSchedules r s → SameSchedules r (f s x)) : SameSchedules r (l.foldl f s) :=
  List.foldlRecOn (motive := fun u => SameSchedules r u) l f h fun u hu x _ => hf u x hu

/-! ### What a teardown gives up (R229, R310, R358, R372) -/

/-- From `s` to `t` contexts of `l` alone give up stations, units, sequences and pages; schedules stand. -/
structure Releases (l : List Nat) (s t : State) : Prop where
  frame : ∃ parts ctxs stns tally fab pfx pages seals kvw, t = { s with
    parts := parts, ctxs := ctxs, stns := stns, tally := tally, fab := fab, pfx := pfx, pages := pages, seals := seals, kvw := kvw }
  ctx : ∀ d, d ∉ l → t.ctx d = s.ctx d
  schedules : SameSchedules s t
  pages : t.pages ⊆ s.pages

theorem Releases.refl (l : List Nat) (s : State) : Releases l s s :=
  ⟨⟨_, _, _, _, _, _, _, _, _, rfl⟩, fun _ _ => rfl, .refl s, List.Subset.refl _⟩

theorem Releases.trans (h : Releases l r s) (k : Releases l s t) : Releases l r t where
  frame := by
    obtain ⟨_, _, _, _, _, _, _, _, _, rfl⟩ := h.frame
    obtain ⟨_, _, _, _, _, _, _, _, _, rfl⟩ := k.frame
    exact ⟨_, _, _, _, _, _, _, _, _, rfl⟩
  ctx d hd := (k.ctx d hd).trans (h.ctx d hd)
  schedules := h.schedules.trans k.schedules
  pages := List.Subset.trans k.pages h.pages

/-- A change of neither contexts nor pages. -/
theorem Releases.book (h : Releases l r s)
    (hf : ∃ parts stns tally fab pfx seals kvw, t = { s with
      parts := parts, stns := stns, tally := tally, fab := fab, pfx := pfx, seals := seals, kvw := kvw } := by
        exact ⟨_, _, _, _, _, _, _, rfl⟩) : Releases l r t := by
  obtain ⟨_, _, _, _, _, _, _, rfl⟩ := hf
  exact h.trans ⟨⟨_, _, _, _, _, _, _, _, _, rfl⟩, fun _ _ => rfl, .refl s, List.Subset.refl _⟩

theorem Releases.modCtx {f : Ctx → Ctx} (h : Releases l r s) (hc : c ∈ l) (hf : ∀ k, schedule (f k) = schedule k := by intro; rfl) :
    Releases l r (s.modCtx c f) :=
  h.trans ⟨⟨_, _, _, _, _, _, _, _, _, rfl⟩, fun _ hd => modCtx_ctx_ne s f fun e => hd (e ▸ hc), (SameSchedules.refl s).modCtx hf,
    List.Subset.refl _⟩

theorem Releases.ite {p : Prop} {d : Decidable p} {a b : State} (ha : Releases l r a) (hb : Releases l r b) :
    Releases l r (if p then a else b) := by
  split
  · exact ha
  · exact hb

theorem Releases.foldNat {m : List Nat} {f : State → Nat → State} (h : Releases l r s)
    (hf : ∀ s n, n ∈ m → Releases l r s → Releases l r (f s n)) : Releases l r (s.foldNat m f) := foldNat_keeps s m f h hf

theorem Releases.dropPages {p b n : Nat} (h : Releases l r s) : Releases l r (s.dropPages p b n) :=
  h.trans ⟨⟨_, _, _, _, _, _, _, _, _, rfl⟩, fun _ _ => rfl, .refl s, fun _ hg => List.mem_of_mem_filter hg⟩

theorem Releases.modStn {i : Nat} {f : Stn → Stn} (h : Releases l r s) : Releases l r (s.modStn i f) := h.book

theorem Releases.modPart {p : Nat} {f : Part → Part} (h : Releases l r s) : Releases l r (s.modPart p f) := h.book

theorem Releases.charge {p pj f : Nat} (h : Releases l r s) (hc : c ∈ l) : Releases l r (s.charge p (some c) pj f) :=
  h.modPart.modCtx hc

theorem Releases.storeTraffic {cls a n : Nat} (h : Releases l r s) (hc : c ∈ l) : Releases l r (s.storeTraffic c cls a n) :=
  h.foldNat fun _ _ _ h => by
    dsimp only
    split
    · exact h
    · exact h.modStn.charge hc

theorem Releases.unrefOnly {i : Nat} (h : Releases l r s) : Releases l r (s.unrefOnly i) := by
  unfold State.unrefOnly
  split
  · exact h
  · exact h.book

theorem Releases.removeEntry {i : Nat} (h : Releases l r s) : Releases l r (s.removeEntry i) := by
  unfold State.removeEntry
  split
  · exact h
  · have hd (p b n : Nat) : Releases l r ((s.setLedger i none).dropPages p b n) := Releases.dropPages h.book
    dsimp only
    split
    · exact (hd _ _ _).unrefOnly
    · exact hd _ _ _

theorem Releases.sweepPoison {n i : Nat} (h : Releases l r s) : Releases l r (State.sweepPoison n i s) := by
  induction n generalizing i s with
  | zero => exact h
  | succ n ih =>
    unfold State.sweepPoison
    split
    · exact h
    · refine .ite ?_ h
      split
      · exact ih h.removeEntry
      · exact h.removeEntry

theorem Releases.releaseBlock {q b : Nat} {v : KvConf} (h : Releases l r s) (hc : c ∈ l) : Releases l r (s.releaseBlock c q b v) :=
  .ite h (Releases.storeTraffic
    (Releases.modCtx (.ite (Releases.sweepPoison h.unrefOnly) (Releases.dropPages (h.modCtx hc))) hc) hc)

theorem Releases.releaseSeq {q : Nat} {v : KvConf} (h : Releases l r s) (hc : c ∈ l) : Releases l r (s.releaseSeq c q v) :=
  ((h.foldNat fun _ _ _ h => h.releaseBlock hc).modCtx hc).storeTraffic hc

theorem Releases.releaseAll (h : Releases l r s) (hc : c ∈ l) : Releases l r (s.releaseAll c) := by
  unfold State.releaseAll
  dsimp only
  split
  · exact h.book
  · exact Releases.book (h.foldNat fun _ _ _ h => h.releaseSeq hc)

theorem schedule_account (k : Ctx) (now : Nat) : schedule (k.account now) = schedule k := by
  unfold Ctx.account
  split <;> rfl

theorem Releases.leaveStations (h : Releases l r s) (hc : c ∈ l) : Releases l r (s.leaveStations c) :=
  .ite ((h.foldNat fun _ _ _ h => h.modStn).modPart.modCtx hc fun k => schedule_account k _) h

theorem Releases.abandonUnits (h : Releases l r s) : Releases l r (s.abandonUnits c) := h.foldNat fun _ _ _ h => h.book

theorem releases_beginTeardown (s : State) (hc : c ∈ l) (reason detail : BitVec 8) (station : BitVec 16) (bundle : Nat) :
    Releases l s (s.beginTeardown c reason detail station bundle) :=
  have h : Releases l s s := .refl l s
  .ite h (.ite (h.modCtx hc) (Releases.modCtx (Releases.book (((h.leaveStations hc).abandonUnits).releaseAll hc)) hc))

/-! ### Contexts torn down with reason 0x05 (R196) -/

/-- A context that `k` was is being torn down as `k'`: one that was not yet, with reason 0x05 from time `now`. -/
def Ends (now : Nat) (k k' : Ctx) : Prop :=
  k.state ≠ .free → k'.state = .tearingDown ∧ (k.state ≠ .tearingDown → k'.teardown = some { reason := 5, since := now })

theorem merge_self (u : Teardown) : u.merge u = u := by
  unfold Teardown.merge
  split <;> rfl

theorem beginTeardown_tearing (h : (s.ctx c).state = .tearingDown) (reason : BitVec 8) :
    (s.beginTeardown c reason).ctx c = { s.ctx c with
      teardown := (s.ctx c).teardown.map (·.merge { reason := reason, since := s.now }) } := by
  unfold State.beginTeardown
  extract_lets k u
  have hk : k.state = .tearingDown := h
  rw [if_neg (by simp [hk]), if_pos (by simp [hk])]
  exact modCtx_ctx_same s c _

theorem ends_beginTeardown (s : State) (c : Nat) : Ends s.now (s.ctx c) ((s.beginTeardown c 5).ctx c) := by
  intro hf
  by_cases ht : (s.ctx c).state = .tearingDown
  · rw [beginTeardown_tearing ht]
    exact ⟨ht, fun h => absurd ht h⟩
  · unfold State.beginTeardown
    extract_lets k u fallen v w x
    rw [if_neg (by simpa [k] using hf), if_neg (by simpa [k] using ht), modCtx_ctx_same]
    exact ⟨rfl, fun _ => rfl⟩

/-- Another teardown of the same reason and time leaves it so. -/
theorem Ends.beginTeardown {k : Ctx} (h : Ends s.now k (s.ctx c)) (d : Nat) : Ends s.now k ((s.beginTeardown d 5).ctx c) := by
  by_cases e : c = d
  · subst e
    intro hf
    obtain ⟨hs, ht⟩ := h hf
    rw [beginTeardown_tearing hs]
    refine ⟨hs, fun hk => ?_⟩
    dsimp only
    rw [ht hk, Option.map_some, merge_self]
  · rw [(releases_beginTeardown (l := [d]) s (List.mem_singleton_self d) 5 0 0xFFFF 0).ctx c (by simpa using e)]
    exact h

/-- The contexts of a list begin to be torn down with reason 0x05. -/
def tearEach (s : State) (l : List Nat) : State := s.foldNat l fun s c => s.beginTeardown c 5

theorem releases_tearEach (s : State) (l : List Nat) : Releases l s (tearEach s l) :=
  Releases.foldNat (.refl l s) fun s _ hc h => h.trans (releases_beginTeardown s hc 5 0 0xFFFF 0)

theorem Releases.now (h : Releases l s t) : t.now = s.now := by
  obtain ⟨_, _, _, _, _, _, _, _, _, rfl⟩ := h.frame
  rfl

theorem Ends.tearEach {k : Ctx} (h : Ends s.now k (s.ctx c)) (l : List Nat) : Ends s.now k ((tearEach s l).ctx c) := by
  induction l generalizing s with
  | nil => exact h
  | cons d l ih =>
    have hn : (s.beginTeardown d 5).now = s.now := (releases_beginTeardown (l := [d]) s (List.mem_singleton_self d) 5 0 0xFFFF 0).now
    have hd := h.beginTeardown d
    rw [← hn] at hd ⊢
    exact ih hd

theorem ends_tearEach (s : State) (hc : c ∈ l) : Ends s.now (s.ctx c) ((tearEach s l).ctx c) := by
  induction l generalizing s with
  | nil => cases hc
  | cons d l ih =>
    have hr := releases_beginTeardown (l := [d]) s (List.mem_singleton_self d) 5 0 0xFFFF 0
    rw [← hr.now]
    by_cases e : c = d
    · subst e
      refine Ends.tearEach ?_ l
      rw [hr.now]
      exact ends_beginTeardown s c
    · rw [← hr.ctx c (by simpa using e)]
      exact ih (s.beginTeardown d 5) ((List.mem_cons.mp hc).resolve_left e)

end Sys2Proof.Laws
end

section
/-!
SUPPORT. Uncorrectable HBM errors (R196, R206), the patrol scrub (R195, R197) and the transit buffers (R173), with the obligation on them.
-/

namespace Sys2Proof.Laws

open Sys2Proof Sys2Proof.Machine

variable {s t : State} {c n : Nat}

theorem setBit_getLsbD (w : Word) {i : Nat} (hi : i < 64) : (setBit w i).getLsbD i = true := by
  simp only [setBit, BitVec.getLsbD_or, BitVec.getLsbD_ofNat, hi, decide_true, Nat.testBit_two_pow_self, Bool.and_self, Bool.or_true]

theorem Releases.stks {l : List Nat} (h : Releases l s t) : t.stks = s.stks ∧ t.pending = s.pending := by
  obtain ⟨_, _, _, _, _, _, _, _, _, rfl⟩ := h.frame
  exact ⟨rfl, rfl⟩

theorem Releases.cst {l : List Nat} (h : Releases l s t) : t.cst = s.cst ∧ t.images = s.images := by
  obtain ⟨_, _, _, _, _, _, _, _, _, rfl⟩ := h.frame
  exact ⟨rfl, rfl⟩

theorem csEvent_bit (s : State) {i : Nat} (hi : i < 64) : (s.csEvent i).cst.event.getLsbD i = true := setBit_getLsbD _ hi

/-! ### Images (R180, R196) -/

/-- A change of an image's contents is read where the image stood. -/
theorem modImage_image (s : State) (p id : Nat) {f : Image → Image} (hf : ∀ g, (f g).part = g.part ∧ (f g).id = g.id) :
    (s.modImage p id f).image p id = (s.image p id).map f := by
  unfold State.image State.modImage
  dsimp only
  induction s.images with
  | nil => rfl
  | cons g l ih =>
    obtain ⟨hp, hi⟩ := hf g
    rw [List.map_cons, List.find?_cons, List.find?_cons]
    cases h : g.part == p && g.id == id with
    | false => simp only [h, Bool.false_eq_true, if_false, ih]
    | true => simp only [if_true, hp, hi, h, Option.map_some]

/-- What stands for image `im` has granule `g` poisoned and nothing else changed. -/
def PoisonsGranule (g : Nat) (im : Image) (o : Option Image) : Prop :=
  ∃ im', o = some im' ∧ g ∈ im'.poison ∧ { im' with poison := im.poison } = im

theorem poisonsGranule_modImage {p id g : Nat} {im : Image} (him : s.image p id = some im) {f : List Nat → List Nat}
    (hg : g ∈ f im.poison) : PoisonsGranule g im ((s.modImage p id fun i => { i with poison := f i.poison }).image p id) := by
  rw [modImage_image s p id (f := fun i => { i with poison := f i.poison }) fun _ => ⟨rfl, rfl⟩, him]
  exact ⟨_, rfl, hg, rfl⟩

/-- The granule of an image that contexts may use is poisoned (R196). -/
def granulePoisoned (s : State) (p id g : Nat) : State :=
  (s.modImage p id fun i => { i with poison := (i.poison ++ [g]).dedup }).csEvent 1

theorem poisonImage_eq (s : State) (p id g : Nat) :
    s.poisonImage p id [g] = tearEach (granulePoisoned s p id g) (s.imageUsers p id) := rfl

theorem poisonImage_spec (s : State) (p id g : Nat) {im : Image} (him : s.image p id = some im) :
    Releases (s.imageUsers p id) (granulePoisoned s p id g) (s.poisonImage p id [g]) ∧
    PoisonsGranule g im ((s.poisonImage p id [g]).image p id) ∧
    ∀ c ∈ s.imageUsers p id, Ends s.now (s.ctx c) ((s.poisonImage p id [g]).ctx c) := by
  rw [poisonImage_eq]
  have hr := releases_tearEach (granulePoisoned s p id g) (s.imageUsers p id)
  refine ⟨hr, ?_, fun c hc => ends_tearEach (granulePoisoned s p id g) hc⟩
  rw [State.image, hr.cst.2]
  exact poisonsGranule_modImage him (f := fun l => (l ++ [g]).dedup) (by simp)

/-! ### Sealed pages (R196, R241) -/

/-- The sealed pages of partition `p` with a number are poisoned. -/
def pagesPoisoned (s : State) (p spn : Nat) : State :=
  { s with pages := s.pages.map fun (g : Page) => if g.part == p && g.spn == spn then { g with poison := true } else g }

/-- The ledger may forget pages; nothing else changes but the ledger. -/
theorem releases_poisonSealed (s : State) (p spn : Nat) : Releases [] (pagesPoisoned s p spn) (s.poisonSealed p spn) := by
  unfold State.poisonSealed State.poisonPage
  extract_lets u
  split
  · exact .refl [] _
  · exact Releases.sweepPoison (Releases.book (.refl [] _))

theorem pagesPoisoned_poison {p spn : Nat} {g : Page} (hg : g ∈ (pagesPoisoned s p spn).pages) (hp : g.part = p) (hs : g.spn = spn) :
    g.poison = true := by
  obtain ⟨x, -, rfl⟩ := List.mem_map.mp hg
  split at hp
  · rename_i h
    rw [if_pos h]
  · rename_i h
    rw [if_neg h] at hs
    simp [hp, hs] at h

/-! ### The registers of an uncorrectable HBM error (R206) -/

/-- A stack's registers after an uncorrectable error at byte offset `o`. -/
def uncorrMarked (s : State) (n o : Nat) : State :=
  (s.modStk n fun k => { k with uncorr := satAdd 64 k.uncorr 1, errAddr := BitVec.ofNat 64 (2 ^ 63 + o % 2 ^ 36 / 64 * 64) }).hbEvent n 0

theorem hbmUncorr_eq (s : State) (n o : Nat) : s.hbmUncorr n o = (uncorrMarked s n o).logFault
    { kind := 6, unit := n * 256 + o / 4096 % 64 / 2, info := BitVec.ofNat 64 (2 ^ 63 + o % 2 ^ 36 / 64 * 64) } := rfl

@[simp] theorem hbmUncorr_now (s : State) (n o : Nat) : (s.hbmUncorr n o).now = s.now := logFault_now (uncorrMarked s n o) _
@[simp] theorem hbmUncorr_pending (s : State) (n o : Nat) : (s.hbmUncorr n o).pending = s.pending :=
  logFault_pending (uncorrMarked s n o) _
@[simp] theorem hbmUncorr_ctxs (s : State) (n o : Nat) : (s.hbmUncorr n o).ctxs = s.ctxs := logFault_ctxs (uncorrMarked s n o) _
@[simp] theorem hbmUncorr_ctx (s : State) (n o c : Nat) : (s.hbmUncorr n o).ctx c = s.ctx c := logFault_ctx (uncorrMarked s n o) _ c
@[simp] theorem hbmUncorr_images (s : State) (n o : Nat) : (s.hbmUncorr n o).images = s.images :=
  logFault_images (uncorrMarked s n o) _
@[simp] theorem hbmUncorr_image (s : State) (n o p id : Nat) : (s.hbmUncorr n o).image p id = s.image p id := by
  rw [State.image, hbmUncorr_images, State.image]
@[simp] theorem hbmUncorr_pages (s : State) (n o : Nat) : (s.hbmUncorr n o).pages = s.pages := logFault_pages (uncorrMarked s n o) _

/-- From `a` to `b` a stack counts an uncorrectable error at byte offset `o`. -/
def StkErred (o : Nat) (a b : Stk) : Prop :=
  b.uncorr = satAdd 64 a.uncorr 1 ∧ b.event.getLsbD 0 = true ∧ b.errAddr = BitVec.ofNat 64 (2 ^ 63 + o % 2 ^ 36 / 64 * 64) ∧
    b.corr = a.corr

theorem hbmUncorr_stk (s : State) (n o : Nat) : StkErred o (s.stk n) ((s.hbmUncorr n o).stk n) ∧
    ∀ m, m ≠ n → (s.hbmUncorr n o).stk m = s.stk m := by
  rw [hbmUncorr_eq]
  refine ⟨?_, fun m hm => ?_⟩
  · rw [logFault_stk, uncorrMarked, State.hbEvent, modStk_stk_same, modStk_stk_same]
    exact ⟨rfl, setBit_getLsbD _ (by decide), rfl, rfl⟩
  · rw [logFault_stk, uncorrMarked, State.hbEvent, modStk_stk_ne _ _ hm, modStk_stk_ne _ _ hm]

/-! ### What an uncorrectable HBM error does to the data it hit (R196) -/

/-- The page that was hit is poisoned; a failed check is an event. -/
def pageErred (s : State) (p spn : Nat) (crc : Bool) : State := (if crc then s.csEvent 3 else s).poisonSealed p spn

/-- The outcome of an error for the data that it hit. -/
def dataErred (s : State) : HbmHit → State
  | .image p id g =>
    match s.image p id with
    | none => s
    | some im => if im.open_ then s.modImage p id fun i => { i with poison := (g :: i.poison).dedup } else s.poisonImage p id [g]
  | .page p spn readers crc => tearEach (pageErred s p spn crc) (readers.filter fun c => partOfCtx c == p)
  | .hamper c => tearEach (s.csEvent 2) [c]
  | .free => s

theorem hbmError_eq (s : State) (n o : Nat) (hit : HbmHit) : s.hbmError n o hit = dataErred (s.hbmUncorr n o) hit := by
  cases hit <;> rfl

theorem releases_pageErred (s : State) (p spn : Nat) (crc : Bool) :
    Releases [] (pagesPoisoned (if crc then s.csEvent 3 else s) p spn) (pageErred s p spn crc) := releases_poisonSealed _ p spn

theorem pageErred_frame (s : State) (p spn : Nat) (crc : Bool) : (pageErred s p spn crc).now = s.now ∧
    (∀ c, (pageErred s p spn crc).ctx c = s.ctx c) ∧ (pageErred s p spn crc).stks = s.stks ∧
    (pageErred s p spn crc).pending = s.pending ∧ (crc = true → (pageErred s p spn crc).cst = (s.csEvent 3).cst) := by
  have h := releases_pageErred s p spn crc
  rw [h.now, h.stks.1, h.stks.2, h.cst.1]
  cases crc with
  | false => exact ⟨rfl, fun c => h.ctx c List.not_mem_nil, rfl, rfl, nofun⟩
  | true => exact ⟨rfl, fun c => h.ctx c List.not_mem_nil, rfl, rfl, fun _ => rfl⟩

theorem dataErred_stks (s : State) (hit : HbmHit) : (dataErred s hit).stks = s.stks ∧ (dataErred s hit).pending = s.pending := by
  cases hit with
  | free => exact ⟨rfl, rfl⟩
  | hamper c => exact (releases_tearEach (s.csEvent 2) [c]).stks
  | page p spn readers crc =>
    obtain ⟨hk, hq⟩ := (releases_tearEach (pageErred s p spn crc) (readers.filter fun c => partOfCtx c == p)).stks
    obtain ⟨-, -, hk', hq', -⟩ := pageErred_frame s p spn crc
    exact ⟨hk.trans hk', hq.trans hq'⟩
  | image p id g =>
    unfold dataErred
    dsimp only
    split
    · exact ⟨rfl, rfl⟩
    · split
      · exact ⟨rfl, rfl⟩
      · exact (releases_tearEach (granulePoisoned s p id g) (s.imageUsers p id)).stks

theorem dataErred_image {p id : Nat} {im : Image} (h : s.image p id = some im) (g : Nat) : dataErred s (.image p id g) =
    if im.open_ then s.modImage p id fun i => { i with poison := (g :: i.poison).dedup } else s.poisonImage p id [g] := by
  unfold dataErred
  dsimp only
  rw [h]

theorem dataErred_closed {p id g : Nat} {im : Image} (h : s.image p id = some im) (ho : im.open_ = false)
    (ht : t = dataErred s (.image p id g)) : t.cst.event.getLsbD 1 = true ∧ PoisonsGranule g im (t.image p id) ∧
      (∀ c ∈ s.imageUsers p id, Ends s.now (s.ctx c) (t.ctx c)) ∧ ∀ c, c ∉ s.imageUsers p id → (t.ctx c).state = (s.ctx c).state := by
  rw [dataErred_image h g, ho, if_neg Bool.false_ne_true] at ht
  obtain ⟨hr, hg, hends⟩ := poisonImage_spec s p id g h
  rw [← ht] at hr hg hends
  refine ⟨?_, hg, hends, fun c hm => by rw [hr.ctx c hm]; rfl⟩
  rw [hr.cst.1]
  exact csEvent_bit _ (by decide)

theorem dataErred_hamper {c : Nat} (ht : t = dataErred s (.hamper c)) :
    t.cst.event.getLsbD 2 = true ∧ Ends s.now (s.ctx c) (t.ctx c) ∧ ∀ d, d ≠ c → (t.ctx d).state = (s.ctx d).state := by
  subst ht
  have hr := releases_tearEach (s.csEvent 2) [c]
  refine ⟨?_, ends_tearEach (s.csEvent 2) (List.mem_singleton_self c), fun d hd =>
    congrArg Ctx.state (hr.ctx d (by simpa using hd))⟩
  rw [dataErred, hr.cst.1]
  exact csEvent_bit _ (by decide)

theorem dataErred_page {p spn : Nat} {readers : List Nat} {crc : Bool} (ht : t = dataErred s (.page p spn readers crc)) :
    (crc = true → t.cst.event.getLsbD 3 = true) ∧ (∀ g, t.page p spn = some g → g.poison = true) ∧
      (∀ c ∈ readers, partOfCtx c = p → Ends s.now (s.ctx c) (t.ctx c)) ∧ ∀ c, c ∉ readers → (t.ctx c).state = (s.ctx c).state := by
  obtain ⟨hn, hc, -, -, hcrc⟩ := pageErred_frame s p spn crc
  have hp := (releases_pageErred s p spn crc).pages
  have hr := releases_tearEach (pageErred s p spn crc) (readers.filter fun c => partOfCtx c == p)
  have he {c : Nat} := ends_tearEach (c := c) (l := readers.filter fun c => partOfCtx c == p) (pageErred s p spn crc)
  rw [show t = tearEach _ _ from ht]
  refine ⟨fun h => ?_, fun g hg => ?_, fun c hm hcp => ?_, fun c hm => ?_⟩
  · rw [hr.cst.1, hcrc h]
    exact csEvent_bit _ (by decide)
  · have hk := List.find?_some hg
    simp only [Bool.and_eq_true, beq_iff_eq] at hk
    exact pagesPoisoned_poison (hp (hr.pages (List.mem_of_find?_eq_some hg))) hk.1 hk.2
  · have := he (List.mem_filter.mpr ⟨hm, by rw [hcp, beq_self_eq_true]⟩)
    rw [hn, hc] at this
    exact this
  · rw [hr.ctx c fun h => hm (List.mem_of_mem_filter h), hc]

theorem imageUsers_ctxs (h : t.ctxs = s.ctxs) (p id : Nat) : t.imageUsers p id = s.imageUsers p id := by
  have hc (c : Nat) : t.ctx c = s.ctx c := by rw [State.ctx, h, State.ctx]
  have hl : t.loaded = s.loaded := funext fun c => by rw [State.loaded, hc, State.loaded]
  simp only [State.imageUsers, State.loadedCtxs, hl, hc]

theorem exec_hbmUncorrectable {n : Nat} (hn : n < 32) (hd : s.bring.diesOn = true) (o : Nat) (hit : HbmHit) :
    exec (.hbmUncorrectable n o hit) s = .next (dataErred (s.hbmUncorr n o) hit) := by
  show execHbmUncorrectable n o hit s = _
  rw [← hbmError_eq]
  simp [execHbmUncorrectable, hd, Nat.not_le.mpr hn]

/-- The registers of stacks show the error alone. -/
theorem dataErred_stk (s : State) (n o : Nat) (hit : HbmHit) :
    StkErred o (s.stk n) ((dataErred (s.hbmUncorr n o) hit).stk n) ∧
    ∀ m, m ≠ n → (dataErred (s.hbmUncorr n o) hit).stk m = s.stk m := by
  have h (m : Nat) : (dataErred (s.hbmUncorr n o) hit).stk m = (s.hbmUncorr n o).stk m := by
    rw [State.stk, (dataErred_stks _ hit).1, State.stk]
  simp only [h]
  exact hbmUncorr_stk s n o

/-! ### The patrol scrub of the slices (R195, R197) -/

/-- What a slice word holds when it is read: corrected lanes, or an uncorrectable error. -/
def sliceMet (s : State) (w : Nat) : ScrubFound → State
  | .clean => s
  | .corrected m => s.correctSlice (w / 131072) m
  | .uncorrectable _ => s.failSlice (w / 131072) (w % 131072 * 64)

/-- The slices' scrub goes on after word `w`. -/
def sliceNext (s : State) (w : Nat) : State :=
  if w + 1 < 1024 * 131072 then { s with cst := { s.cst with scrubPos := w + 1 } }
  else { s with cst := { s.cst with scrubPos := 0 } }.csEvent 4

/-- The slices' scrub reads word `w`. -/
def sliceRead (s : State) (w : Nat) : State :=
  { s.modStn (w / 131072) (·.sliceBytes 3 64) with cst := { s.cst with scrubFrom := if w == 0 then some s.now else s.cst.scrubFrom } }

theorem scrubSlice_eq (s : State) (found : ScrubFound) :
    s.scrubSlice found = sliceNext (sliceMet (sliceRead s s.cst.scrubPos) s.cst.scrubPos found) s.cst.scrubPos := by
  cases found <;> rfl

theorem exec_scrubSlices (hd : s.bring.diesOn = true) (hon : s.cst.scrubOn = true)
    (hdue : scrubDue s.cst.scrubPos s.cst.scrubFrom (ms (1000 * s.cst.scrubS)) s.now = true) (found : ScrubFound) :
    exec (.patrolScrubStep .slices found) s = .next (s.scrubSlice found) := by
  show execPatrolScrubStep .slices found s = _
  simp [execPatrolScrubStep, hd, hon, hdue]

theorem sliceNext_spec (s : State) (w : Nat) :
    ((sliceNext s w).cst.scrubPos = (if w + 1 < 1024 * 131072 then w + 1 else 0) ∧
      (¬ w + 1 < 1024 * 131072 → (sliceNext s w).cst.event.getLsbD 4 = true)) ∧
    (sliceNext s w).cst.corr = s.cst.corr ∧ (sliceNext s w).cst.uncorr = s.cst.uncorr ∧ (sliceNext s w).ctxs = s.ctxs ∧
      (sliceNext s w).stns = s.stns := by
  unfold sliceNext
  split
  · rename_i h
    exact ⟨⟨rfl, fun h' => absurd h h'⟩, rfl, rfl, rfl, rfl⟩
  · exact ⟨⟨rfl, fun _ => csEvent_bit _ (by decide)⟩, rfl, rfl, rfl, rfl⟩

/-- Slices count the errors found in them. -/
def SameErrors (s t : State) : Prop := t.cst.corr = s.cst.corr ∧ t.cst.uncorr = s.cst.uncorr

theorem Releases.sameErrors {l : List Nat} (h : Releases l s t) : SameErrors s t := by
  rw [SameErrors, h.cst.1]
  exact ⟨rfl, rfl⟩

theorem SameErrors.trans {r : State} (h : SameErrors r s) (k : SameErrors s t) : SameErrors r t := ⟨k.1.trans h.1, k.2.trans h.2⟩

theorem sameErrors_poisonImage (s : State) (p id : Nat) (gs : List Nat) : SameErrors s (s.poisonImage p id gs) :=
  SameErrors.trans ⟨rfl, rfl⟩ (releases_tearEach _ (s.imageUsers p id)).sameErrors

theorem sameErrors_loseTransit (s : State) (st : Nat) : SameErrors s (s.loseTransit st) := by
  refine List.foldlRecOn (motive := fun u => SameErrors s u) _ _ ⟨rfl, rfl⟩ fun u hu x _ => ?_
  split
  · exact hu
  · split
    · exact hu.trans (sameErrors_poisonImage u _ _ _)
    · exact hu

theorem sameErrors_failStation (s : State) (i : Nat) (bits : BitVec 7) : SameErrors s (s.failStation i bits) := by
  unfold State.failStation
  split
  · exact ⟨rfl, rfl⟩
  · split
    · exact ⟨rfl, rfl⟩
    · have hl (e : FaultEntry) : SameErrors s ((failMarked s i bits).logFault e) := by
        rw [SameErrors, logFault_cst]
        exact ⟨rfl, rfl⟩
      exact foldNat_keeps _ _ _ ((hl _).trans (sameErrors_loseTransit _ i)) fun u c _ hu =>
        hu.trans (releases_beginTeardown u (List.mem_singleton_self c) _ _ _ _).sameErrors

/-- The store's registers and the fault log of an uncorrectable error in slice `i`, at address `a` (R196, R202). -/
def sliceErred (s : State) (i : Nat) (a : Word) : State :=
  ({ s with cst := { s.cst with uncorr := satAdd 64 s.cst.uncorr 1, errAddr := a } }.csEvent 0).logFault { kind := 5, unit := i, info := a }

theorem sliceErred_spec (s : State) (i : Nat) (a : Word) : (sliceErred s i a).bring = s.bring ∧ (∀ j, (sliceErred s i a).stn j = s.stn j) ∧
    (sliceErred s i a).cst.uncorr = satAdd 64 s.cst.uncorr 1 ∧ (sliceErred s i a).cst.corr = s.cst.corr := by
  refine ⟨logFault_bring _ _, logFault_stn _ _, ?_, ?_⟩
  · rw [sliceErred, logFault_cst]
    rfl
  · rw [sliceErred, logFault_cst]
    rfl

theorem failSlice_whole (s : State) {i : Nat} (o : Nat) (hi : i < 1024) (hd : s.bring.diesOn = true) (hf : (s.stn i).failed = false) :
    s.failSlice i o = (sliceErred s i (BitVec.ofNat 64 (2 ^ 63 + fld i 23 10 + o / 8 * 8 % 2 ^ 23))).failStation i 0 := by
  unfold State.failSlice
  rw [hf, hd, if_neg (by simpa using hi)]
  rfl

theorem failSlice_spec (s : State) {i : Nat} (o : Nat) (hi : i < 1024) (hd : s.bring.diesOn = true) (hf : (s.stn i).failed = false) :
    ((s.failSlice i o).stn i).failed = true ∧ (s.failSlice i o).cst.uncorr = satAdd 64 s.cst.uncorr 1 ∧
      (s.failSlice i o).cst.corr = s.cst.corr := by
  rw [failSlice_whole s o hi hd hf]
  generalize BitVec.ofNat 64 (2 ^ 63 + fld i 23 10 + o / 8 * 8 % 2 ^ 23) = a
  obtain ⟨hb, hs, hu, hc⟩ := sliceErred_spec s i a
  obtain ⟨hc', hu'⟩ := sameErrors_failStation (sliceErred s i a) i 0
  obtain ⟨-, hm, -⟩ := failStation_spec (sliceErred s i a) 0 hi (by rw [hs, hf])
  simp only [stnMarks, Prod.mk.injEq] at hm
  exact ⟨hm.1.trans (by rw [hb, hd]), hu'.trans hu, hc'.trans hc⟩

theorem failSlice_failed (s : State) {i : Nat} (o : Nat) (hf : (s.stn i).failed = true) : s.failSlice i o = s :=
  if_pos (by simp [hf])

theorem exec_sliceReadCorrected {i : Nat} (hd : s.bring.diesOn = true) (hi : i < 1024) (m : Nat) :
    exec (.patrolScrubStep (.sliceRead i) (.corrected m)) s = .next (s.correctSlice i m) := by
  show execPatrolScrubStep (.sliceRead i) (.corrected m) s = _
  simp [execPatrolScrubStep, hd, hi]

theorem correctSlice_failed (s : State) {i : Nat} (m : Nat) (hf : (s.stn i).failed = true) : s.correctSlice i m = s := if_pos hf

theorem correctSlice_whole (s : State) {i : Nat} (m : Nat) (hf : (s.stn i).failed = false) : s.correctSlice i m =
    { s.modStn i (·.sliceEvent 5 (min m 8)) with cst := { s.cst with corr := satAdd 64 s.cst.corr (min m 8) } } :=
  if_neg (by simp [hf])

theorem sliceMet_spec (s : State) {w : Nat} (hw : w < 1024 * 131072) (hd : s.bring.diesOn = true) (found : ScrubFound) :
    let t := sliceMet s w found
    let whole := (s.stn (w / 131072)).failed = false
    (∀ m, found = .corrected m → whole → t.cst.corr = satAdd 64 s.cst.corr (min m 8)) ∧
    ((∀ m, found ≠ .corrected m) → t.cst.corr = s.cst.corr) ∧
    ((∃ h, found = .uncorrectable h) → whole → (t.stn (w / 131072)).failed = true ∧ t.cst.uncorr = satAdd 64 s.cst.uncorr 1) ∧
    ((∀ h, found ≠ .uncorrectable h) ∨ ¬ whole → t.cst.uncorr = s.cst.uncorr ∧ t.ctxs = s.ctxs ∧ ∀ j, t.arch j = s.arch j) := by
  have hi : w / 131072 < 1024 := by omega
  cases hf : (s.stn (w / 131072)).failed with
  | true =>
    have e : sliceMet s w found = s := by
      cases found with
      | clean => rfl
      | corrected m => exact correctSlice_failed s m hf
      | uncorrectable h => exact failSlice_failed s _ hf
    rw [e]
    exact ⟨fun _ _ => nofun, fun _ => rfl, fun _ => nofun, fun _ => ⟨rfl, rfl, fun _ => rfl⟩⟩
  | false =>
    cases found with
    | clean => exact ⟨fun _ => nofun, fun _ => rfl, nofun, fun _ => ⟨rfl, rfl, fun _ => rfl⟩⟩
    | corrected m =>
      rw [show sliceMet s w (.corrected m) = _ from correctSlice_whole s m hf]
      exact ⟨fun k hk _ => by cases hk; rfl, fun h => absurd rfl (h m), nofun, fun _ => ⟨rfl, rfl,
        arch_modStn s (w / 131072) (f := (·.sliceEvent 5 (min m 8))) rfl⟩⟩
    | uncorrectable h =>
      obtain ⟨hfail, hu, hc⟩ := failSlice_spec s (w % 131072 * 64) hi hd hf
      exact ⟨fun _ => nofun, fun _ => hc, fun _ _ => ⟨hfail, hu⟩, fun h' => (h'.elim (fun h' => h' h rfl) (· rfl)).elim⟩

theorem sliceRead_spec (s : State) (w : Nat) : SameErrors s (sliceRead s w) ∧ (sliceRead s w).bring = s.bring ∧
    (sliceRead s w).ctxs = s.ctxs ∧ ∀ j, (sliceRead s w).arch j = s.arch j :=
  ⟨⟨rfl, rfl⟩, rfl, rfl, arch_modStn s (w / 131072) (f := (·.sliceBytes 3 64)) rfl⟩

theorem sliceRead_failed (s : State) (w j : Nat) : ((sliceRead s w).stn j).failed = (s.stn j).failed := by
  show ((s.modStn (w / 131072) (·.sliceBytes 3 64)).stn j).failed = _
  rw [modStn_stn]
  split
  · rename_i e
    rw [e]
    rfl
  · rfl

/-- A slice word of the patrol scrub (R197): the position goes on, and what the word held counts (R195, R196). -/
theorem scrubSlice_spec {w : Nat} (he : w = s.cst.scrubPos) (hw : w < 1024 * 131072) (hd : s.bring.diesOn = true) (found : ScrubFound)
    (ht : t = s.scrubSlice found) :
    t.cst.scrubPos = (if w + 1 < 1024 * 131072 then w + 1 else 0) ∧
    (¬ w + 1 < 1024 * 131072 → t.cst.event.getLsbD 4 = true) ∧
    (∀ m, found = .corrected m → (s.stn (w / 131072)).failed = false → t.cst.corr = satAdd 64 s.cst.corr (min m 8)) ∧
    ((∀ m, found ≠ .corrected m) → t.cst.corr = s.cst.corr) ∧
    ((∃ h, found = .uncorrectable h) → (s.stn (w / 131072)).failed = false →
      (t.stn (w / 131072)).failed = true ∧ t.cst.uncorr = satAdd 64 s.cst.uncorr 1) ∧
    ((∀ h, found ≠ .uncorrectable h) ∨ ¬ (s.stn (w / 131072)).failed = false →
      t.cst.uncorr = s.cst.uncorr ∧ t.ctxs = s.ctxs ∧ ∀ j, t.arch j = s.arch j) := by
  rw [scrubSlice_eq, ← he] at ht
  obtain ⟨⟨hcorr, huncorr⟩, hb, hctxs, harch⟩ := sliceRead_spec s w
  have hmet := sliceMet_spec (sliceRead s w) hw (hb ▸ hd) found
  obtain ⟨⟨hpos, hlast⟩, hcorr', huncorr', hctxs', hstns'⟩ := sliceNext_spec (sliceMet (sliceRead s w) w found) w
  rw [← ht] at hpos hlast hcorr' huncorr' hctxs' hstns'
  have hstn (j : Nat) : (sliceMet (sliceRead s w) w found).stn j = t.stn j := by rw [State.stn, ← hstns', State.stn]
  have harch' (j : Nat) : (sliceMet (sliceRead s w) w found).arch j = t.arch j := congrArg Stn.arch (hstn j)
  simp only [sliceRead_failed, harch, harch', hcorr, huncorr, hctxs, ← hcorr', ← huncorr', ← hctxs', hstn] at hmet
  exact ⟨hpos, hlast, hmet⟩

/-! ### The patrol scrub of a stack (R195, R197) -/

/-- What a stack's word holds when it is read: corrected symbols, or an uncorrectable error. -/
def stackMet (s : State) (n w : Nat) : ScrubFound → State
  | .clean => s
  | .corrected m => s.correctStack n m
  | .uncorrectable hit => s.hbmError n (w * 64) hit

/-- Stack `n`'s scrub reads word `w`. -/
def stackRead (s : State) (n w : Nat) : State :=
  (s.hbmBytes n 2 64 none).modStk n fun k => { k with scrubFrom := if w == 0 then some s.now else k.scrubFrom }

theorem scrubStack_eq (s : State) (n : Nat) (found : ScrubFound) : s.scrubStack n found =
    (stackMet (stackRead s n (s.stk n).scrubPos) n (s.stk n).scrubPos found).modStk n fun k => { k with
      scrubPos := if (s.stk n).scrubPos + 1 < 48 * 2 ^ 24 then (s.stk n).scrubPos + 1 else 0 } := by
  cases found <;> rfl

theorem exec_scrubStack {n : Nat} (hd : s.bring.diesOn = true) (hn : n < 32) (hon : (s.stk n).scrubOn = true) (hready : (s.stk n).state = 2)
    (hdue : scrubDue (s.stk n).scrubPos (s.stk n).scrubFrom (ms (3600000 * (s.stk n).scrubH)) s.now = true) (found : ScrubFound) :
    exec (.patrolScrubStep (.stack n) found) s = .next (s.scrubStack n found) := by
  show execPatrolScrubStep (.stack n) found s = _
  simp [execPatrolScrubStep, hd, hn, hon, hready, hdue]

theorem exec_stackReadCorrected {n : Nat} (hd : s.bring.diesOn = true) (hn : n < 32) (hready : (s.stk n).state = 2) (m : Nat) :
    exec (.patrolScrubStep (.stackRead n) (.corrected m)) s = .next (s.correctStack n m) := by
  show execPatrolScrubStep (.stackRead n) (.corrected m) s = _
  simp [execPatrolScrubStep, hd, hn, hready]

theorem stackMet_uncorrectable (s : State) (n w : Nat) (hit : HbmHit) :
    stackMet s n w (.uncorrectable hit) = dataErred (s.hbmUncorr n (w * 64)) hit := hbmError_eq s n (w * 64) hit

/-- HBM bytes that no context is charged for (R390). -/
theorem hbmBytes_none (s : State) (n cls bytes : Nat) : (s.hbmBytes n cls bytes none).ctxs = s.ctxs ∧
    (s.hbmBytes n cls bytes none).stns = s.stns ∧ (s.hbmBytes n cls bytes none).cst = s.cst ∧
    (s.hbmBytes n cls bytes none).images = s.images ∧
    ∀ m, (s.hbmBytes n cls bytes none).stk m = if m = n then (s.stk n).move cls bytes else s.stk m :=
  ⟨rfl, rfl, rfl, rfl, fun m => modStk_stk s n m (·.move cls bytes)⟩

theorem stackRead_spec (s : State) (n w : Nat) : ((stackRead s n w).ctxs = s.ctxs ∧ (stackRead s n w).stns = s.stns) ∧
    (((stackRead s n w).stk n).corr = (s.stk n).corr ∧ ((stackRead s n w).stk n).uncorr = (s.stk n).uncorr) ∧
    ∀ m, m ≠ n → (stackRead s n w).stk m = s.stk m := by
  obtain ⟨hc, hs, -, -, hk⟩ := hbmBytes_none s n 2 64
  rw [stackRead, modStk_ctxs, modStk_stns, modStk_stk_same, hk, if_pos rfl]
  refine ⟨⟨hc, hs⟩, ⟨rfl, rfl⟩, fun m hm => ?_⟩
  rw [modStk_stk_ne _ _ hm, hk, if_neg hm]

theorem stackMet_spec (s : State) (n w : Nat) (found : ScrubFound) :
    let t := stackMet s n w found
    (∀ m, m ≠ n → t.stk m = s.stk m) ∧
    (match found with
      | .corrected m => (t.stk n).corr = satAdd 64 (s.stk n).corr (min m 2) ∧ (t.stk n).uncorr = (s.stk n).uncorr
      | .clean => (t.stk n).corr = (s.stk n).corr ∧ (t.stk n).uncorr = (s.stk n).uncorr
      | .uncorrectable _ => StkErred (w * 64) (s.stk n) (t.stk n)) ∧
    ((∀ h, found ≠ .uncorrectable h) → t.ctxs = s.ctxs ∧ t.stns = s.stns) := by
  cases found with
  | clean => exact ⟨fun _ _ => rfl, ⟨rfl, rfl⟩, fun _ => ⟨rfl, rfl⟩⟩
  | corrected m =>
    refine ⟨fun j hj => modStk_stk_ne s _ hj, ?_, fun _ => ⟨rfl, rfl⟩⟩
    rw [show stackMet s n w (.corrected m) = s.modStk n _ from rfl, modStk_stk_same]
    exact ⟨rfl, rfl⟩
  | uncorrectable hit =>
    obtain ⟨he, hn⟩ := dataErred_stk s n (w * 64) hit
    rw [stackMet_uncorrectable]
    exact ⟨hn, he, fun h => absurd rfl (h hit)⟩

/-- A word of a stack's patrol scrub (R197): the position goes on, and what the word held counts (R195, R196). -/
theorem scrubStack_spec (n : Nat) {w : Nat} (he : w = (s.stk n).scrubPos) (found : ScrubFound) :
    let t := s.scrubStack n found
    (t.stk n).scrubPos = (if w + 1 < 48 * 2 ^ 24 then w + 1 else 0) ∧ (∀ m, m ≠ n → t.stk m = s.stk m) ∧
    (match found with
      | .corrected m => (t.stk n).corr = satAdd 64 (s.stk n).corr (min m 2) ∧ (t.stk n).uncorr = (s.stk n).uncorr
      | .clean => (t.stk n).corr = (s.stk n).corr ∧ (t.stk n).uncorr = (s.stk n).uncorr
      | .uncorrectable _ => (t.stk n).corr = (s.stk n).corr ∧ (t.stk n).uncorr = satAdd 64 (s.stk n).uncorr 1 ∧
        (t.stk n).errAddr = BitVec.ofNat 64 (2 ^ 63 + w * 64 % 2 ^ 36 / 64 * 64)) ∧
    ((∀ h, found ≠ .uncorrectable h) → t.ctxs = s.ctxs ∧ t.stns = s.stns) := by
  obtain ⟨⟨hctxs, hstns⟩, ⟨hcorr, huncorr⟩, hother⟩ := stackRead_spec s n w
  obtain ⟨hother', hmet, hstill⟩ := stackMet_spec (stackRead s n w) n w found
  rw [scrubStack_eq, ← he]
  dsimp only
  rw [modStk_stk_same]
  refine ⟨rfl, fun m hm => ?_, ?_, fun h => ?_⟩
  · rw [modStk_stk_ne _ _ hm, hother' m hm, hother m hm]
  · rw [hcorr, huncorr] at hmet
    generalize (stackMet (stackRead s n w) n w found).stk n = k at hmet ⊢
    cases found with
    | clean => exact hmet
    | corrected m => exact hmet
    | uncorrectable hit =>
      obtain ⟨hu, -, ha, hc⟩ := hmet
      exact ⟨hc.trans hcorr, hu.trans (by rw [huncorr]), ha⟩
  · obtain ⟨hc, hs⟩ := hstill h
    exact ⟨hc.trans hctxs, hs.trans hstns⟩

/-! ### The transit buffers (R173) -/

/-- From `s` to `t` the store's registers and memories, images, contexts and what stations hold stand. -/
structure StoreStands (s t : State) : Prop where
  cst : t.cst = s.cst
  images : t.images = s.images
  ctxs : t.ctxs = s.ctxs
  arch : ∀ j, t.arch j = s.arch j

theorem StoreStands.trans {r : State} (h : StoreStands r s) (k : StoreStands s t) : StoreStands r t :=
  ⟨k.cst.trans h.cst, k.images.trans h.images, k.ctxs.trans h.ctxs, fun j => (k.arch j).trans (h.arch j)⟩

theorem storeStands_hbmBytes (s : State) (n cls bytes : Nat) : StoreStands s (s.hbmBytes n cls bytes none) := by
  obtain ⟨hc, hs, hcst, hi, -⟩ := hbmBytes_none s n cls bytes
  exact ⟨hcst, hi, hc, fun j => by rw [State.arch, State.stn, hs]; rfl⟩

theorem storeStands_imageTraffic (s : State) (p : Nat) (rs : List ImageRegion) (cls o n : Nat) :
    StoreStands s (s.imageTraffic p rs cls o n none) :=
  foldNat_keeps s _ _ ⟨rfl, rfl, rfl, fun _ => rfl⟩ fun u _ _ hu => hu.trans (storeStands_hbmBytes u _ _ _)

theorem storeStands_transitBytes (s : State) (st n : Nat) : StoreStands s (s.transitBytes st n) :=
  ⟨rfl, rfl, rfl, arch_modStn s st (f := (·.sliceBytes 3 n)) rfl⟩

/-- An image with the bytes `bs` of a transit entry at `o`: a granule of an open image that they cover is good (log entry 16). -/
def withBytes (o : Nat) (bs : Bytes) (g : Image) : Image :=
  { g with
    data := wrBytes g.data o bs
    poison := if g.open_ then g.poison.filter fun i => i * 4096 < o || o + bs.length < i * 4096 + 4096 else g.poison }

/-- What a transit entry that reaches HBM changes there. -/
def WrittenDown (s t : State) : Transit → Prop
  | .split a bs _ => t.cst.hbm = wrBytes s.cst.hbm a bs ∧ t.images = s.images
  | .image p id o bs _ => t.cst.hbm = s.cst.hbm ∧ ∀ g, s.image p id = some g → t.image p id = some (withBytes o bs g)

theorem writeDown_spec (s : State) (x : Transit) : (s.writeDown x).cst.transit = s.cst.transit ∧ (s.writeDown x).ctxs = s.ctxs ∧
    (∀ j, (s.writeDown x).arch j = s.arch j) ∧ WrittenDown s (s.writeDown x) x := by
  have hu := storeStands_transitBytes s x.slice x.bytes
  have ht : (s.transitBytes x.slice x.bytes).cst.transit = s.cst.transit := congrArg Cst.transit hu.cst
  unfold State.writeDown
  extract_lets u
  cases x with
  | split a bs sl =>
    have hv := hu.trans (storeStands_hbmBytes u ((a - 2 ^ 40) / 2 ^ 36) 2 bs.length)
    exact ⟨ht, hv.ctxs, hv.arch, congrArg (fun x : Cst => wrBytes x.hbm a bs) hu.cst, hv.images⟩
  | image p id o bs sl =>
    have hi : u.image p id = s.image p id := by rw [State.image, hu.images, State.image]
    dsimp only
    rw [hi]
    cases him : s.image p id with
    | none =>
      exact ⟨ht, hu.ctxs, hu.arch, congrArg Cst.hbm hu.cst, fun g hg => by rw [him] at hg; cases hg⟩
    | some g =>
      have hv := hu.trans (storeStands_imageTraffic u p g.regions 2 o bs.length)
      refine ⟨congrArg Cst.transit hv.cst, hv.ctxs, hv.arch, congrArg Cst.hbm hv.cst, fun g' hg => ?_⟩
      refine (modImage_image _ p id (f := withBytes o bs) fun _ => ⟨rfl, rfl⟩).trans ?_
      rw [State.image, hv.images, show s.images.find? _ = _ from hg, Option.map_some]

theorem drainOne_nil {k : Nat} (h : mget [] s.cst.transit k = []) : s.drainOne k = s := by
  unfold State.drainOne
  rw [h]

theorem drainOne_cons {k : Nat} {x : Transit} {rest : List Transit} (h : mget [] s.cst.transit k = x :: rest) : s.drainOne k =
    ({ s with cst := { s.cst with transit := mset [] s.cst.transit k rest } } : State).writeDown x := by
  unfold State.drainOne
  rw [h]

theorem exec_transitWriteDown {k : Nat} (hk : k < 8) (hd : s.bring.diesOn = true) :
    exec (.transitWriteDown k) s = .next (s.drainOne k) := by
  show execTransitWriteDown k s = _
  simp [execTransitWriteDown, hd, Nat.not_le.mpr hk]

/-! ### The obligation -/

/-- Settles O21: an error marks its stack (`dataErred_stk`) and tears down who uses the data that it hit (`dataErred_closed`,
`dataErred_hamper`, `dataErred_page`); a scrub step is a read, what it met and the next position (`scrubSlice_spec`,
`scrubStack_spec`); the oldest transit entry is written down (`writeDown_spec`). -/
theorem memoryErrorsScrubAndTransit : Obligations.MemoryErrorsScrubAndTransit := by
  refine ⟨?_, fun s hd => ⟨?_, ?_, ?_, ?_, ?_⟩⟩
  · intro s n o hit hn hd ends stays
    obtain ⟨⟨huncorr, hevent, haddr, -⟩, hother⟩ := dataErred_stk s n o hit
    refine ⟨_, exec_hbmUncorrectable hn hd o hit, huncorr, hevent, haddr, hother,
      (dataErred_stks _ hit).2.trans (hbmUncorr_pending s n o), ?_⟩
    have hu : stays (s.hbmUncorr n o) := ⟨hbmUncorr_ctxs s n o, hbmUncorr_images s n o, hbmUncorr_pages s n o⟩
    have hn := hbmUncorr_now s n o
    have hc := hbmUncorr_ctx s n o
    have hi := hbmUncorr_image s n o
    have hus := imageUsers_ctxs (hbmUncorr_ctxs s n o)
    generalize s.hbmUncorr n o = u at *
    cases hit with
    | free => exact hu
    | hamper c =>
      have h := dataErred_hamper (s := u) (c := c) rfl
      simp only [hn, hc] at h
      exact h
    | page p spn readers crc =>
      have h := dataErred_page (s := u) (p := p) (spn := spn) (readers := readers) (crc := crc) rfl
      simp only [hn, hc] at h
      exact h
    | image p id g =>
      dsimp only
      cases him : s.image p id with
      | none =>
        rw [dataErred, hi, him]
        exact hu
      | some im =>
        have him' := (hi p id).trans him
        dsimp only
        cases ho : im.open_ with
        | false =>
          have h := dataErred_closed (g := g) him' ho rfl
          simp only [hn, hc, hus] at h
          exact h
        | true =>
          rw [dataErred_image him' g, ho, if_pos rfl, if_pos rfl]
          exact ⟨hu.1, hu.2.2, poisonsGranule_modImage him' (f := fun l => (g :: l).dedup) (by simp)⟩
  · intro found hon hdue w whole hw
    exact ⟨_, exec_scrubSlices hd hon hdue found, scrubSlice_spec rfl hw hd found rfl⟩
  · intro n found hn hon hready hdue w
    exact ⟨_, exec_scrubStack hd hn hon hready hdue found, scrubStack_spec n rfl found⟩
  · intro i m hi hf
    refine ⟨_, exec_sliceReadCorrected hd hi m, ?_⟩
    rw [correctSlice_whole s m hf]
    exact ⟨rfl, rfl, arch_modStn s i (f := (·.sliceEvent 5 (min m 8))) rfl⟩
  · intro n m hn hready
    refine ⟨_, exec_stackReadCorrected hd hn hready m, ?_, rfl, fun j hj => modStk_stk_ne s _ hj⟩
    rw [State.correctStack, modStk_stk_same]
  · intro k hk
    refine ⟨_, exec_transitWriteDown hk hd, ?_⟩
    cases hl : mget [] s.cst.transit k with
    | nil =>
      rw [drainOne_nil hl, hl]
      exact ⟨rfl, fun _ _ => rfl, rfl, fun _ => rfl, rfl⟩
    | cons x rest =>
      obtain ⟨ht, hc, ha, hw⟩ := writeDown_spec { s with cst := { s.cst with transit := mset [] s.cst.transit k rest } } x
      rw [drainOne_cons hl, ht, hc]
      refine ⟨mget_mset_same _ _ _ _, fun j hj => mget_mset_ne _ _ _ hj, rfl, ha, ?_⟩
      cases x with
      | split a bs sl => exact hw
      | image p id o bs sl => exact hw

end Sys2Proof.Laws
end

section
/-!
SUPPORT. Caravan schedules stand where they stood while the engine asks homes (R186, R301) and raises counters (R44).
-/

namespace Sys2Proof.Laws

open Sys2Proof Sys2Proof.Machine

variable {r s t : State} {c : Nat}

/-! ### Where schedules stand while the engine asks homes and raises counters (R44, R186, R301) -/

theorem SameSchedules.modStn {i : Nat} {f : Stn → Stn} (h : SameSchedules r s) : SameSchedules r (s.modStn i f) := h.frame

theorem SameSchedules.modPart {p : Nat} {f : Part → Part} (h : SameSchedules r s) : SameSchedules r (s.modPart p f) := h.frame

theorem SameSchedules.modDrover {d : Nat} {f : Drover → Drover} (h : SameSchedules r s) : SameSchedules r (s.modDrover d f) := h.frame

theorem SameSchedules.logFault {e : FaultEntry} (h : SameSchedules r s) : SameSchedules r (s.logFault e) := h.frame (logFault_ctxs s e)

theorem SameSchedules.releases {l : List Nat} (h : SameSchedules r s) (k : Releases l s t) : SameSchedules r t := h.trans k.schedules

theorem SameSchedules.beginTeardown {reason detail : BitVec 8} {station : BitVec 16} {bundle : Nat} (h : SameSchedules r s) :
    SameSchedules r (s.beginTeardown c reason detail station bundle) :=
  h.releases (releases_beginTeardown s (List.mem_singleton_self c) reason detail station bundle)

/-- A context is charged. -/
def charged (e : Nat) (k : Ctx) : Ctx := { k with energy := k.energy + e }

theorem hbmBytes_some (s : State) (n cls bytes c : Nat) :
    ∃ e, s.hbmBytes n cls bytes (some c) = (s.hbmBytes n cls bytes none).modCtx c (charged e) := by
  unfold State.hbmBytes
  extract_lets u p e v
  exact ⟨e, rfl⟩

theorem SameSchedules.hbmBytes {n cls bytes : Nat} (h : SameSchedules r s) : SameSchedules r (s.hbmBytes n cls bytes (some c)) := by
  obtain ⟨e, he⟩ := hbmBytes_some s n cls bytes c
  rw [he]
  exact SameSchedules.modCtx (h.frame (hbmBytes_none s n cls bytes).1)

theorem SameSchedules.foldNat {l : List Nat} {f : State → Nat → State} (h : SameSchedules r s)
    (hf : ∀ s n, SameSchedules r s → SameSchedules r (f s n)) : SameSchedules r (s.foldNat l f) :=
  foldNat_keeps s l f h fun s n _ h => hf s n h

theorem SameSchedules.programFault {rel bundle code : Nat} (h : SameSchedules r s) : SameSchedules r (s.programFault c rel bundle code) :=
  h.logFault.beginTeardown.modCtx

theorem SameSchedules.lateFault {rel idx k code : Nat} (h : SameSchedules r s) : SameSchedules r (s.lateFault c rel idx k code) :=
  (SameSchedules.ite h.modStn h).programFault

theorem SameSchedules.logArrival {e : LogEntry} (h : SameSchedules r s) : SameSchedules r (s.logArrival c e) :=
  .ite h.beginTeardown (SameSchedules.modCtx (h.foldNat fun _ _ h => h.hbmBytes))

theorem SameSchedules.incToken {rel t n : Nat} {p : Producer} {tag : Bool} {blame : Option (Nat × Nat × Nat)} (h : SameSchedules r s) :
    SameSchedules r (s.incToken c rel t n p tag blame) := by
  unfold State.incToken
  refine .ite h (.ite (.ite ?_ ?_) (.ite h (.ite h.logArrival h.modCtx)))
  · split
    · exact h.lateFault
    · exact h.programFault
  · exact .ite (SameSchedules.modCtx (SameSchedules.frame (.ite h.modStn h))) (SameSchedules.frame (.ite h.modStn h))

theorem SameSchedules.incEach {l : List Nat} {t : Nat} {p : Producer} (h : SameSchedules r s) : SameSchedules r (s.incEach c l t p) :=
  h.foldNat fun _ _ h => h.incToken

theorem pushPort_ctxs (s : State) (i : Nat) : (s.pushPort i).ctxs = s.ctxs := by
  unfold State.pushPort
  generalize (s.port i).push i (s.port i).credits.sum = x
  rfl

theorem sendMsg_ctxs (s : State) (rail : Nat) (ty : BitVec 8) (m : Msg) : (s.sendMsg rail ty m).ctxs = s.ctxs := by
  unfold State.sendMsg
  split
  · rfl
  · exact (pushPort_ctxs _ _).trans (modPort_ctxs _ _ _)

theorem SameSchedules.fabricHold {cause peer : Nat} (h : SameSchedules r s) : SameSchedules r (s.fabricHold c cause peer) := by
  unfold State.fabricHold
  extract_lets k u v w x
  have hu : SameSchedules r u := h.releases ((Releases.refl [c] s).leaveStations (List.mem_singleton_self c)).abandonUnits
  have hv : SameSchedules r v := hu.modCtx
  have hx : SameSchedules r x := hv.modPart
  exact .ite h (hx.frame ((postEvent_ctxs _ _ _ _).trans (fbEvent_ctxs _ _)))

theorem SameSchedules.launch {d : Nat} {u : DUnit} (h : SameSchedules r s) : SameSchedules r (s.launch d u) := by
  unfold State.launch
  split
  · exact h.fabricHold
  · exact (SameSchedules.modDrover h).frame (sendMsg_ctxs _ _ _ _)

theorem SameSchedules.issueUnit {d : Nat} {u : DUnit} (h : SameSchedules r s) : SameSchedules r (s.issueUnit d u) := by
  refine .ite h.fabricHold (.ite h.modDrover (.ite h.modDrover ?_))
  split
  · exact h.modDrover
  · exact h.modDrover.launch

theorem SameSchedules.engineSend {p flags aux remote : Nat} {ty : BitVec 8} {data : Bytes} {kind : UnitKind} (h : SameSchedules r s) :
    SameSchedules r (s.engineSend c p ty flags aux remote data kind) := SameSchedules.issueUnit (SameSchedules.frame h)

/-- The homes of granules are asked: no schedule moves. -/
theorem sameSchedules_askGroup (s : State) (c : Nat) (v : Caravan) (q : GroupRun) : SameSchedules s (s.askGroup c v q) :=
  .ite (.refl s) (SameSchedules.foldl ((SameSchedules.refl s).modCtx) fun _ _ h => h.engineSend)

end Sys2Proof.Laws
end

section
/-!
SUPPORT. A group's completion: the counters that it raises (R44, R187) and the groups that stay live (R190).
-/

namespace Sys2Proof.Laws

open Sys2Proof Sys2Proof.Machine

variable {r s t u w : State} {c n : Nat}

/-! ### A context's counters (R44, R360) -/

/-- From `s` to `t` context `c` has the stations and the state that it had, and every station holds what it held. -/
structure SameCounters (c : Nat) (s t : State) : Prop where
  sched : t.sched = s.sched
  holder : (t.part (partOfCtx c)).holder = (s.part (partOfCtx c)).holder
  itin : (t.ctx c).itin = (s.ctx c).itin
  state : (t.ctx c).state = (s.ctx c).state
  arch : ∀ j, t.arch j = s.arch j

theorem SameCounters.trans (h : SameCounters c r s) (k : SameCounters c s t) : SameCounters c r t :=
  ⟨k.sched.trans h.sched, k.holder.trans h.holder, k.itin.trans h.itin, k.state.trans h.state, fun j => (k.arch j).trans (h.arch j)⟩

theorem Counted.sameCounters (h : Counted s t) (c : Nat) : SameCounters c s t := by
  refine ⟨h.sched, (h.part _).holder, h.itin c, ?_, h.arch⟩
  obtain ⟨_, e⟩ := h.ctx c
  rw [e]

/-- Free values are drawn. -/
theorem sameCounters_free (s : State) (c n : Nat) : SameCounters c s { s with free := n } := ⟨rfl, rfl, rfl, rfl, fun _ => rfl⟩

theorem sameCounters_modCtx (s : State) {d : Nat} {f : Ctx → Ctx} (hi : ∀ k, (f k).itin = k.itin) (hs : ∀ k, (f k).state = k.state) :
    SameCounters c s (s.modCtx d f) := by
  refine ⟨rfl, rfl, ?_, ?_, fun _ => rfl⟩
  · rw [modCtx_ctx]
    split
    · rename_i e
      rw [hi, e]
    · rfl
  · rw [modCtx_ctx]
    split
    · rename_i e
      rw [hs, e]
    · rfl

theorem SameCounters.counting (h : SameCounters c s t) : t.counting c = s.counting c := by
  rw [State.counting, State.holds, h.holder, h.state, State.counting, State.holds]

theorem SameCounters.stnOfCtx (h : SameCounters c s t) (j : Nat) : t.stnOfCtx c j = s.stnOfCtx c j := by
  simp only [State.stnOfCtx, State.stnBase, State.eighths, h.itin, h.sched]

theorem SameCounters.stnsOfCtx (h : SameCounters c s t) : t.stnsOfCtx c = s.stnsOfCtx c := by
  simp only [State.stnsOfCtx, State.stnBase, State.eighths, h.itin, h.sched]

theorem SameCounters.stnCount (h : SameCounters c s t) : t.stnCount c = s.stnCount c := by
  rw [State.stnCount, h.itin, State.stnCount]

theorem SameCounters.token (h : SameCounters c s t) (j n : Nat) : t.token c j n = s.token c j n := by
  show (t.arch _).token n = (s.arch _).token n
  rw [h.arch, h.stnOfCtx]

/-! ### The counters of a list of stations rise (R187) -/

/-- Counter `n` of a station rises by `m` and names its producer. -/
def raiseTagged (n m : Nat) (p : Producer) (a : Arch) : Arch :=
  { raiseToken a n m with producers := mset .unattributed a.producers n p }

theorem raiseTagged_rose (a : Arch) {n m : Nat} (p : Producer) (h : a.token n + m ≤ 65535) : a.Rose (raiseTagged n m p a) n m :=
  raiseToken_rose a h

/-- An increment that names its producer, one of the package. -/
theorem incToken_tagged (s : State) {c rel n m : Nat} {p : Producer} {blame : Option (Nat × Nat × Nat)} (hr : rel < s.stnCount c)
    (hc : s.counting c = true) (ht : s.token c rel n + m ≤ 65535) (hp : p.external = false) :
    ∃ u, Counted s u ∧ s.incToken c rel n m p true blame = u.modArch (s.stnOfCtx c rel) (raiseTagged n m p) := by
  unfold State.incToken
  extract_lets x st
  rw [if_neg (Nat.not_le.mpr hr), if_pos hc, if_neg (Nat.not_lt.mpr ht), hp]
  refine ⟨if (s.stn st).arch.waitsOn n then s.modStn st Stn.noteHeld else s, ?_, rfl⟩
  split
  · exact counted_noteHeld s st
  · exact .refl s

/-- A context's stations are distinct. -/
theorem stnOfCtx_inj (h : (s.stnsOfCtx c).Nodup) {i j : Nat} (hi : i < s.stnCount c) (hj : j < s.stnCount c)
    (e : s.stnOfCtx c i = s.stnOfCtx c j) : i = j := by
  have get {k : Nat} (hk : k < s.stnCount c) : (s.stnsOfCtx c)[k]? = some (s.stnOfCtx c k) := by
    unfold State.stnCount at hk
    simp [State.stnsOfCtx, State.stnOfCtx, List.getElem?_eq_getElem hk]
  have hl : i < (s.stnsOfCtx c).length := by simpa [State.stnsOfCtx, State.stnCount] using hi
  exact (List.getElem?_inj hl h).mp (by rw [get hi, get hj, e])

/-- Counter `n` may rise by 1 at each of the stations `l` of the context, which count. -/
structure MayRise (s : State) (c : Nat) (l : List Nat) (n : Nat) : Prop where
  counting : s.counting c = true
  stations : (s.stnsOfCtx c).Nodup
  nodup : l.Nodup
  room : ∀ j ∈ l, j < s.stnCount c ∧ s.token c j n < 65535

theorem SameCounters.mayRise {l : List Nat} (h : SameCounters c s t) (k : MayRise s c l n) : MayRise t c l n :=
  ⟨h.counting ▸ k.counting, h.stnsOfCtx ▸ k.stations, k.nodup, fun j hj => by
    rw [h.stnCount, h.token]
    exact k.room j hj⟩

/-- Counter `n` rose by 1 at the stations `l` of context `c`, and no other station holds anything else. -/
def Notified (c : Nat) (l : List Nat) (n : Nat) (s t : State) : Prop :=
  (∀ j ∈ l, (s.arch (s.stnOfCtx c j)).Rose (t.arch (s.stnOfCtx c j)) n 1) ∧
    ∀ st, (∀ j ∈ l, st ≠ s.stnOfCtx c j) → t.arch st = s.arch st

theorem SameCounters.notified {l : List Nat} (h : SameCounters c s t) (k : Notified c l n t u) : Notified c l n s u := by
  simpa only [Notified, h.stnOfCtx, h.arch] using k

theorem Books.mayRise {l : List Nat} (h : Books s t) (k : MayRise s c l n)
    (ha : ∀ j ∈ l, t.arch (s.stnOfCtx c j) = s.arch (s.stnOfCtx c j)) : MayRise t c l n := by
  refine ⟨h.counting c ▸ k.counting, ?_, k.nodup, fun j hj => ?_⟩
  · simp only [State.stnsOfCtx, State.stnBase, State.eighths, h.itin, h.sched]
    exact k.stations
  · have e : t.token c j n = s.token c j n := by
      show (t.arch _).token n = (s.arch _).token n
      rw [h.stnOfCtx, ha j hj]
    rw [h.stnCount, e]
    exact k.room j hj

theorem incEach_spec {l : List Nat} {p : Producer} (h : MayRise s c l n) (hp : p.external = false) :
    Books s (s.incEach c l n p) ∧ Notified c l n s (s.incEach c l n p) := by
  induction l generalizing s with
  | nil => exact ⟨.refl s, nofun, fun _ _ => rfl⟩
  | cons j l ih =>
    obtain ⟨hj, hroom⟩ := h.room j List.mem_cons_self
    obtain ⟨hjl, hl⟩ := List.nodup_cons.mp h.nodup
    obtain ⟨u, hu, e⟩ := incToken_tagged s (blame := none) hj h.counting (m := 1) hroom hp
    have apart : ∀ i ∈ l, s.stnOfCtx c i ≠ s.stnOfCtx c j := fun i hi e =>
      hjl (stnOfCtx_inj h.stations (h.room i (List.mem_cons_of_mem j hi)).1 hj e ▸ hi)
    have hb : Books s (s.incToken c j n 1 p true none) := e ▸ hu.toBooks.trans (books_modArch u _ _)
    have ha (i : Nat) : (s.incToken c j n 1 p true none).arch i =
        if i = s.stnOfCtx c j then raiseTagged n 1 p (s.arch i) else s.arch i := by rw [e, modArch_arch, hu.arch]
    have rest : MayRise s c l n := ⟨h.counting, h.stations, hl, fun i hi => h.room i (List.mem_cons_of_mem j hi)⟩
    obtain ⟨hb', hrose, hother⟩ := ih (hb.mayRise rest fun i hi => by rw [ha, if_neg (apart i hi)])
    simp only [hb.stnOfCtx] at hrose hother
    refine ⟨hb.trans hb', fun i hi => ?_, fun st hst => ?_⟩
    · rcases List.mem_cons.mp hi with rfl | hi
      · show (s.arch _).Rose ((State.incEach _ c l n p).arch _) n 1
        rw [hother _ fun k hk => (apart k hk).symm, ha, if_pos rfl]
        exact raiseTagged_rose _ p hroom
      · have := hrose i hi
        rw [ha, if_neg (apart i hi)] at this
        exact this
    · refine (hother st fun k hk => hst k (List.mem_cons_of_mem j hk)).trans ?_
      rw [ha, if_neg (hst j List.mem_cons_self)]

/-! ### A group completes (R190) -/

/-- A context's live groups once `q` has completed. -/
def markDone (v : Caravan) (q : GroupRun) (k : Ctx) : Ctx :=
  { k with caravan := { k.caravan with
    live := k.itin.stillLive v (k.caravan.live.map fun x => if x == q then { x with done := true, notified := true } else x) } }

theorem completeGroup_eq {v : Caravan} {q : GroupRun} {d : GroupDecl} (hd : v.groups[q.group]? = some d) (hq : q.notified = false)
    (hw : w = s.fillGroup c v q) (hs : (w.ctx c).state ≠ .tearingDown) :
    s.completeGroup c v q = (w.modCtx c (markDone v q)).incEach c ((w.ctx c).itin.notified d) d.notifyToken .caravan := by
  unfold State.completeGroup
  rw [← hw, hd, hq]
  dsimp only
  rw [if_neg (by simpa using hs), if_neg Bool.false_ne_true, modCtx_ctx_same]
  rfl

theorem mem_stillLive {it : Itin} {v : Caravan} {l : List GroupRun} {q : GroupRun} (h : q ∈ it.stillLive v l) : q ∈ l := by
  obtain ⟨⟨x, i⟩, hx, e⟩ := List.mem_filterMap.mp h
  dsimp only at e
  split at e
  · cases e
  · cases e
    exact List.fst_mem_of_mem_zipIdx hx

theorem stillLive_keeps {it : Itin} {v : Caravan} {l : List GroupRun} {q : GroupRun} (h : q ∈ l) (hq : q.done = false) :
    q ∈ it.stillLive v l := by
  obtain ⟨i, hi, rfl⟩ := List.mem_iff_getElem.mp h
  exact List.mem_filterMap.mpr ⟨(l[i], i), List.mem_zipIdx_iff_getElem?.mpr (List.getElem?_eq_getElem hi), by simp [hq]⟩

/-- A completion moves its context's schedule by `markDone` alone. -/
theorem completeGroup_schedule {v : Caravan} {q : GroupRun} {d : GroupDecl} (hd : v.groups[q.group]? = some d) (hq : q.notified = false)
    (hw : w = s.fillGroup c v q) (hs : (w.ctx c).state ≠ .tearingDown) :
    schedule ((s.completeGroup c v q).ctx c) = schedule (markDone v q (w.ctx c)) := by
  rw [completeGroup_eq hd hq hw hs, (SameSchedules.refl _).incEach c, modCtx_ctx_same]

/-- A completion notifies the group's stations and changes nothing else after its ranges have come. -/
theorem completeGroup_notifies {v : Caravan} {q : GroupRun} {d : GroupDecl} (hd : v.groups[q.group]? = some d) (hq : q.notified = false)
    (hw : w = s.fillGroup c v q) (hs : (w.ctx c).state ≠ .tearingDown) (hm : MayRise w c ((w.ctx c).itin.notified d) d.notifyToken) :
    Books (w.modCtx c (markDone v q)) (s.completeGroup c v q) ∧
      Notified c ((w.ctx c).itin.notified d) d.notifyToken w (s.completeGroup c v q) := by
  have hk : SameCounters c w (w.modCtx c (markDone v q)) := sameCounters_modCtx w (fun _ => rfl) fun _ => rfl
  obtain ⟨hb, hn⟩ := incEach_spec (p := .caravan) (hk.mayRise hm) rfl
  rw [completeGroup_eq hd hq hw hs]
  exact ⟨hb, hk.notified hn⟩

/-- A group that is live and not complete was live, and is another than the one that completed. -/
theorem markDone_live {v : Caravan} {q x : GroupRun} {k : Ctx} (h : x ∈ (markDone v q k).caravan.live) (hx : x.done = false) :
    x ∈ k.caravan.live ∧ x ≠ q := by
  obtain ⟨y, hy, e⟩ := List.mem_map.mp (mem_stillLive h)
  split at e
  · subst e
    cases hx
  · rename_i hne
    subst e
    exact ⟨hy, by simpa using hne⟩

end Sys2Proof.Laws
end

section
/-!
SUPPORT. What a fetched range changes (R45, R193) and what a group's beginning changes (R188, R190), with the obligation on caravan
groups.
-/

namespace Sys2Proof.Laws

open Sys2Proof Sys2Proof.Machine

variable {r s t u w : State} {c n : Nat}

/-! ### A range is fetched (R45, R190, R193) -/

/-- HBM bytes are counted and charged: contexts, stations and images hold what they held. -/
structure HbmCharged (s t : State) : Prop where
  frame : ∃ stks parts ctxs, t = { s with stks := stks, parts := parts, ctxs := ctxs }
  holder : ∀ p, (t.part p).holder = (s.part p).holder
  ctx : ∀ c, CtxCharged (s.ctx c) (t.ctx c)

theorem HbmCharged.refl (s : State) : HbmCharged s s := ⟨⟨_, _, _, rfl⟩, fun _ => rfl, fun _ => .refl _⟩

theorem HbmCharged.trans (h : HbmCharged r s) (k : HbmCharged s t) : HbmCharged r t where
  frame := by
    obtain ⟨_, _, _, rfl⟩ := h.frame
    obtain ⟨_, _, _, rfl⟩ := k.frame
    exact ⟨_, _, _, rfl⟩
  holder p := (k.holder p).trans (h.holder p)
  ctx c := (h.ctx c).trans (k.ctx c)

theorem hbmCharged_none (s : State) (n cls bytes : Nat) : HbmCharged s (s.hbmBytes n cls bytes none) := by
  refine ⟨⟨_, _, _, rfl⟩, fun p => ?_, fun c => ?_⟩
  · show (State.part (State.modPart _ _ _) p).holder = _
    rw [modPart_part]
    split
    · rename_i e
      rw [e]
      rfl
    · rfl
  · unfold State.ctx
    rw [(hbmBytes_none s n cls bytes).1]
    exact .refl _

theorem hbmCharged_charged (s : State) (c e : Nat) : HbmCharged s (s.modCtx c (charged e)) := by
  refine ⟨⟨_, _, _, rfl⟩, fun _ => rfl, fun d => ?_⟩
  rw [modCtx_ctx]
  split
  · rename_i h
    exact h ▸ ⟨_, rfl⟩
  · exact .refl _

theorem hbmCharged_hbmBytes (s : State) (n cls bytes c : Nat) : HbmCharged s (s.hbmBytes n cls bytes (some c)) := by
  obtain ⟨e, he⟩ := hbmBytes_some s n cls bytes c
  rw [he]
  exact (hbmCharged_none s n cls bytes).trans (hbmCharged_charged _ c e)

theorem hbmCharged_homeTraffic (s : State) (c o n : Nat) : HbmCharged s (s.homeTraffic c o n) := by
  unfold State.homeTraffic
  split
  · exact .refl s
  · rename_i g _
    refine List.foldlRecOn (motive := HbmCharged s) _ _ (.refl s) fun u hu x _ => ?_
    dsimp only
    split
    · exact foldNat_keeps (P := HbmCharged s) u _ _ hu fun w _ _ hw => hw.trans (hbmCharged_hbmBytes w _ _ _ c)
    · exact hu

theorem HbmCharged.sameCounters (h : HbmCharged s t) (c : Nat) : SameCounters c s t := by
  have harch (j : Nat) : t.arch j = s.arch j := by
    obtain ⟨_, _, _, rfl⟩ := h.frame
    rfl
  have hsched : t.sched = s.sched := by
    obtain ⟨_, _, _, rfl⟩ := h.frame
    rfl
  obtain ⟨_, e⟩ := h.ctx c
  exact ⟨hsched, h.holder _, by rw [e], by rw [e], harch⟩

/-- From `s` to `t` bytes are written at `dst` of context `c`; images, schedules, counters and other contexts' bytes stand. -/
structure Fetched (c dst : Nat) (bs : Bytes) (s t : State) : Prop where
  counters : SameCounters c s t
  images : t.images = s.images
  others : ∀ e, e ≠ c → (t.ctx e).store = (s.ctx e).store
  store : (t.ctx c).store = wrBytes (s.ctx c).store dst bs
  caravan : (t.ctx c).caravan = (s.ctx c).caravan

/-- The bytes are written and counted. -/
theorem fetched_put (s : State) (c dst : Nat) (bs : Bytes) : Fetched c dst bs s (s.put c dst bs) := by
  unfold State.put
  have hp := sameCounters_modCtx (c := c) s (d := c) (f := fun k => k.putBytes (s.reading c) dst bs) (fun _ => rfl) fun _ => rfl
  have hs (e : Nat) := modCtx_ctx s c e fun k => k.putBytes (s.reading c) dst bs
  have hi : (s.modCtx c fun k => k.putBytes (s.reading c) dst bs).images = s.images := rfl
  generalize (s.modCtx c fun k => k.putBytes (s.reading c) dst bs) = u at *
  have hq := counted_storeTraffic u c 2 dst bs.length
  have hstore := hq.sameStores
  have hc : ((u.storeTraffic c 2 dst bs.length).ctx c).caravan = (u.ctx c).caravan := by
    obtain ⟨_, e⟩ := hq.ctx c
    rw [e]
  have himg : (u.storeTraffic c 2 dst bs.length).images = u.images := by
    obtain ⟨_, _, _, e⟩ := hq.frame
    rw [e]
  refine ⟨hp.trans (hq.sameCounters c), himg.trans hi, fun e he => ?_, ?_, ?_⟩
  · rw [hstore, hs, if_neg he]
  · rw [hstore, hs, if_pos rfl]
    rfl
  · rw [hc, hs, if_pos rfl]
    rfl

theorem HbmCharged.fetched {dst : Nat} {bs : Bytes} (h : HbmCharged s t) (k : Fetched c dst bs t u) : Fetched c dst bs s u := by
  have hi : t.images = s.images := by
    obtain ⟨_, _, _, rfl⟩ := h.frame
    rfl
  have hstore (e : Nat) : (t.ctx e).store = (s.ctx e).store := by
    obtain ⟨_, e⟩ := h.ctx e
    rw [e]
  have hc : (t.ctx c).caravan = (s.ctx c).caravan := by
    obtain ⟨_, e⟩ := h.ctx c
    rw [e]
  exact ⟨(h.sameCounters c).trans k.counters, k.images.trans hi, fun e he => (k.others e he).trans (hstore e),
    k.store.trans (by rw [hstore]), k.caravan.trans hc⟩

/-- The range `dst ..` of a substituted tensor is noted. -/
def noteWide (wide : Bool) (dst n : Nat) (k : Ctx) : Ctx := if wide then { k with wide := k.wide ++ [(dst, n)] } else k

theorem Fetched.wide {dst n : Nat} {bs : Bytes} (h : Fetched c dst bs s t) (wide : Bool) :
    Fetched c dst bs s (t.modCtx c (noteWide wide dst n)) := by
  have hk (k : Ctx) : ∃ x, noteWide wide dst n k = { k with wide := x } := by
    unfold noteWide
    split
    · exact ⟨_, rfl⟩
    · exact ⟨_, rfl⟩
  obtain ⟨x, hx⟩ := hk (t.ctx c)
  refine ⟨h.counters.trans (sameCounters_modCtx t (fun k => ?_) fun k => ?_), h.images, fun e he => ?_, ?_, ?_⟩
  · obtain ⟨x, e⟩ := hk k
    rw [e]
  · obtain ⟨x, e⟩ := hk k
    rw [e]
  · rw [modCtx_ctx_ne _ _ he]
    exact h.others e he
  · rw [modCtx_ctx_same, hx]
    exact h.store
  · rw [modCtx_ctx_same, hx]
    exact h.caravan

/-- A range that is not poisoned: the bytes that the engine sees are written. -/
theorem fetched_fill {g : Image} {o : Nat} (hg : s.imageOf c = some g) (hp : g.poisoned o n = false) (dst : Nat) (wide : Bool) :
    Fetched c dst (s.imageSeen c s.free o n) s (s.fill c o dst n wide) := by
  have e : s.fill c o dst n wide = ((s.draw.2.homeTraffic c o n).put c dst (s.imageSeen c s.free o n)).modCtx c (noteWide wide dst n) := by
    unfold State.fill
    rw [hg]
    dsimp only
    rw [if_neg (by simp [hp])]
    rfl
  have h := (hbmCharged_homeTraffic s.draw.2 c o n).fetched (fetched_put _ c dst (s.imageSeen c s.free o n))
  have hd := sameCounters_free s c (s.free + 1)
  rw [e]
  exact Fetched.wide ⟨hd.trans h.counters, h.images, h.others, h.store, h.caravan⟩ wide

/-! ### What the engine sees of a granule that this package holds (R186, R297) -/

theorem pieces_granule {o : Nat} (h : granules o n = [o / 4096]) : pieces o n = [(o, 0, n)] := by
  have hn : n ≠ 0 := by
    rintro rfl
    cases h
  have hl := congrArg List.length h
  simp only [granules, beq_iff_eq, hn, if_false, List.length_map, List.length_range, List.length_singleton] at hl
  rw [pieces, h, List.map_singleton]
  simp only [List.cons.injEq, Prod.mk.injEq, and_true]
  omega

theorem imageSeen_here {g : Image} {o d : Nat} (hg : s.imageOf c = some g) (h : granules o n = [o / 4096]) (ha : s.awayHome c o = none) :
    s.imageSeen c d o n = s.imageBytes (partOfCtx c) g.id o n := by
  unfold State.imageSeen
  rw [hg]
  dsimp only
  rw [pieces_granule h, List.flatMap_singleton]
  dsimp only
  rw [ha]
  rfl

theorem awayHome_here {g : Image} {o : Nat} (hg : s.imageOf c = some g)
    (h : (s.ctx c).holdsHome (match regionOfImage g.regions o with | some x => x.homes | none => 1)
      (s.imagePlace (partOfCtx c) g.regions o).1 = true) : s.awayHome c o = none := by
  unfold State.awayHome
  rw [hg]
  exact if_pos h

theorem bytesPut_wrBytes (m : Mem) (a : Nat) (bs : Bytes) : BytesPut m (wrBytes m a bs) a bs :=
  ⟨rdBytes_wrBytes m a bs, fun i hi => rdByte_wrBytes_out m a i bs hi⟩

/-! ### A group begins (R190) -/

/-- The engine has read the slots of a group's entries. -/
def groupRead (s : State) (c : Nat) (es : List EntryDecl) : State :=
  (es.filter (·.indirect)).foldl (fun s e => s.shapeTraffic c e.slot) (s.seenStore c)

/-- Reading slots counts bytes and may use up free values. -/
theorem groupRead_spec (s : State) (c : Nat) (es : List EntryDecl) : ∃ n, Counted { s with free := n } (groupRead s c es) := by
  obtain ⟨n, hn⟩ := seenStore_spec s c
  refine ⟨n, ?_⟩
  rw [groupRead, hn]
  refine List.foldlRecOn (motive := Counted { s with free := n }) _ _ (.refl _) fun u hu e _ => ?_
  unfold State.shapeTraffic
  split
  · exact hu.trans (counted_storeTraffic u c 2 _ 8)
  · exact hu

/-- The schedule moves on past its next group, which is live as `q`. -/
def beginGroup (v : Caravan) (q : GroupRun) (k : Ctx) : Ctx :=
  { k with caravan := { k.caravan.advance v with live := k.itin.stillLive v (k.caravan.live ++ [q]) } }

theorem advance_spec (x : CaravanRun) (v : Caravan) :
    (x.advance v).next = (if v.cyclic ∧ v.groups.length ≤ x.next + 1 then 0 else x.next + 1) ∧
    (x.advance v).pass = if v.cyclic ∧ v.groups.length ≤ x.next + 1 then x.pass + 1 else x.pass := by
  unfold CaravanRun.advance
  by_cases h : v.cyclic ∧ v.groups.length ≤ x.next + 1
  · simp [h]
  · rw [if_neg h, if_neg h]
    dsimp only
    rw [if_neg (by simpa using h)]
    exact ⟨rfl, rfl⟩

/-- The state in which the next group has begun as `q`. -/
def groupBegun (s : State) (c : Nat) (v : Caravan) (q : GroupRun) : State :=
  (groupRead s c (v.entriesOf q.group)).modCtx c (beginGroup v q)

theorem exec_caravanGroupBegin {v : Caravan} {d : GroupDecl} {vs : List Nat} (hc : c < 128) (hv : (s.ctx c).itin.caravan = some v)
    (hr : (s.ctx c).caravanRuns = true) (hd : v.groups[(s.ctx c).caravan.next]? = some d) (hb : (s.ctx c).groupMayBegin d = true)
    (hs : (s.seenCtx c).resolve (v.entriesOf (s.ctx c).caravan.next) = .ok vs) {q : GroupRun}
    (hq : q = { group := (s.ctx c).caravan.next, pass := (s.ctx c).caravan.pass, vs := vs }) :
    exec (.caravanGroupBegin c) s = .next (if ((s.ctx c).itin.fills v q.group q.vs).isEmpty
      then (groupBegun s c v q).completeGroup c v q else (groupBegun s c v q).askGroup c v q) := by
  subst hq
  show execCaravanGroupBegin c s = _
  unfold execCaravanGroupBegin
  dsimp only
  rw [hv]
  dsimp only
  rw [hd]
  dsimp only
  rw [if_neg (by simp [hc, hr, hb]), hs]
  rfl

/-- What has changed when a group has begun: its context's schedule, counts and free values. -/
structure GroupBegun (c : Nat) (v : Caravan) (q : GroupRun) (s t : State) : Prop where
  counters : SameCounters c s t
  frame : ∃ ctxs stns parts free, t = { s with ctxs := ctxs, stns := stns, parts := parts, free := free }
  ctx : ∃ e, t.ctx c = beginGroup v q { s.ctx c with energy := e }

theorem groupBegun_spec (s : State) (c : Nat) (v : Caravan) (q : GroupRun) : GroupBegun c v q s (groupBegun s c v q) := by
  obtain ⟨n, h⟩ := groupRead_spec s c (v.entriesOf q.group)
  refine ⟨((sameCounters_free s c n).trans (h.sameCounters c)).trans (sameCounters_modCtx _ (fun _ => rfl) fun _ => rfl), ?_, ?_⟩
  · obtain ⟨_, _, _, e⟩ := h.frame
    rw [groupBegun, e]
    exact ⟨_, _, _, _, rfl⟩
  · obtain ⟨e, he⟩ := h.ctx c
    rw [groupBegun, modCtx_ctx_same, he]
    exact ⟨e, rfl⟩

theorem GroupBegun.groupAway {v v' : Caravan} {q q' : GroupRun} (h : GroupBegun c v q s t) : t.groupAway c v' q' = s.groupAway c v' q' := by
  have hi := h.counters.itin
  obtain ⟨_, _, _, _, rfl⟩ := h.frame
  simp only [State.groupAway, State.awayGranules, State.awayHome, State.imageOf, Ctx.holdsHome, hi]
  rfl

theorem askGroup_here {v : Caravan} {q : GroupRun} (h : s.groupAway c v q = []) : s.askGroup c v q = s := by
  unfold State.askGroup
  rw [h]
  rfl

theorem fillGroup_nil {v : Caravan} {q : GroupRun} (h : (s.ctx c).itin.fills v q.group q.vs = []) : s.fillGroup c v q = s := by
  rw [State.fillGroup, h]
  rfl

theorem fillGroup_singleton {v : Caravan} {q : GroupRun} {o dst : Nat} {wide : Bool}
    (h : (s.ctx c).itin.fills v q.group q.vs = [(o, dst, n, wide)]) : s.fillGroup c v q = s.fill c o dst n wide := by
  rw [State.fillGroup, h]
  rfl

theorem exec_caravanGroupComplete {v : Caravan} {q : GroupRun} {i : Nat} (hc : c < 128) (hv : (s.ctx c).itin.caravan = some v)
    (hr : (s.ctx c).caravanRuns = true) (hi : (s.ctx c).caravan.live[i]? = some q) (hq : q.done = false)
    (hw : s.groupWaits c v ((s.ctx c).caravan.live.take i) q = false) (hh : s.groupHere c v q = true) :
    exec (.caravanGroupComplete c i) s = .next (s.completeGroup c v q) := by
  show execCaravanGroupComplete c i s = _
  unfold execCaravanGroupComplete
  dsimp only
  rw [hv, hi]
  dsimp only
  rw [if_neg (by simp [hc, hr, hq, hw, hh])]

theorem caravanRuns_state {k : Ctx} (h : k.caravanRuns = true) : k.state ≠ .tearingDown := by
  intro e
  simp [Ctx.caravanRuns, e] at h

/-- The completion of a group of one range that has been fetched. -/
theorem groupCompletes_spec {v : Caravan} {q : GroupRun} {d : GroupDecl} {dst : Nat} {bs : Bytes} (hw : s.fillGroup c v q = w)
    (h : Fetched c dst bs s w) (hd : v.groups[q.group]? = some d) (hq : q.notified = false) (hs : (s.ctx c).state ≠ .tearingDown)
    (hm : MayRise s c ((s.ctx c).itin.notified d) d.notifyToken) :
    let t := s.completeGroup c v q
    BytesPut (s.ctx c).store (t.ctx c).store dst bs ∧
    (∀ x ∈ (t.ctx c).caravan.live, x.done = false → x ∈ (s.ctx c).caravan.live ∧ x ≠ q) ∧
    (∀ j ∈ (s.ctx c).itin.notified d, (s.arch (s.stnOfCtx c j)).Rose (t.arch (s.stnOfCtx c j)) d.notifyToken 1) ∧
    (∀ st, (∀ j ∈ (s.ctx c).itin.notified d, st ≠ s.stnOfCtx c j) → t.arch st = s.arch st) ∧
    (∀ e, e ≠ c → (t.ctx e).store = (s.ctx e).store) ∧ t.images = s.images := by
  have hs' : (w.ctx c).state ≠ .tearingDown := h.counters.state ▸ hs
  have hm' : MayRise w c ((w.ctx c).itin.notified d) d.notifyToken := by
    rw [h.counters.itin]
    exact h.counters.mayRise hm
  obtain ⟨hb, hn⟩ := completeGroup_notifies hd hq hw.symm hs' hm'
  have hsched := completeGroup_schedule hd hq hw.symm hs'
  rw [h.counters.itin] at hn
  obtain ⟨hrose, hother⟩ := h.counters.notified hn
  have hstore (e : Nat) : ((s.completeGroup c v q).ctx e).store = (w.ctx e).store := by
    rw [hb.sameStores e, modCtx_ctx]
    split
    · rename_i he
      rw [he]
      rfl
    · rfl
  have himg : (s.completeGroup c v q).images = w.images := by
    obtain ⟨_, _, _, e⟩ := hb.frame
    rw [e]
    rfl
  refine ⟨?_, fun x hx hxd => ?_, hrose, hother, fun e he => (hstore e).trans (h.others e he), himg.trans h.images⟩
  · rw [hstore, h.store]
    exact bytesPut_wrBytes _ _ _
  · rw [show ((s.completeGroup c v q).ctx c).caravan.live = _ from congrArg Prod.fst hsched] at hx
    rw [← h.caravan]
    exact markDone_live hx hxd

/-- What the beginning of a group comes to, by whether the group has anything to fetch. -/
theorem groupBegins_spec {v : Caravan} {q : GroupRun} {d : GroupDecl} {l : List (Nat × Nat × Nat × Bool)} (h : GroupBegun c v q s u)
    (hd : v.groups[q.group]? = some d) (hs : (s.ctx c).state ≠ .tearingDown) (hdone : q.done = false) (hnot : q.notified = false)
    (hl : (s.ctx c).itin.fills v q.group q.vs = l) :
    let t := if l.isEmpty then u.completeGroup c v q else u.askGroup c v q
    let k := s.ctx c
    (¬ l = [] → q ∈ (t.ctx c).caravan.live) ∧
    (t.ctx c).caravan.next = (if v.cyclic ∧ v.groups.length ≤ k.caravan.next + 1 then 0 else k.caravan.next + 1) ∧
    (t.ctx c).caravan.pass = (if v.cyclic ∧ v.groups.length ≤ k.caravan.next + 1 then k.caravan.pass + 1 else k.caravan.pass) ∧
    (¬ l = [] → s.groupAway c v q = [] → { t.ctx c with caravan := k.caravan, energy := k.energy } = k ∧
      (∀ j, t.arch j = s.arch j) ∧ { t with ctxs := s.ctxs, stns := s.stns, parts := s.parts, free := s.free } = s) ∧
    (l = [] → s.counting c = true → (s.stnsOfCtx c).Nodup → (k.itin.notified d).Nodup →
      (∀ j ∈ k.itin.notified d, j < s.stnCount c ∧ s.token c j d.notifyToken < 65535) →
      ∀ j ∈ k.itin.notified d, (s.arch (s.stnOfCtx c j)).Rose (t.arch (s.stnOfCtx c j)) d.notifyToken 1) := by
  have hi := h.counters.itin
  have haway := h.groupAway (v' := v) (q' := q)
  obtain ⟨e, hctx⟩ := h.ctx
  obtain ⟨hnext, hpass⟩ := advance_spec (s.ctx c).caravan v
  cases l with
  | nil =>
    have hu : u = u.fillGroup c v q := (fillGroup_nil (hi ▸ hl)).symm
    have hs' : (u.ctx c).state ≠ .tearingDown := h.counters.state ▸ hs
    have hsched := completeGroup_schedule hd hnot hu hs'
    rw [hctx] at hsched
    refine ⟨fun hne => absurd rfl hne, (congrArg (·.2.1) hsched).trans hnext, (congrArg (·.2.2) hsched).trans hpass,
      fun hne => absurd rfl hne, fun _ hcount hst hnd hroom => ?_⟩
    have hm := h.counters.mayRise ⟨hcount, hst, hnd, hroom⟩
    rw [← hi] at hm ⊢
    exact (h.counters.notified (completeGroup_notifies hd hnot hu hs' hm).2).1
  | cons x l =>
    have hsched := sameSchedules_askGroup u c v q c
    rw [hctx] at hsched
    refine ⟨fun _ => ?_, (congrArg (·.2.1) hsched).trans hnext, (congrArg (·.2.2) hsched).trans hpass, fun _ ha => ?_, nofun⟩
    · show q ∈ ((u.askGroup c v q).ctx c).caravan.live
      rw [show ((u.askGroup c v q).ctx c).caravan.live = _ from congrArg Prod.fst hsched]
      exact stillLive_keeps (List.mem_append_right _ (List.mem_singleton_self q)) hdone
    · dsimp only
      rw [if_neg (by simp), askGroup_here (haway.trans ha), hctx]
      refine ⟨rfl, h.counters.arch, ?_⟩
      obtain ⟨_, _, _, _, e⟩ := h.frame
      rw [e]

/-! ### The obligation -/

/-- Settles O22: a group that begins is live and the schedule moves on (`groupBegun_spec`), which asking homes and raising counters
leave so (`sameSchedules_askGroup`, `SameSchedules.incEach`); one that completes has its bytes written (`fetched_fill`), is live no
more unless done (`markDone_live`), and its stations' counters rise (`incEach_spec`). -/
theorem caravanGroups : Obligations.CaravanGroups := by
  intro s c v hc hv hr k
  refine ⟨?_, ?_⟩
  · intro d vs hd hb hs r empty
    refine ⟨_, exec_caravanGroupBegin hc hv hr hd hb hs rfl, ?_⟩
    exact groupBegins_spec (groupBegun_spec s c v r) hd (caravanRuns_state hr) rfl rfl rfl
  · intro i r d o dst n wide g hi hdone hnot hwait hhere hd hfills hg hpois hgran hhome hcount hst hnd hroom
    refine ⟨_, exec_caravanGroupComplete hc hv hr hi hdone hwait hhere, ?_⟩
    have hput := fetched_fill (c := c) hg hpois dst wide
    rw [imageSeen_here hg hgran (awayHome_here hg hhome)] at hput
    exact groupCompletes_spec (fillGroup_singleton hfills) hput hd hnot (caravanRuns_state hr) ⟨hcount, hst, hnd, hroom⟩

end Sys2Proof.Laws
end
